-- ==== Sys2Proof/Word.lean ====
section
/-! DEFINITION. The word types of the FJ-2560 and the sparse maps that hold its memories and unit tables.
Rules cited as R<n> are the numbered rules of spec/. -/

namespace Sys2Proof

/-- One byte. -/
abbrev Byte := BitVec 8

/-- The 32 value bits of a data word, and the width of every CP register (R11, R22). -/
abbrev Word := BitVec 32

/-- The 4-bit quality tag of a data word (R22). -/
abbrev Tag := BitVec 4

/-- A 36-bit data word: 32 value bits and the quality tag (01, "The 36-bit word and its quality tag"). -/
structure DWord where
  val : Word
  tag : Tag
deriving DecidableEq, Repr, Inhabited

/-- A sparse table by key: keys strictly rising, and no entry equal to what an unlisted key reads as. -/
abbrev SMap (α : Type) := List (Nat × α)

end Sys2Proof
end

