-- ==== Sys2Proof/Syntax.lean ====
section
/-! DEFINITION. The commands of the block: one constructor of `Instr` per row of spec/opcode_table.json, and the
types of their operands. An LE instruction's operands are the fields of its word under R53. -/

namespace Sys2Proof

/-- Module states, coded as in SYS_STATE.STATE (R21, 14 "System registers"). -/
inductive ModState where
  | init | ready | run | shadow | hold | safe | sleep
deriving DecidableEq, Repr, Inhabited

/-- Pair roles, coded as in PAIR_STATUS.ROLE (R193). -/
inductive Role where
  | solo | active | standby | undecided
deriving DecidableEq, Repr, Inhabited

/-- Where an LE instruction stands in its bundle: its lane, and whether it is the last executing
instruction of the bundle, so that the bundle retires with it (R46, R49, R52). -/
structure At where
  lane : BitVec 2
  last : Bool
deriving DecidableEq, Repr, Inhabited

/-- One entry of the block table (R109; layout of EDIT_ENT_A and EDIT_ENT_B). -/
structure BlockEntry where
  pbase : BitVec 18
  len : BitVec 9
  classes : BitVec 8
  poolFirst : BitVec 6
  poolCount : BitVec 7
deriving DecidableEq, Repr, Inhabited

/-- A reference to a migration table: its first bundle and its number of entries (R119). -/
structure MigRef where
  base : BitVec 18
  entries : BitVec 11
deriving DecidableEq, Repr, Inhabited

/-- The Ethernet settings of the COMMS section: address and mask of each port, and the exponent of the interval in seconds at which Sync
messages leave (R238, R341). -/
structure EthCfg where
  ip0 : Word := 0
  mask0 : Word := 0
  ip1 : Word := 0
  mask1 : Word := 0
  ptpLog : Int := 0
deriving DecidableEq, Repr, Inhabited

/-- A rectangle of the panel section's start image, as the panel registers take it: PNL_RECT_POS, SIZE, SRC, STRIDE and SUBMIT (17). -/
structure StartRect where
  pos : Word
  size : Word
  src : Word
  stride : Word
  submit : Word
deriving DecidableEq, Repr, Inhabited

/-- A point that the COMMS section maps for protocol traffic: a register, and whether it may be read and written (R278). -/
structure ProtoPoint where
  addr : Word
  read : Bool
  write : Bool
deriving DecidableEq, Repr, Inhabited

/-- A configuration slot: its bytes (R340), beyond which it reads erased, the verdict on its signature under the configuration key
(R280), and what the bytes of its sections stand for, whose encoding is internal to the vendor base (R341, log 30). `settings` lists
the register writes; each belongs to the section that sets up its register. -/
structure CfgSlot where
  bytes : List Byte
  sigOk : Bool
  settings : List (Word × Word)
  startWarm : Bool
  autoRun : Bool
  prog : List (Nat × BitVec 36)
  pool : List (Nat × (Word × Word))
  table : List (Nat × BlockEntry)
  budget : BitVec 26
  initMem : List (Nat × DWord)
  mig : MigRef
  pmap : List (BitVec 21)
  pmapCrc : Word
  stationGroup : BitVec 16
  stationKey : Option (BitVec 256)
  oemSources : List (BitVec 10 × BitVec 4)
  eth : EthCfg
  points : List ProtoPoint
  start : List StartRect
  startWords : List (Nat × Word)
deriving DecidableEq, Repr, Inhabited

/-- The header of a received twin-link frame (R198); `ok` says that its CRC matched (R199). -/
structure FrameHdr where
  lane : Bool
  ok : Bool
  seat : Bool
  role : Role
  seq : BitVec 16
  ack : BitVec 16
deriving DecidableEq, Repr, Inhabited

/-- The payload of a HEARTBEAT frame (R200). -/
structure Heartbeat where
  state : ModState
  role : Role
  current : Bool
  resync : Bool
  defaulted : Bool
  noRun : Bool
  check : Word
  timeTx : BitVec 64
  echoTx : BitVec 64
  echoRx : BitVec 64
  epochSeq : Word
  lag : BitVec 16
deriving DecidableEq, Repr, Inhabited

/-- The payload of a GIVE_UP frame (R200); kind 1 FAULT, 2 POWER, 3 HANDOVER, 4 FCU_SELF. -/
structure GiveUpMsg where
  kind : BitVec 4
  src : BitVec 10
  reason : BitVec 6
  tick : BitVec 64
deriving DecidableEq, Repr, Inhabited

/-- The payload of an EPOCH_BEGIN frame (R200). -/
structure EpochHdr where
  seq : Word
  tick : BitVec 64
  tbase : Word
  runid : BitVec 16
  progId : Word
  budget : BitVec 26
  blocks : Nat
  sweep : Bool
  sweepLast : Bool
deriving DecidableEq, Repr, Inhabited

/-- What an EDIT frame carries (R123): the block-table changes of a swap or of the swap back of an UNDO, with the tick at which it
landed (EDIT_LANDED); ACCEPT; or DISCARD. -/
inductive EditMsg where
  | changes (undo : Bool) (tick : Word) (live : List (Nat × BlockEntry)) (prev : List (Nat × BlockEntry))
  | accept
  | discard
deriving DecidableEq, Repr, Inhabited

/-- The part of a BLOCK_TABLE frame that stands for the committed edit (R109, R116, R209): the previous entries, the blocks that
the edit changed, and the budget and identity to which an UNDO goes back. -/
structure PrevTable where
  entries : List (Nat × BlockEntry)
  changed : List Nat
  budget : BitVec 26
  id : Word
deriving DecidableEq, Repr, Inhabited

/-- One change of the force table (R265, R200). -/
structure ForceChange where
  idx : BitVec 8
  en : Bool
  addr : BitVec 14
  value : Word
deriving DecidableEq, Repr, Inhabited

/-- An update manifest (R355): its bytes, and the verdict on its signature under the update key (R280). -/
structure ManifestMsg where
  bytes : List Byte
  sigOk : Bool
deriving DecidableEq, Repr, Inhabited

/-- What the staged bytes of a complete part stand for (R354, R363): the slot of part 4, which holds the run-time images of parts 3, 5 and 6
of the same build (its own `bytes` are the staged ones), and the verdicts on the firmware of parts 1 and 2 under the vendor firmware
key and the OEM key (R280). -/
structure UpdImage where
  slot : CfgSlot
  fwSig : Bool
  oemSig : Bool
deriving DecidableEq, Repr, Inhabited

/-- Messages between the two CPs' firmware that the spec names (R360, R362, R365, R366). -/
inductive CpMsg where
  | manifest (m : ManifestMsg)
  | chunk (type : BitVec 4) (c : Nat) (data : List Byte) (crc : Word) (readOk : Bool) (img : Option UpdImage)
  | ready (seq : Word)
  | go (seq : Word)
  | cancel
  | confirmed (seq : Word)
  | fallback
  /-- the vendor base's own messages about an open edit (R122, R124, log 85): a range to be checked, an entry of the staged set,
  and whether a COMMIT or UNDO is pending -/
  | editRange (base : BitVec 18) (len : Nat) (pool : Bool) (crc : Word)
  | editStage (k : Nat) (e : BlockEntry)
  | editPend (on : Bool)
  | other (len : Nat)
deriving DecidableEq, Repr, Inhabited

/-- The payload of a twin-link frame (R200). -/
inductive LinkPayload where
  | heartbeat (p : Heartbeat)
  | giveUp (p : GiveUpMsg)
  | taken (tick : BitVec 64)
  | epochBegin (p : EpochHdr)
  | block (sweep : Bool) (a : BitVec 21) (ws : List DWord)
  | edit (p : EditMsg)
  | force (p : ForceChange)
  | epochEnd (seq : Word) (crc : Word)
  | epochLost (seq : Word)
  | program (bundle : BitVec 19) (ws : List (BitVec 36))
  | rangeAck (base : BitVec 18) (pool : Bool)
  | blockTable (live : List (Nat × BlockEntry)) (prev : PrevTable)
  | cfgReq
  | cfgData (slot : CfgSlot)
  | cfgEnd
  | cpMsg (p : CpMsg)
deriving DecidableEq, Repr

/-- A CAN frame as the frame words lay it out (09 "Frame words"). -/
structure CanFrame where
  id : BitVec 29
  ide : Bool
  fdf : Bool
  brs : Bool
  esi : Bool
  rtr : Bool
  dlc : BitVec 4
  stamp : BitVec 48
  data : List Byte
deriving DecidableEq, Repr, Inhabited

/-- A frame that a bus has carried, and the time from its start of frame to now in ns (R239); its stamp follows from that. -/
structure HeardFrame where
  frame : CanFrame
  age : Nat
deriving DecidableEq, Repr, Inhabited

/-- A service token (R277), with the 32 bytes of its MAC. -/
structure TokenMsg where
  roles : BitVec 8
  scopeKind : BitVec 8
  scope : BitVec 64
  nonce : BitVec 128
  validMin : BitVec 16
  mac : List Byte
deriving DecidableEq, Repr, Inhabited

/-- A clear request (R336), with the 32 bytes of its MAC. -/
structure ClearReq where
  scope : BitVec 8
  serial : BitVec 64
  nonce : BitVec 128
  mac : List Byte
deriving DecidableEq, Repr, Inhabited

/-- On whose behalf the CP makes an access: the vendor base, the OEM partition in its unprivileged mode (R261), the service session of
an interface (R278), protocol traffic (R278), or a service call of the OEM partition: one for the record store (R313), or one that writes a
notice with a REASON of its own, whose DETAIL is the value written (R330). -/
inductive Asker where
  | vendor
  | oem
  | session (i : BitVec 2)
  | protocol
  | oemStore
  | oemNotice (reason : BitVec 6)
deriving DecidableEq, Repr, Inhabited

/-- The target of a CP access: a byte address, and on whose behalf it is made. -/
structure CpAccess where
  addr : Word
  asker : Asker
deriving DecidableEq, Repr, Inhabited

/-- A word of the logic engine as its windows show it: a data word, or a word of the program store (R11, R262). -/
inductive LeWord where
  | data (a : BitVec 21)
  | prog (i : BitVec 20)
deriving DecidableEq, Repr, Inhabited

/-- A strobe sample of a front end (R147, R152): the comparator's level in modes 1, 2 and 5, the current in µA in mode 3. -/
inductive Sample where
  | level (on : Bool)
  | current (ua : Nat)
deriving DecidableEq, Repr, Inhabited

/-- What a second's 1 ms means show of a channel (R161, R325): while its own switch was on, the lowest current from 100 ms after turn-on
onwards and the highest, where there was such a mean; the last current, the terminal voltage in mV, and the on-resistance in mΩ, 0 where
none could be measured. -/
structure ChanMeans where
  onLo : Option Nat
  onHi : Option Nat
  last : Nat
  mv : Nat
  res : Nat
deriving DecidableEq, Repr, Inhabited

/-- What a second's 1 ms means show of a group (R167, R325): its lowest L+ in mV, its last and its highest current in mA, and its
channels. -/
structure GroupMeans where
  mv : Nat
  ma : Nat
  peak : Nat
  chans : List ChanMeans
deriving DecidableEq, Repr, Inhabited

/-- Wake sources of SLEEP, numbered as the bits of SYS_SLEEP.WAKE_EN (R353). -/
inductive WakeSrc where
  | timer | dcd0 | dcd1 | vbus | tokenIn
deriving DecidableEq, Repr, Inhabited

/-- The commands, in the order of spec/opcode_table.json. -/
inductive Instr where
  /-- TICK_BOUNDARY (R17): At T0 of each tick, tick-staged writes take effect, the input latch exchanges the image buffers, the system image is refreshed and Harvest begins shipping the previous epoch. -/
  | tickBoundary
  /-- OUTPUT_COMMIT (R17): At T0 + 2 µs the sealed Q image reaches all channel output stages and the bus output frames, and reflex actions may end. -/
  | outputCommit
  /-- SCAN_START (R17): At T0 + 3 µs the logic engine starts the scan at the scan root. -/
  | scanStart
  /-- OVERRUN (R41): A scan still running at T0 + P − 9 µs has overrun; event 473 fires and a contained fault is recorded. -/
  | overrun
  /-- REFRESH_TIMEOUT (R178): The count of missed commits reaches REFRESH_N and raises a fatal output-refresh timeout. -/
  | refreshTimeout
  /-- EVALUATION_POINT (R217): At T0 + 150 µs the module counts missed partner reference slots and tests takeover and role conditions. -/
  | evaluationPoint
  /-- SCAN_HIST_CLR (R101): Writing CLR clears the scan histogram and SCAN_CYCLES_MAX at the next tick boundary. -/
  | scanHistClr (v : Word)
  /-- NOP (R54): Does nothing for one cycle. -/
  | leNop (c : At)
  /-- LD (R57): Loads the addressed bit, optionally negated, into RLO. -/
  | leLd (c : At) (n st : Bool) (w : BitVec 21) (b : BitVec 6)
  /-- AND (R57): ANDs the addressed bit into RLO. -/
  | leAnd (c : At) (n st : Bool) (w : BitVec 21) (b : BitVec 6)
  /-- OR (R57): ORs the addressed bit into RLO. -/
  | leOr (c : At) (n st : Bool) (w : BitVec 21) (b : BitVec 6)
  /-- XOR (R57): XORs the addressed bit into RLO. -/
  | leXor (c : At) (n st : Bool) (w : BitVec 21) (b : BitVec 6)
  /-- ST (R57): Stores RLO, optionally negated, into the addressed bit with RLO's tag. -/
  | leSt (c : At) (n st : Bool) (w : BitVec 21) (b : BitVec 6)
  /-- SET (R57): Sets the addressed bit when RLO is 1. -/
  | leSet (c : At) (st : Bool) (w : BitVec 21) (b : BitVec 6)
  /-- RST (R57): Clears the addressed bit when RLO is 1. -/
  | leRst (c : At) (st : Bool) (w : BitVec 21) (b : BitVec 6)
  /-- TRGR (R59): Rising trigger gives RLO 1 on a rising input and updates its history bit. -/
  | leTrgr (c : At) (st : Bool) (w : BitVec 21) (b : BitVec 6)
  /-- TRGF (R59): Falling trigger gives RLO 1 on a falling input and updates its history bit. -/
  | leTrgf (c : At) (st : Bool) (w : BitVec 21) (b : BitVec 6)
  /-- PUSH (R62): Pushes RLO with its tag onto the rung stack. -/
  | lePush (c : At)
  /-- POP (R62): Pops the rung stack into RLO. -/
  | lePop (c : At)
  /-- POPAND (R62): Pops the rung stack and ANDs it with RLO. -/
  | lePopand (c : At)
  /-- POPOR (R62): Pops the rung stack and ORs it with RLO. -/
  | lePopor (c : At)
  /-- POPXOR (R62): Pops the rung stack and XORs it with RLO. -/
  | lePopxor (c : At)
  /-- NOT (R63): Inverts RLO. -/
  | leNot (c : At)
  /-- ONE (R63): Sets RLO to 1 with tag GOOD. -/
  | leOne (c : At)
  /-- ZERO (R63): Sets RLO to 0 with tag GOOD. -/
  | leZero (c : At)
  /-- QGOOD (R63): Sets RLO to whether its tag is of class good. -/
  | leQgood (c : At)
  /-- QUSE (R63): Sets RLO to whether its tag is of class good or uncertain. -/
  | leQuse (c : At)
  /-- QSUB (R63): Marks a non-good RLO tag SUBSTITUTED. -/
  | leQsub (c : At)
  /-- RLALL (R64): Loads RLO with the masked AND reduction of a word. -/
  | leRlall (c : At) (i : BitVec 6) (w : BitVec 21)
  /-- RLANY (R64): Loads RLO with the masked OR reduction of a word. -/
  | leRlany (c : At) (i : BitVec 6) (w : BitVec 21)
  /-- RAALL (R64): ANDs the masked AND reduction into RLO. -/
  | leRaall (c : At) (i : BitVec 6) (w : BitVec 21)
  /-- RAANY (R64): ANDs the masked OR reduction into RLO. -/
  | leRaany (c : At) (i : BitVec 6) (w : BitVec 21)
  /-- ROALL (R64): ORs the masked AND reduction into RLO. -/
  | leRoall (c : At) (i : BitVec 6) (w : BitVec 21)
  /-- ROANY (R64): ORs the masked OR reduction into RLO. -/
  | leRoany (c : At) (i : BitVec 6) (w : BitVec 21)
  /-- MOV_LD (R68): Loads a word with its tag into an accumulator. -/
  | leMovLd (c : At) (a : BitVec 3) (m : BitVec 2) (w : BitVec 21)
  /-- MOV_ST (R68): Stores an accumulator with its tag into a word. -/
  | leMovSt (c : At) (a : BitVec 3) (m : BitVec 2) (w : BitVec 21)
  /-- CLR (R68): Writes 0 with tag GOOD to a word. -/
  | leClr (c : At) (a : BitVec 3) (m : BitVec 2) (w : BitVec 21)
  /-- ADD (R70): Integer add, wrapping. -/
  | leAdd (c : At) (a : BitVec 3) (m : BitVec 2) (w : BitVec 21)
  /-- SUB (R70): Integer subtract, wrapping. -/
  | leSub (c : At) (a : BitVec 3) (m : BitVec 2) (w : BitVec 21)
  /-- RSB (R70): Reverse integer subtract. -/
  | leRsb (c : At) (a : BitVec 3) (m : BitVec 2) (w : BitVec 21)
  /-- MUL (R70): Low 32 bits of the integer product. -/
  | leMul (c : At) (a : BitVec 3) (m : BitVec 2) (w : BitVec 21)
  /-- DIV (R70): Signed integer division with fixed results for exceptional cases. -/
  | leDiv (c : At) (a : BitVec 3) (m : BitVec 2) (w : BitVec 21)
  /-- MOD (R70): Remainder of signed division. -/
  | leMod (c : At) (a : BitVec 3) (m : BitVec 2) (w : BitVec 21)
  /-- ADDS (R70): Saturating integer add. -/
  | leAdds (c : At) (a : BitVec 3) (m : BitVec 2) (w : BitVec 21)
  /-- SUBS (R70): Saturating integer subtract. -/
  | leSubs (c : At) (a : BitVec 3) (m : BitVec 2) (w : BitVec 21)
  /-- MIN (R68): Signed minimum. -/
  | leMin (c : At) (a : BitVec 3) (m : BitVec 2) (w : BitVec 21)
  /-- MAX (R68): Signed maximum. -/
  | leMax (c : At) (a : BitVec 3) (m : BitVec 2) (w : BitVec 21)
  /-- ABS (R68): Saturating absolute value. -/
  | leAbs (c : At) (a : BitVec 3) (m : BitVec 2) (w : BitVec 21)
  /-- NEG (R68): Saturating negation. -/
  | leNeg (c : At) (a : BitVec 3) (m : BitVec 2) (w : BitVec 21)
  /-- MULH (R68): High 32 bits of the signed product. -/
  | leMulh (c : At) (a : BitVec 3) (m : BitVec 2) (w : BitVec 21)
  /-- DIVU (R70): Unsigned integer division. -/
  | leDivu (c : At) (a : BitVec 3) (m : BitVec 2) (w : BitVec 21)
  /-- MODU (R70): Remainder of unsigned division. -/
  | leModu (c : At) (a : BitVec 3) (m : BitVec 2) (w : BitVec 21)
  /-- FADD (R71): Binary32 add. -/
  | leFadd (c : At) (a : BitVec 3) (m : BitVec 2) (w : BitVec 21)
  /-- FSUB (R71): Binary32 subtract. -/
  | leFsub (c : At) (a : BitVec 3) (m : BitVec 2) (w : BitVec 21)
  /-- FMUL (R71): Binary32 multiply. -/
  | leFmul (c : At) (a : BitVec 3) (m : BitVec 2) (w : BitVec 21)
  /-- FDIV (R71): Binary32 divide. -/
  | leFdiv (c : At) (a : BitVec 3) (m : BitVec 2) (w : BitVec 21)
  /-- FMIN (R71): Binary32 minimum. -/
  | leFmin (c : At) (a : BitVec 3) (m : BitVec 2) (w : BitVec 21)
  /-- FMAX (R71): Binary32 maximum. -/
  | leFmax (c : At) (a : BitVec 3) (m : BitVec 2) (w : BitVec 21)
  /-- FABS (R71): Binary32 absolute value. -/
  | leFabs (c : At) (a : BitVec 3) (m : BitVec 2) (w : BitVec 21)
  /-- FNEG (R71): Binary32 negation. -/
  | leFneg (c : At) (a : BitVec 3) (m : BitVec 2) (w : BitVec 21)
  /-- LOG_AND (R68): Word AND. -/
  | leLogAnd (c : At) (a : BitVec 3) (m : BitVec 2) (w : BitVec 21)
  /-- LOG_OR (R68): Word OR. -/
  | leLogOr (c : At) (a : BitVec 3) (m : BitVec 2) (w : BitVec 21)
  /-- LOG_XOR (R68): Word XOR. -/
  | leLogXor (c : At) (a : BitVec 3) (m : BitVec 2) (w : BitVec 21)
  /-- LOG_ANDN (R68): Word AND NOT. -/
  | leLogAndn (c : At) (a : BitVec 3) (m : BitVec 2) (w : BitVec 21)
  /-- LOG_NOT (R68): Word NOT of the operand. -/
  | leLogNot (c : At) (a : BitVec 3) (m : BitVec 2) (w : BitVec 21)
  /-- SHL (R68): Shift left. -/
  | leShl (c : At) (a : BitVec 3) (m : BitVec 2) (w : BitVec 21)
  /-- SHR (R68): Logical shift right. -/
  | leShr (c : At) (a : BitVec 3) (m : BitVec 2) (w : BitVec 21)
  /-- SAR (R68): Arithmetic shift right. -/
  | leSar (c : At) (a : BitVec 3) (m : BitVec 2) (w : BitVec 21)
  /-- ROL (R68): Rotate left. -/
  | leRol (c : At) (a : BitVec 3) (m : BitVec 2) (w : BitVec 21)
  /-- ROR (R68): Rotate right. -/
  | leRor (c : At) (a : BitVec 3) (m : BitVec 2) (w : BitVec 21)
  /-- ITOF (R68): Signed integer to binary32. -/
  | leItof (c : At) (a : BitVec 3) (m : BitVec 2) (w : BitVec 21)
  /-- FTOI (R71): Binary32 to integer, rounded to nearest. -/
  | leFtoi (c : At) (a : BitVec 3) (m : BitVec 2) (w : BitVec 21)
  /-- FTOIZ (R71): Binary32 to integer, rounded towards zero. -/
  | leFtoiz (c : At) (a : BitVec 3) (m : BitVec 2) (w : BitVec 21)
  /-- SX8 (R68): Sign-extend the low byte. -/
  | leSx8 (c : At) (a : BitVec 3) (m : BitVec 2) (w : BitVec 21)
  /-- SX16 (R68): Sign-extend the low half-word. -/
  | leSx16 (c : At) (a : BitVec 3) (m : BitVec 2) (w : BitVec 21)
  /-- ZX8 (R68): Zero-extend the low byte. -/
  | leZx8 (c : At) (a : BitVec 3) (m : BitVec 2) (w : BitVec 21)
  /-- ZX16 (R68): Zero-extend the low half-word. -/
  | leZx16 (c : At) (a : BitVec 3) (m : BitVec 2) (w : BitVec 21)
  /-- BCDI (R70): BCD to integer. -/
  | leBcdi (c : At) (a : BitVec 3) (m : BitVec 2) (w : BitVec 21)
  /-- IBCD (R70): Integer to BCD. -/
  | leIbcd (c : At) (a : BitVec 3) (m : BitVec 2) (w : BitVec 21)
  /-- BSWAP (R68): Reverse byte order. -/
  | leBswap (c : At) (a : BitVec 3) (m : BitVec 2) (w : BitVec 21)
  /-- EQ (R69): Compare equal into RLO. -/
  | leEq (c : At) (a : BitVec 3) (m : BitVec 2) (w : BitVec 21)
  /-- NE (R69): Compare not equal into RLO. -/
  | leNe (c : At) (a : BitVec 3) (m : BitVec 2) (w : BitVec 21)
  /-- LT (R69): Signed less than into RLO. -/
  | leLt (c : At) (a : BitVec 3) (m : BitVec 2) (w : BitVec 21)
  /-- LE (R69): Signed less or equal into RLO. -/
  | leLe (c : At) (a : BitVec 3) (m : BitVec 2) (w : BitVec 21)
  /-- GT (R69): Signed greater than into RLO. -/
  | leGt (c : At) (a : BitVec 3) (m : BitVec 2) (w : BitVec 21)
  /-- GE (R69): Signed greater or equal into RLO. -/
  | leGe (c : At) (a : BitVec 3) (m : BitVec 2) (w : BitVec 21)
  /-- LTU (R69): Unsigned less than into RLO. -/
  | leLtu (c : At) (a : BitVec 3) (m : BitVec 2) (w : BitVec 21)
  /-- GEU (R69): Unsigned greater or equal into RLO. -/
  | leGeu (c : At) (a : BitVec 3) (m : BitVec 2) (w : BitVec 21)
  /-- FEQ (R69): Floating equal into RLO. -/
  | leFeq (c : At) (a : BitVec 3) (m : BitVec 2) (w : BitVec 21)
  /-- FNE (R69): Floating not equal into RLO. -/
  | leFne (c : At) (a : BitVec 3) (m : BitVec 2) (w : BitVec 21)
  /-- FLT (R69): Floating less than into RLO. -/
  | leFlt (c : At) (a : BitVec 3) (m : BitVec 2) (w : BitVec 21)
  /-- FLE (R69): Floating less or equal into RLO. -/
  | leFle (c : At) (a : BitVec 3) (m : BitVec 2) (w : BitVec 21)
  /-- FGT (R69): Floating greater than into RLO. -/
  | leFgt (c : At) (a : BitVec 3) (m : BitVec 2) (w : BitVec 21)
  /-- FGE (R69): Floating greater or equal into RLO. -/
  | leFge (c : At) (a : BitVec 3) (m : BitVec 2) (w : BitVec 21)
  /-- FUN (R69): Floating unordered into RLO. -/
  | leFun (c : At) (a : BitVec 3) (m : BitVec 2) (w : BitVec 21)
  /-- LDI (R73): Loads a sign-extended immediate. -/
  | leLdi (c : At) (a : BitVec 3) (k : BitVec 23)
  /-- LDIH (R73): Loads the top nine bits from an immediate. -/
  | leLdih (c : At) (a : BitVec 3) (k : BitVec 23)
  /-- ADDI (R73): Adds an immediate. -/
  | leAddi (c : At) (a : BitVec 3) (k : BitVec 23)
  /-- MULI (R73): Multiplies by an immediate. -/
  | leMuli (c : At) (a : BitVec 3) (k : BitVec 23)
  /-- ANDI (R73): ANDs an immediate. -/
  | leAndi (c : At) (a : BitVec 3) (k : BitVec 23)
  /-- ORI (R73): ORs an immediate. -/
  | leOri (c : At) (a : BitVec 3) (k : BitVec 23)
  /-- XORI (R73): XORs an immediate. -/
  | leXori (c : At) (a : BitVec 3) (k : BitVec 23)
  /-- SHLI (R73): Shifts left by an immediate. -/
  | leShli (c : At) (a : BitVec 3) (k : BitVec 23)
  /-- SHRI (R73): Shifts right logically by an immediate. -/
  | leShri (c : At) (a : BitVec 3) (k : BitVec 23)
  /-- SARI (R73): Shifts right arithmetically by an immediate. -/
  | leSari (c : At) (a : BitVec 3) (k : BitVec 23)
  /-- CEQI (R73): Compares equal to an immediate into RLO. -/
  | leCeqi (c : At) (a : BitVec 3) (k : BitVec 23)
  /-- CLTI (R73): Compares less than an immediate into RLO. -/
  | leClti (c : At) (a : BitVec 3) (k : BitVec 23)
  /-- CGTI (R73): Compares greater than an immediate into RLO. -/
  | leCgti (c : At) (a : BitVec 3) (k : BitVec 23)
  /-- MINI (R73): Signed minimum with an immediate. -/
  | leMini (c : At) (a : BitVec 3) (k : BitVec 23)
  /-- MAXI (R73): Signed maximum with an immediate. -/
  | leMaxi (c : At) (a : BitVec 3) (k : BitVec 23)
  /-- GTAG (R74): Loads the operand's tag code into an accumulator. -/
  | leGtag (c : At) (a : BitVec 3) (m : BitVec 2) (w : BitVec 21)
  /-- STAG (R74): Writes the operand's tag from an accumulator. -/
  | leStag (c : At) (a : BitVec 3) (m : BitVec 2) (w : BitVec 21)
  /-- CTAG (R74): Sets the operand's tag to GOOD. -/
  | leCtag (c : At) (a : BitVec 3) (m : BitVec 2) (w : BitVec 21)
  /-- ISGOOD (R74): Tests the operand's tag class good. -/
  | leIsgood (c : At) (a : BitVec 3) (m : BitVec 2) (w : BitVec 21)
  /-- ISUSE (R74): Tests the operand's tag class good or uncertain. -/
  | leIsuse (c : At) (a : BitVec 3) (m : BitVec 2) (w : BitVec 21)
  /-- ISBAD (R74): Tests the operand's tag class bad. -/
  | leIsbad (c : At) (a : BitVec 3) (m : BitVec 2) (w : BitVec 21)
  /-- ISNP (R74): Tests the operand's tag class not present. -/
  | leIsnp (c : At) (a : BitVec 3) (m : BitVec 2) (w : BitVec 21)
  /-- SUBST (R74): Takes the operand if usable, else keeps the accumulator as SUBSTITUTED. -/
  | leSubst (c : At) (a : BitVec 3) (m : BitVec 2) (w : BitVec 21)
  /-- WORST (R74): Combines the operand's tag into the accumulator's. -/
  | leWorst (c : At) (a : BitVec 3) (m : BitVec 2) (w : BitVec 21)
  /-- TEQ (R74): Tests the operand's tag against an accumulator. -/
  | leTeq (c : At) (a : BitVec 3) (m : BitVec 2) (w : BitVec 21)
  /-- SYSRD (R83): Reads a system register into an accumulator. -/
  | leSysrd (c : At) (a : BitVec 3) (k : BitVec 23)
  /-- SYSWR (R83): Writes a system register, such as POOLBASE, reflex resets or Sluice key and go. -/
  | leSyswr (c : At) (a : BitVec 3) (k : BitVec 23)
  /-- RAISE (R84): Fires a user event source at most once per scan. -/
  | leRaise (c : At) (a : BitVec 3) (k : BitVec 23)
  /-- WDSRV (R84): Serves a task watchdog with a key. -/
  | leWdsrv (c : At) (a : BitVec 3) (k : BitVec 23)
  /-- TON (R77): Evaluates an on-delay timer block. -/
  | leTon (c : At) (a : BitVec 3) (j : BitVec 13)
  /-- TOF (R77): Evaluates an off-delay timer block. -/
  | leTof (c : At) (a : BitVec 3) (j : BitVec 13)
  /-- TP (R77): Evaluates a pulse timer block. -/
  | leTp (c : At) (a : BitVec 3) (j : BitVec 13)
  /-- TRST (R77): Resets a timer block when RLO is 1. -/
  | leTrst (c : At) (a : BitVec 3) (j : BitVec 13)
  /-- CTU (R78): Counts up on a rising input. -/
  | leCtu (c : At) (a : BitVec 3) (j : BitVec 13)
  /-- CTD (R78): Counts down on a rising input. -/
  | leCtd (c : At) (a : BitVec 3) (j : BitVec 13)
  /-- CTUD (R78): Counts up and down with the down input popped from the rung stack. -/
  | leCtud (c : At) (a : BitVec 3) (j : BitVec 13)
  /-- CRST (R78): Resets a counter when RLO is 1. -/
  | leCrst (c : At) (a : BitVec 3) (j : BitVec 13)
  /-- CLOAD (R78): Loads a counter with its preset when RLO is 1. -/
  | leCload (c : At) (a : BitVec 3) (j : BitVec 13)
  /-- JMP (R81): Continues at the target bundle and slot when its condition holds. -/
  | leJmp (c : At) (cond : BitVec 4) (a : BitVec 3) (t : BitVec 18) (slot : BitVec 2)
  /-- CALL (R81): Pushes the return address and POOLBASE and continues at the target. -/
  | leCall (c : At) (cond : BitVec 4) (a : BitVec 3) (t : BitVec 18) (slot : BitVec 2)
  /-- RET (R81): Pops the call stack and restores POOLBASE. -/
  | leRet (c : At) (cond : BitVec 4) (a : BitVec 3)
  /-- LOOP (R81): Increments A7 and branches while it is below the bound. -/
  | leLoop (c : At) (cond : BitVec 4) (a : BitVec 3) (t : BitVec 18) (slot : BitVec 2)
  /-- ENDS (R81): Ends the scan when its bundle retires. -/
  | leEnds (c : At) (cond : BitVec 4) (a : BitVec 3)
  /-- ILLEGAL_INSTRUCTION (R54): Executing an illegal word or two control instructions in one bundle traps. -/
  | illegalInstruction (c : At)
  /-- LOCKSTEP_MISMATCH (R103): The checker core finds a mismatch, a fatal fault whose scan is never committed. -/
  | lockstepMismatch
  /-- LOCKSTEP_SELF_TEST (R104): A 1 µs self-test step of comparator and checker runs while the logic engine is idle. -/
  | lockstepSelfTest (pass : Bool)
  /-- SELF_TEST_PASS_START (R104): A self-test pass starts at the first tick boundary of a whole second once the previous pass has finished. -/
  | selfTestPassStart
  /-- DB_PROG (R284): A double-bit error in the program store or Rake pool is a fatal fault. -/
  | dbProg
  /-- OPEN (R111): Opens a download range for writing unless it is protected. -/
  | editOpen
  /-- CLOSE (R111): Checks the range CRC and records it as downloaded. -/
  | editClose
  /-- STAGE (R113): Validates a block entry and adds it to the staged set. -/
  | editStage
  /-- COMMIT (R115): Checks a commit for its target tick and makes it PENDING. -/
  | editCommit
  /-- ACCEPT (R111): Releases previous entries, ranges and migration tables. -/
  | editAccept
  /-- UNDO (R115): Checks a swap back for its target tick and makes it UNDO_PENDING. -/
  | editUndo
  /-- DISCARD (R111): Drops the staged set and ranges, or cancels a pending undo. -/
  | editDiscard
  /-- EDIT_SWAP (R116): At the target tick the block-table swap lands with its budget and program identity. -/
  | editSwap
  /-- MIGRATION_APPLY (R120): The copy engine applies the migration table after the seal of the last scan before the swap. -/
  | migrationApply
  /-- MON_SNAP (R264): Requests a snapshot of up to 1,024 words, accepted at the next tick boundary. -/
  | monSnap
  /-- MON_WRITE (R264): Requests the write list, accepted at the next tick boundary. -/
  | monWrite
  /-- SNAPSHOT (R105): The copy engine takes the snapshot at the chosen seal. -/
  | snapshot
  /-- WRITE_LIST (R264): The write list is applied at the seal after the snapshot. -/
  | writeList
  /-- DATA_WINDOW_LOW_WRITE (R262): A low-word write to the data window is held in the bridge. -/
  | dataWindowLowWrite (a : BitVec 21) (v : Word)
  /-- DATA_WINDOW_HIGH_WRITE (R262): A high-word write writes the held value with its tag, or the tag alone, in one bank access. -/
  | dataWindowHighWrite (a : BitVec 21) (v : Word)
  /-- DATA_WINDOW_LOW_READ (R262): A low-word read latches the word's tag for the next high-word read. -/
  | dataWindowLowRead (a : LeWord)
  /-- RFX_LATCH (R131): Writing 1 to a latch bit is a CP reset of that reflex latch. -/
  | rfxLatch (hi : Bool) (v : Word)
  /-- RFX_SOFT (R129): A write sets system signals SOFT0–SOFT3 from the next fabric cycle. -/
  | rfxSoft (v : Word)
  /-- RFX_LAST_TIME (R141): Reading TIME_LO latches TIME_HI of the last trip stamp. -/
  | rfxLastTime
  /-- RAW_EDGE (R147): A strobe sample differing from the previous one is a raw edge stamped at that sample. -/
  | rawEdge (n : BitVec 8) (x : Sample)
  /-- DEBOUNCED_EDGE (R148): The debounced state takes the new raw state D µs after an unbroken raw edge. -/
  | debouncedEdge (n : BitVec 8)
  /-- WETTING_SAMPLE (R150): At each wetting sample the input is read at full current. -/
  | wettingSample (n : BitVec 8) (level : Bool)
  /-- WETTING_CONFIRM (R150): The sample 20 µs after a differing reduced-current sample confirms or drops the raw edge. -/
  | wettingConfirm (n : BitVec 8) (level : Bool)
  /-- WETTING_ADAPT (R151): Once per second the window fraction rises or falls against the settling time. -/
  | wettingAdapt (n : BitVec 8) (settle : Nat)
  /-- WIREBREAK (R152): Break samples persisting for the longer of D and 1 ms declare WIREBREAK. -/
  | wirebreak (n : BitVec 8) (ua : Nat) (us : Nat)
  /-- WIREBREAK_CLEAR (R152): Samples of 0.3 mA or more for 10 ms clear WIREBREAK. -/
  | wirebreakClear (n : BitVec 8) (ua : Nat) (us : Nat)
  /-- WB_LEARN (R153): Each qualifying second the open-contact current feeds the learnt threshold. -/
  | wbLearn (n : BitVec 8) (ua : Nat)
  /-- SHORT (R156): Current at the 1.5 A limit for 20 µs trips the output. -/
  | short (n : BitVec 8) (us : Nat)
  /-- OVERCURRENT (R156): Current above 0.65 A for longer than INRUSH trips the output. -/
  | overcurrent (n : BitVec 8) (ma : Nat) (us : Nat)
  /-- THERMAL (R156): A switch junction above its limit trips the output. -/
  | thermal (n : BitVec 8)
  /-- GROUP_SHED (R157): Group current above its effective limit for 100 ms, then every 10 ms, trips the highest-numbered channel on. -/
  | groupShed (g : BitVec 5) (ma : Nat) (us : Nat)
  /-- CH_FAULT_REARM (R158): A CP write of REARM re-arms a tripped channel at the next T0 + 2 µs. -/
  | chFaultRearm (n : BitVec 8)
  /-- MISMATCH (R159): Readback differing from the own switch for RB_TIMEOUT sets MISMATCH. -/
  | mismatch (n : BitVec 8) (us : Nat)
  /-- DRIVE_SENSE (R160): A terminal above 12 V for 20 µs while the own switch is off changes DRIVE_SENSE. -/
  | driveSense (n : BitVec 8) (on : Bool)
  /-- SETTLING_END (R162): A channel's settling count of N ticks runs out and SETTLING ends. -/
  | settlingEnd (n : BitVec 8)
  /-- CAL_DUE (R163): A channel becomes due 24 h of operating time after its last calibration. -/
  | calDue (n : BitVec 8)
  /-- CAL_WINDOW (R163): A due channel starts a 2 ms calibration window at a whole second once quiet. -/
  | calWindow (n : BitVec 8)
  /-- CAL_RESULT (R166): At the end of the window the result is applied and stored, or discarded. -/
  | calResult (n : BitVec 8) (thr ilim : Int) (terminal : Bool)
  /-- ABORT_EDGE (R164): A rising terminal during a window aborts it and is debounced from the watch comparator. -/
  | abortEdge (n : BitVec 8)
  /-- CAL_OVERDUE (R166): Coefficients older than 720 h make the channel's tag CAL_OVERDUE. -/
  | calOverdue (n : BitVec 8)
  /-- CAL_REQ (R166): Writing REQ requests an early calibration window. -/
  | calReq (n : BitVec 8)
  /-- FIELD_SUPPLY_LOST (R145): Group L+ below 9.0 V for 1 ms drops the group electronics to high impedance. -/
  | fieldSupplyLost (g : BitVec 5)
  /-- FIELD_SUPPLY_RETURN (R145): Group L+ above 12.0 V for 1 ms schedules the front-end reload. -/
  | fieldSupplyReturn (g : BitVec 5)
  /-- LOW (R167): Group L+ falling below LOW_THR sets LOW, LOW_SEEN and FIELD_LOW. -/
  | low (g : BitVec 5) (mv : BitVec 16)
  /-- SURGE (R168): A surge above 100 µJ is counted and its energy recorded. -/
  | surge (g : BitVec 5) (uj : Nat)
  /-- SLC_KEY (R180): Writing 0xC35A arms one following SLC_START or SLC_RELEASE. -/
  | slcKey (v : Word)
  /-- SLC_START (R180): An armed write starts the named groups' sequences in RUN or HOLD. -/
  | slcStart (v : Word)
  /-- SLC_RELEASE (R182): An armed write requests release of RESTED groups at the next T0 + 2 µs. -/
  | slcRelease (v : Word)
  /-- SETCH (R171): Sets the named channels' sequence commands ON. -/
  | setch (g : BitVec 5)
  /-- CLRCH (R171): Sets the named channels' sequence commands OFF. -/
  | clrch (g : BitVec 5)
  /-- HOLD (R174): Marks the named channels held. -/
  | slcHold (g : BitVec 5)
  /-- PULSE (R176): Sets a channel's sequence command ON for WIDTH. -/
  | pulse (g : BitVec 5)
  /-- PULSE_END (R176): At WIDTH the pulsed command returns OFF and the next step starts. -/
  | pulseEnd (g : BitVec 5)
  /-- WAIT (R171): Starts a timed wait. -/
  | slcWait (g : BitVec 5)
  /-- WAIT_END (R172): A WAIT's time elapses and the next step starts. -/
  | waitEnd (g : BitVec 5)
  /-- WAITIN (R175): Waits for a channel state with a timeout. -/
  | waitin (g : BitVec 5)
  /-- WAITIN_SATISFIED (R175): The channel's debounced state equals STATE and the next step starts. -/
  | waitinSatisfied (g : BitVec 5)
  /-- WAITIN_TIMEOUT (R175): TIMEOUT elapses and the sequence continues at TSTEP with TIMEOUT set. -/
  | waitinTimeout (g : BitVec 5)
  /-- END (R174): Unheld channels go OFF and the group is RESTED. -/
  | slcEnd (g : BitVec 5)
  /-- HARD_OFF (R186): A group's hard-off timer expires without heartbeat and latches its outputs off. -/
  | hardOff (g : BitVec 5)
  /-- SUPPLY_LOSS (R187): Logic supply below 16 V for 100 µs switches outputs off and starts hold-up work before a POWER reset. -/
  | supplyLoss
  /-- SUPPLY_LOW (R129): The logic supply crossing 19.2 V changes signal SUPPLY_LOW. -/
  | supplyLow (low : Bool)
  /-- HEARTBEAT_SEND (R201): Each lane sends a HEARTBEAT every 20 µs. -/
  | heartbeatSend (lane : Bool)
  /-- HEARTBEAT (R201): A received heartbeat updates partner state and the standby's rate discipline. -/
  | heartbeat (h : FrameHdr) (p : Heartbeat)
  /-- LANE_DOWN (R199): A lane silent for 200 µs goes down and its unacknowledged frames are resent on the other. -/
  | laneDown (lane : Bool)
  /-- LINK_RESEND (R199): A sequenced frame unacknowledged for 50 µs is resent. -/
  | linkResend (seq : BitVec 16)
  /-- GIVE_UP (R212): A standby receiving GIVE_UP discards any partial epoch and schedules takeover. -/
  | giveUp (h : FrameHdr) (p : GiveUpMsg)
  /-- TAKEOVER (R212): At the first boundary 5 µs after GIVE_UP the standby enters RUN, commits, asserts TOKEN_OUT and sends TAKEN. -/
  | takeover
  /-- TAKEN (R213): The old active receives TAKEN and releases its outputs. -/
  | taken (h : FrameHdr) (tick : BitVec 64)
  /-- GIVEUP_EXPIRED (R214): The hold window ends without a takeover and the Sluice sequences start. -/
  | giveupExpired
  /-- TOKEN_IN (R202): A change of TOKEN_IN from the partner. -/
  | tokenIn (on : Bool)
  /-- EPOCH_BEGIN (R204): The standby starts staging an epoch. -/
  | epochBegin (h : FrameHdr) (p : EpochHdr)
  /-- BLOCK (R200): A 64-word block of an epoch is staged. -/
  | block (h : FrameHdr) (sweep : Bool) (a : BitVec 21) (ws : List DWord)
  /-- EDIT (R123): Block-table changes, ACCEPT or DISCARD of the epoch's tick are staged. -/
  | edit (h : FrameHdr) (p : EditMsg)
  /-- FORCE (R200): Force changes of the epoch's tick are staged. -/
  | force (h : FrameHdr) (p : ForceChange)
  /-- EPOCH_END (R207): The standby checks the complete epoch and applies it, or counts it lost. -/
  | epochEnd (h : FrameHdr) (seq : Word) (crcOk : Bool)
  /-- EPOCH_LOST (R209): Notice of a lost epoch starts a full resync. -/
  | epochLost (h : FrameHdr) (seq : Word)
  /-- EPOCH_SHIPPED (R203): The last frame of an epoch has been sent and the next seal may close an epoch. -/
  | epochShipped
  /-- PROGRAM (R200): Program bundles from the partner are written at their physical address. -/
  | program (h : FrameHdr) (bundle : BitVec 19) (ws : List (BitVec 36))
  /-- RANGE_ACK (R122): The partner acknowledges a checked range. -/
  | rangeAck (h : FrameHdr) (base : BitVec 18) (pool : Bool)
  /-- BLOCK_TABLE (R209): The whole block table arrives for resync. -/
  | blockTable (h : FrameHdr) (live : List (Nat × BlockEntry)) (prev : PrevTable)
  /-- CFG_REQ (R224): The partner requests a configuration pull. -/
  | cfgReq (h : FrameHdr)
  /-- CFG_DATA (R224): Configuration slot data arrives from the active. -/
  | cfgData (h : FrameHdr) (slot : CfgSlot)
  /-- CFG_END (R224): The pulled slot is checked, written into the older slot and the module resets. -/
  | cfgEnd (h : FrameHdr)
  /-- CP_MSG (R200): A message between the two CPs' firmware, including update forwarding and READY reports. -/
  | cpMsg (h : FrameHdr) (p : CpMsg)
  /-- HANDOVER (R216): Requests a handover to a CURRENT standby. -/
  | handover (key : BitVec 16)
  /-- HANDOVER_FAIL (R216): After 16 ticks without acknowledgement the handover fails with NOT_CURRENT. -/
  | handoverFail
  /-- PULL (R224): Requests a configuration pull on CFG_MISMATCH. -/
  | pull (key : BitVec 16)
  /-- RESYNC (R209): Requests a full resync. -/
  | resync (key : BitVec 16)
  /-- LISTEN_END (R195): After the listen time an UNDECIDED module takes its start-up role. -/
  | listenEnd
  /-- PAIR_LAST_TIME (R222): Reading TIME_LO latches TIME_HI of the last role change stamp. -/
  | pairLastTime
  /-- PAIR_EPOCH_TICK (R208): Reading TICK_LO latches TICK_HI of the newest applied epoch. -/
  | pairEpochTick
  /-- TIME_SET (R233): Sets station time once, loaded at the next tick boundary or at once before TICK_GO. -/
  | timeSet (key : BitVec 16)
  /-- SLEW (R235): Starts removing TIME_SLEW_OFS by a bounded rate change. -/
  | slew (key : BitVec 16)
  /-- SLEW_STOP (R235): Stops a slew in progress. -/
  | slewStop (key : BitVec 16)
  /-- PPS_IN (R236): A PPS_IN rising edge measures phase error and steps the PPS loop rate. -/
  | ppsIn
  /-- PPS_HOLDOVER (R236): No PPS edge for 3 s enters HOLDOVER. -/
  | ppsHoldover
  /-- TIME_OF_DAY (R236): A ZDA sentence names the second of the preceding PPS edge and may set station time at lock. -/
  | timeOfDay (u : BitVec 2) (utc : Nat) (ageMs : Nat)
  /-- PPS_OUT (R237): PPS_OUT rises at every whole second of station time while VALID is 1. -/
  | ppsOut
  /-- TIME_LO (R232): Reading TIME_LO latches TIME_HI of station time. -/
  | timeLo
  /-- COUNT_LO (R16): Reading COUNT_LO latches the high tick-number word. -/
  | countLo
  /-- REFERENCE_FRAME (R243): The reference frame is queued at T0 + 10 µs with its DELAY inserted. -/
  | referenceFrame (b : BitVec 2) (delay : Nat)
  /-- REFERENCE_FRAME_HEARD (R217): A reference frame identifier from another module is received. -/
  | referenceFrameHeard (b : BitVec 2) (id : BitVec 11) (byte0 : Option Byte)
  /-- FREE_WINDOW (R242): The free window opens and correction, activate and CP transmit frames may start. -/
  | freeWindow (b : BitVec 2)
  /-- ACTIVATE_ARM (R253): ARM is sent once a second during the 60 s before activation. -/
  | activateArm
  /-- NODE_INPUT_FRAME (R247): A received node frame is classed WINDOW, EDGE or LATE and counted. -/
  | nodeInputFrame (k : BitVec 8) (sof eof : Int) (busy : Bool) (data : List Byte)
  /-- RX_FRAME (R254): An unscheduled frame matching an enabled filter enters the receive FIFO. -/
  | rxFrame (b : BitVec 2) (f : HeardFrame)
  /-- CAN_RX_POP (R254): Writing POP removes the head frame of the receive FIFO. -/
  | canRxPop (b : BitVec 2) (v : Word)
  /-- TX_REQ (R254): Writing REQ queues a transmit entry for the free window. -/
  | txReq (b : BitVec 2) (e : BitVec 4)
  /-- TX_ABORT (R230): Writing ABORT aborts a pending transmit entry. -/
  | txAbort (b : BitVec 2) (e : BitVec 4)
  /-- TX_DONE (R254): A transmit entry completes and sets DONE. -/
  | txDone (b : BitVec 2) (e : BitVec 4) (age : Nat) (esi : Bool)
  /-- BUS_ERROR (R230): A frame that loses arbitration or meets an error is retransmitted. -/
  | busError (b : BitVec 2) (tec rec : Byte)
  /-- ERROR_STATE_CHANGE (R231): A CAN controller's error state changes. -/
  | errorStateChange (b : BitVec 2) (tec rec : Byte) (st : BitVec 2)
  /-- BUS_OFF_RECOVERY (R231): Bus-off recovery completes and the schedule resumes at the next T0 + 10 µs. -/
  | busOffRecovery (b : BitVec 2)
  /-- IC_CLAIM (R267): A read returns and clears the highest pending source and raises running priority. -/
  | icClaim
  /-- IC_COMPLETE (R267): Completes a claimed source, re-pending a condition source still asserted. -/
  | icComplete (src : BitVec 10)
  /-- EQ_POP (R269): Removes the head entry of an event queue. -/
  | eqPop (q : BitVec 1) (v : Word)
  /-- CP_WDG (R303): The CP watchdog expires and the CP is reset. -/
  | cpWdg
  /-- CPWD_SERVICE (R303): Writing 0xC35A serves the CP watchdog; any other value expires it. -/
  | cpwdService (v : Word)
  /-- CP_LOCKSTEP (R284): A mismatch between the CP cores resets the CP. -/
  | cpLockstep
  /-- DB_CP_SRAM (R284): A double-bit error in CP SRAM resets the CP. -/
  | dbCpSram
  /-- CP_RESET_REQUEST (R282): Firmware requests a CP reset. -/
  | cpResetRequest
  /-- CP_RESTART (R281): The CP runs its firmware again and CP_DOWN clears. -/
  | cpRestart
  /-- OEM_VIOLATION (R261): An OEM access outside its limits stops the OEM partition. -/
  | oemViolation
  /-- OEM_RESTART (R261): The stopped OEM partition restarts 1 s later unless stopped three times in 10 min. -/
  | oemRestart
  /-- UART_DATA_WRITE (R274): Pushes a byte to transmit and starts keying when the port is not keyed. -/
  | uartDataWrite (u : BitVec 2) (v : Byte)
  /-- UART_DATA_READ (R273): Pops one received byte. -/
  | uartDataRead (u : BitVec 2)
  /-- LEAD_END (R274): LEAD ms after RTS the first character starts. -/
  | leadEnd (u : BitVec 2)
  /-- TAIL_END (R274): TAIL ms after the FIFO empties RTS is released. -/
  | tailEnd (u : BitVec 2)
  /-- GOV_HOLD (R275): The duty budget reaches 0 while keyed and transmission stops. -/
  | govHold (u : BitVec 2)
  /-- GOV_RESUME (R275): The budget rises to RESUME and keying resumes. -/
  | govResume (u : BitVec 2)
  /-- UART_RX_BYTE (R273): A character is received into the receive FIFO. -/
  | uartRxByte (u : BitVec 2) (v : Byte) (perr ferr : Bool)
  /-- IDLE_GAP (R276): A quiet receive line for IDLE half-characters fires the receive event. -/
  | idleGap (u : BitVec 2)
  /-- UART_TX_COMPLETE (R276): Transmission completes and the RS-485 driver is disabled TURN bit times later. -/
  | uartTxComplete (u : BitVec 2)
  /-- MODEM_LINE_CHANGE (R276): A change of DCD, CTS, DSR or RI. -/
  | modemLineChange (u : BitVec 2) (lines : BitVec 4)
  /-- ETHERNET_FRAME (R270): An Ethernet frame is received, rate-limited and passed to the stacks. -/
  | ethernetFrame (e : Bool) (len : Nat) (tagged fcsOk : Bool)
  /-- ETHERNET_LINK (R270): An Ethernet link goes up or down. -/
  | ethernetLink (e : Bool) (up : Bool)
  /-- SESSION_OPEN (R277): A service session opens with a fresh nonce. -/
  | sessionOpen (i : BitVec 2)
  /-- TOKEN (R277): A token is checked and grants roles for VALID_MIN minutes. -/
  | token (i : BitVec 2) (t : TokenMsg)
  /-- TOKEN_LOCK_END (R279): The 300 s lock of an interface ends. -/
  | tokenLockEnd (i : BitVec 2)
  /-- SESSION_EXPIRY (R277): A session's VALID_MIN elapses and its roles lapse. -/
  | sessionExpiry (i : BitVec 2)
  /-- SCRUB (R97): The scrubber reads, checks and corrects the next word of a bank. -/
  | scrub (bank : BitVec 4)
  /-- PROTECTION_VIOLATION (R298): An access outside a master's windows is dropped and freezes the master. -/
  | protectionViolation (m : BitVec 3) (addr : Word) (write : Bool)
  /-- FREEZE_CLR (R300): A keyed write releases the named frozen masters other than the LE. -/
  | freezeClr (v : Word)
  /-- TWD_EXPIRED (R301): A task watchdog's count reaches TIMEOUT and it expires. -/
  | twdExpired (k : BitVec 3)
  /-- BACKUP_WDG (R304): The backup watchdog expires, resetting the module or waking it from SLEEP. -/
  | backupWdg
  /-- CLOCK_FAIL (R305): The clock monitor declares main clock failure, stops the hard-off heartbeat and holds the module in reset. -/
  | clockFail (dev : Int)
  /-- CLOCK_RECOVERY (R305): After clock recovery and 100 ms the module restarts with cause FCU_FATAL. -/
  | clockRecovery
  /-- BACKUP_CLOCK (R305): The backup clock goes out of tolerance or recovers. -/
  | backupClock (bad : Bool)
  /-- FCU_PARITY (R294): A parity mismatch in an FCU configuration register starts every sequence with cause FCU_SELF. -/
  | fcuParity (w : BitVec 6)
  /-- FCU_FIRST_TIME_LO (R288): Reading TIME_LO latches TIME_HI of the first capture stamp. -/
  | fcuFirstTimeLo
  /-- FCU_FATAL_TIME_LO (R290): Reading TIME_LO latches TIME_HI of the fatal capture stamp. -/
  | fcuFatalTimeLo
  /-- NV_WRITE (R314): Queues a record for writing. -/
  | nvWrite
  /-- NV_READ (R311): Returns the winner of an entry. -/
  | nvRead
  /-- NV_DRAIN (R315): A queued record starts programming once the governor level is at least 1. -/
  | nvDrain
  /-- NV_PROGRAM_DONE (R314): A programmed record is verified and reported OK, or written again. -/
  | nvProgramDone (ok : Bool)
  /-- NV_ERASE_DONE (R316): A sector erase completes and is blank-checked, or is repeated or retired. -/
  | nvEraseDone (blank : Bool)
  /-- MOUNT_DONE (R318): The data-flash mount completes and WRITE is accepted. -/
  | mountDone
  /-- STARTUP_END (R317): START-UP two-copy mode ends 60 s after mount. -/
  | startupEnd
  /-- RECOVERY_END (R317): RECOVERY mode ends after 10 min without a torn slot or failed verify. -/
  | recoveryEnd
  /-- NV_TEST (R317): Setting or clearing TEST begins or ends TEST two-copy mode. -/
  | nvTest (v : Word)
  /-- PERSIST_ROUND (R321): Every PERIOD the mapped M words are taken at a seal and changed records queued. -/
  | persistRound
  /-- FL_PROGRAM (R323): Starts a CP flash line program. -/
  | flProgram (v : Word) (from_ : BitVec 2)
  /-- FL_ERASE (R323): Starts a CP flash sector erase. -/
  | flErase (v : Word) (from_ : BitVec 2)
  /-- FL_DONE (R323): A CP flash operation completes and sets DONE or VERIFY_FAIL. -/
  | flDone (ok : Bool)
  /-- BITTERN_ROUND (R331): Every 10 operating minutes changed log records are queued. -/
  | bitternRound
  /-- PERSIST (R331): Writing PERSIST starts a persistence round. -/
  | persist (v : Word)
  /-- LOG_SAMPLE (R325): Once per second the supply, temperature and field-supply histograms take a sample. -/
  | logSample (mv : Nat) (temp : Int) (die : Int) (field : List GroupMeans)
  /-- OPERATING_MINUTE (R327): Operating minutes rise by one for each minute of good supply. -/
  | operatingMinute
  /-- READOUT (R334): A service readout request returns the log. -/
  | readout
  /-- NOTICE_READ (R335): Reading word 0 of a notice loads the notice latch. -/
  | noticeRead (r : Byte)
  /-- CLEAR_REQUEST (R336): A MAC-checked clear request is accepted or refused. -/
  | clearRequest (i : BitVec 2) (r : ClearReq)
  /-- BTN_CLEAR (R337): A keyed write clears the named scope at one instant. -/
  | btnClear (v : Word)
  /-- POWER_UP (R344): Supply good releases reset and the module boots, mounts and applies a configuration. -/
  | powerUp (seatB : Bool)
  /-- TICK_GO (R344): Starts tick 0 at the next whole multiple of the tick period. -/
  | tickGo (v : Word)
  /-- SOFT_RESET (R351): Requests a module reset of cause SOFT. -/
  | softReset (v : Word)
  /-- MODULE_RESET (R184): A held-off module reset proceeds once no group is RUNNING. -/
  | moduleReset
  /-- LE_RUN (R350): Moves a module into RUN at the next boundary or leaves RUN pending. -/
  | leRun (v : Word)
  /-- LE_STOP (R350): Starts every group's sequence before stopping the logic engine. -/
  | leStop (v : Word)
  /-- STOP_COMPLETE (R350): With no group RUNNING the module enters READY at the next boundary. -/
  | stopComplete
  /-- SLEEP (R352): A keyed request persists the log, empties the NV queue and enters SLEEP. -/
  | sleep (v : Word)
  /-- WAKE (R353): An enabled wake source ends SLEEP with a SOFT reset. -/
  | wake (src : WakeSrc)
  /-- CONFIG_SLOT_WRITE (R343): The vendor base writes a configuration slot into the slot not in use. -/
  | configSlotWrite (slot : CfgSlot)
  /-- MANIFEST (R356): A signed update manifest is accepted or refused. -/
  | manifest (m : ManifestMsg)
  /-- CHUNK (R357): A 512-byte chunk is written, read back and recorded in the bitmap. -/
  | chunk (type : BitVec 4) (c : Nat) (data : List Byte) (crc : Word) (readOk : Bool) (img : Option UpdImage)
  /-- DECISION (R362): At tick d the module decides GO or cancels. -/
  | decision
  /-- ACTIVATION (R363): At tick a the new set lands and PROBATION begins. -/
  | activation
  /-- CONFIRM (R365): After 60 s of healthy running the vendor base confirms its parts. -/
  | confirm
  /-- OEM_CONFIRM (R365): The OEM partition calls the confirm service for its part. -/
  | oemConfirm
  /-- CONFIRM_TIMEOUT (R366): The confirm window expires unconfirmed and fallback begins. -/
  | confirmTimeout
  /-- FALLBACK (R366): At the next boundary the new bank and slot are rejected and the module restarts on the previous set. -/
  | fallback
  /-- UPD_CANCEL (R368): Cancels an armed update before the decision point. -/
  | updCancel (key : BitVec 16)
  /-- UPD_CONFIRM (R368): Confirms the update in probation. -/
  | updConfirm (key : BitVec 16)
  /-- UPD_FALLBACK (R366): Requests a fallback. -/
  | updFallback (key : BitVec 16)
  /-- UPD_DISCARD (R368): Discards the staged update outside probation. -/
  | updDiscard (key : BitVec 16)
  /-- GRD_EVALUATION (R371): Every 10 min the canary slack moves core voltage or clock. -/
  | grdEvaluation
  /-- CANARY_URGENT (R372): A canary slack below URGENT takes the first applicable action at once. -/
  | canaryUrgent (slack : BitVec 8) (canary : BitVec 4)
  /-- MONTH_RECORD (R375): Every 30 days a month record is written and the margin horizon refitted. -/
  | monthRecord
  /-- DERATE (R376): Once per 24 h group DERATED is recomputed from on-resistance. -/
  | derate (temp : Int)
  /-- REF_DRIFT (R377): Hourly reference check marks a drifted channel due for calibration. -/
  | refDrift (n : BitVec 8) (mv : Int)
  /-- FLASH_MARGIN_READ (R378): Every 30 days closed sectors are read at a tightened reference and weak records moved. -/
  | flashMarginRead (weak : List (Nat × Nat))
  /-- CELL_TEST (R369): Once per 24 h the backup cell is load-tested. -/
  | cellTest (mv : BitVec 16)
  /-- OVERTEMP (R379): Base plate above 70 °C for 10 s raises a notice. -/
  | overtemp (t : Int)
  /-- PWR_ON (R385): Writing PWR = 1 powers the panel up and writes a full pass. -/
  | pwrOn
  /-- PWR_OFF (R394): Writing PWR = 0 starts the panel discharge. -/
  | pwrOff
  /-- DISCHARGE_DONE (R394): The discharge sequence ends with the panel OFF. -/
  | dischargeDone
  /-- FLUSH (R390): Discards rectangles that have not been taken. -/
  | flush
  /-- RECT_SUBMIT (R390): Submits a rectangle update to the queue or refuses it. -/
  | rectSubmit (v : Word)
  /-- PASS_START (R384): A panel pass starts and takes non-overlapping rectangles. -/
  | passStart
  /-- PASS_END (R392): A pass ends, taken rectangles complete and DONE_TAG is set. -/
  | passEnd
  /-- FULL_REFRESH (R386): In full refresh a full pass falls due every 1/RATE s with alternating phase. -/
  | fullRefresh
  /-- ROW_SCRUB (R388): A row unwritten for 1,000 ms is added with idle rows to the next pass. -/
  | rowScrub
  /-- BLINK_PHASE (R393): A blink rectangle changes phase and its rows are added to the next pass. -/
  | blinkPhase
  /-- PANEL_SUPPLY_FAULT (R395): VGH or VGL out of tolerance for 1 ms sets FAULT and discharges the panel. -/
  | panelSupplyFault
  /-- REGISTER_WRITE (R9): A write to a register without a row of its own takes effect according to its access type. -/
  | registerWrite (a : CpAccess) (v : Word)
  /-- LOW_CLEAR (R167): Group L+ rising 0.5 V above LOW_THR clears LOW and with it the group's share of FIELD_LOW. -/
  | lowClear (g : BitVec 5) (mv : BitVec 16)
  /-- SLEW_COMPLETE (R235): A slew finishes removing TIME_SLEW_OFS, LEFT reaches 0 and SLEWING clears. -/
  | slewComplete
  /-- BWD_HALF_TIMEOUT (R402): Half of BWD_CFG.TIMEOUT_S passes without a tick boundary and source 495 fires. -/
  | bwdHalfTimeout
  /-- USB_VBUS (R272): VBUS appears or disappears on the USB port, and the port attaches or detaches, ending any USB session. -/
  | usbVbus (on : Bool)
  /-- USB_LOADER (R344): In INIT with RECOVERY set, the boot ROM's USB loader receives a signed vendor base. -/
  | usbLoader (sigOk : Bool)
  /-- RO_MEASURE (R369): Once per hour the ring-oscillator pairs are measured and GRD_RO is updated. -/
  | roMeasure (degr : List (BitVec 16))
  /-- TCXO_DAILY_MEAN (R369): Once a day the mean TCXO rate correction is taken into GRD_TCXO and may raise TCXO_AGE. -/
  | tcxoDailyMean (ppb : Int)
deriving DecidableEq, Repr

end Sys2Proof
end

