-- ==== Sys2Proof/WellFormed.lean ====
section
/-! DEFINITION. The commands that are well formed: operands within the ranges that the spec's encodings and numbering give
them. The logic engine's decoder answers well-formed instructions only (R54); a unit, port or step that does not exist has
no event of its own (R1-R4, R403). -/

namespace Sys2Proof

/-- Bit indices 0 to 31 address value bits, 32 to 35 tag bits; a write addresses a value bit (R56). -/
def bitOk (write : Bool) (b : BitVec 6) : Bool := if write then decide (b.toNat < 32) else decide (b.toNat < 36)

/-- In register mode address bits [20:5] are zero (R66). -/
def opdOk (m : BitVec 2) (w : BitVec 21) : Bool := decide (m ≠ 3) || decide (w.toNat < 32)

/-- Condition codes 9 to 15 are reserved (R80). -/
def condOk (c : BitVec 4) : Bool := decide (c.toNat ≤ 8)

/-- A frame stays within the payload of its length code (R228, R248). -/
def dataOk (l : List Byte) : Bool := decide (l.length ≤ 64)

/-- Service interfaces: Ethernet 0 and 1, USB 2 (R277). -/
def ifaceOk (i : BitVec 2) : Bool := decide (i.toNat < 3)

/-- A MAC is 32 bytes (R277, R336). -/
def macOk (l : List Byte) : Bool := decide (l.length = 32)

/-- A session belongs to a service interface that exists (R277). -/
def askerOk (a : Asker) : Bool :=
  match a with
  | .session i => ifaceOk i
  | .vendor | .oem | .protocol | .oemStore | .oemNotice _ => true

/-- A command is well formed. -/
def wellFormed (i : Instr) : Bool :=
  match i with
  | .leLd _ _ _ _ b | .leAnd _ _ _ _ b | .leOr _ _ _ _ b | .leXor _ _ _ _ b => bitOk false b
  | .leSt _ _ _ _ b | .leSet _ _ _ b | .leRst _ _ _ b | .leTrgr _ _ _ b | .leTrgf _ _ _ b => bitOk true b
  | .leMovLd _ _ m w | .leMovSt _ _ m w | .leClr _ _ m w
  | .leAdd _ _ m w | .leSub _ _ m w | .leRsb _ _ m w | .leMul _ _ m w | .leDiv _ _ m w | .leMod _ _ m w
  | .leAdds _ _ m w | .leSubs _ _ m w | .leMin _ _ m w | .leMax _ _ m w | .leAbs _ _ m w | .leNeg _ _ m w
  | .leMulh _ _ m w | .leDivu _ _ m w | .leModu _ _ m w
  | .leFadd _ _ m w | .leFsub _ _ m w | .leFmul _ _ m w | .leFdiv _ _ m w | .leFmin _ _ m w | .leFmax _ _ m w
  | .leFabs _ _ m w | .leFneg _ _ m w
  | .leLogAnd _ _ m w | .leLogOr _ _ m w | .leLogXor _ _ m w | .leLogAndn _ _ m w | .leLogNot _ _ m w
  | .leShl _ _ m w | .leShr _ _ m w | .leSar _ _ m w | .leRol _ _ m w | .leRor _ _ m w
  | .leItof _ _ m w | .leFtoi _ _ m w | .leFtoiz _ _ m w | .leSx8 _ _ m w | .leSx16 _ _ m w | .leZx8 _ _ m w
  | .leZx16 _ _ m w | .leBcdi _ _ m w | .leIbcd _ _ m w | .leBswap _ _ m w
  | .leEq _ _ m w | .leNe _ _ m w | .leLt _ _ m w | .leLe _ _ m w | .leGt _ _ m w | .leGe _ _ m w
  | .leLtu _ _ m w | .leGeu _ _ m w | .leFeq _ _ m w | .leFne _ _ m w | .leFlt _ _ m w | .leFle _ _ m w
  | .leFgt _ _ m w | .leFge _ _ m w | .leFun _ _ m w
  | .leGtag _ _ m w | .leStag _ _ m w | .leCtag _ _ m w | .leIsgood _ _ m w | .leIsuse _ _ m w | .leIsbad _ _ m w
  | .leIsnp _ _ m w | .leSubst _ _ m w | .leWorst _ _ m w | .leTeq _ _ m w => opdOk m w
  | .leLdih _ _ k => decide (k.toNat < 512)
  | .leShli _ _ k | .leShri _ _ k | .leSari _ _ k => decide (k.toNat < 32)
  | .leSysrd _ _ k | .leSyswr _ _ k => decide (k.toNat < 64)
  | .leRaise _ a k => decide (k.toNat < 32) && decide (a = 0)
  | .leWdsrv _ a k => decide (k.toNat < 524288) && decide (a = 0)
  | .leTrst _ a _ => decide (a = 0)
  | .leJmp _ c _ _ _ | .leCall _ c _ _ _ | .leRet _ c _ | .leEnds _ c _ => condOk c
  | .leLoop _ c a _ _ => condOk c && decide (a ≠ 7)
  | .nodeInputFrame k _ _ _ d => decide (k.toNat < 144) && dataOk d
  | .rxFrame _ f => dataOk f.frame.data
  | .block _ _ a ws => decide (a.toNat % 64 = 0) && decide (ws.length = 64)
  | .program _ _ ws => decide (ws.length ≤ 256)
  | .sessionOpen i | .tokenLockEnd i | .sessionExpiry i => ifaceOk i
  | .token i m => ifaceOk i && macOk m.mac
  | .clearRequest i m => ifaceOk i && macOk m.mac
  | .registerWrite a _ => askerOk a.asker
  | .protectionViolation m _ _ => decide (m.toNat < 7)
  | .fcuParity w => decide (w.toNat < 34)
  | .tickBoundary | .outputCommit | .scanStart | .overrun | .refreshTimeout | .evaluationPoint | .scanHistClr _
  | .leNop _ | .lePush _ | .lePop _ | .lePopand _ | .lePopor _ | .lePopxor _ | .leNot _ | .leOne _ | .leZero _
  | .leQgood _ | .leQuse _ | .leQsub _ | .leRlall _ _ _ | .leRlany _ _ _ | .leRaall _ _ _ | .leRaany _ _ _
  | .leRoall _ _ _ | .leRoany _ _ _ | .leLdi _ _ _ | .leAddi _ _ _ | .leMuli _ _ _ | .leAndi _ _ _ | .leOri _ _ _
  | .leXori _ _ _ | .leCeqi _ _ _ | .leClti _ _ _ | .leCgti _ _ _ | .leMini _ _ _ | .leMaxi _ _ _ | .leTon _ _ _
  | .leTof _ _ _ | .leTp _ _ _ | .leCtu _ _ _ | .leCtd _ _ _ | .leCtud _ _ _ | .leCrst _ _ _ | .leCload _ _ _
  | .illegalInstruction _ | .lockstepMismatch | .lockstepSelfTest _ | .selfTestPassStart | .dbProg | .editOpen
  | .editClose | .editStage | .editCommit | .editAccept | .editUndo | .editDiscard | .editSwap | .migrationApply
  | .monSnap | .monWrite | .snapshot | .writeList | .dataWindowLowWrite _ _ | .dataWindowHighWrite _ _
  | .dataWindowLowRead _ | .rfxLatch _ _ | .rfxSoft _ | .rfxLastTime | .rawEdge _ _ | .debouncedEdge _
  | .wettingSample _ _ | .wettingConfirm _ _ | .wettingAdapt _ _ | .wirebreak _ _ _ | .wirebreakClear _ _ _
  | .wbLearn _ _ | .short _ _ | .overcurrent _ _ _ | .thermal _ | .groupShed _ _ _ | .chFaultRearm _ | .mismatch _ _
  | .driveSense _ _ | .settlingEnd _ | .calDue _ | .calWindow _ | .calResult _ _ _ _ | .abortEdge _ | .calOverdue _
  | .calReq _ | .fieldSupplyLost _ | .fieldSupplyReturn _ | .low _ _ | .surge _ _ | .slcKey _ | .slcStart _
  | .slcRelease _ | .setch _ | .clrch _ | .slcHold _ | .pulse _ | .pulseEnd _ | .slcWait _ | .waitEnd _ | .waitin _
  | .waitinSatisfied _ | .waitinTimeout _ | .slcEnd _ | .hardOff _ | .supplyLoss | .supplyLow _ | .heartbeatSend _
  | .heartbeat _ _ | .laneDown _ | .linkResend _ | .giveUp _ _ | .takeover | .taken _ _ | .giveupExpired | .tokenIn _
  | .epochBegin _ _ | .edit _ _ | .force _ _ | .epochEnd _ _ _ | .epochLost _ _ | .epochShipped | .rangeAck _ _ _
  | .blockTable _ _ _ | .cfgReq _ | .cfgData _ _ | .cfgEnd _ | .cpMsg _ _ | .handover _ | .handoverFail | .pull _
  | .resync _ | .listenEnd | .pairLastTime | .pairEpochTick | .timeSet _ | .slew _ | .slewStop _ | .ppsIn
  | .ppsHoldover | .timeOfDay _ _ _ | .ppsOut | .timeLo | .countLo | .referenceFrame _ _ | .referenceFrameHeard _ _ _
  | .freeWindow _ | .activateArm | .canRxPop _ _ | .txReq _ _ | .txAbort _ _ | .txDone _ _ _ _ | .busError _ _ _
  | .errorStateChange _ _ _ _ | .busOffRecovery _ | .icClaim | .icComplete _ | .eqPop _ _ | .cpWdg | .cpwdService _
  | .cpLockstep | .dbCpSram | .cpResetRequest | .cpRestart | .oemViolation | .oemRestart | .uartDataWrite _ _
  | .uartDataRead _ | .leadEnd _ | .tailEnd _ | .govHold _ | .govResume _ | .uartRxByte _ _ _ _ | .idleGap _
  | .uartTxComplete _ | .modemLineChange _ _ | .ethernetFrame _ _ _ _ | .ethernetLink _ _ | .scrub _ | .freezeClr _
  | .twdExpired _ | .backupWdg | .clockFail _ | .clockRecovery | .backupClock _ | .fcuFirstTimeLo | .fcuFatalTimeLo
  | .nvWrite | .nvRead | .nvDrain | .nvProgramDone _ | .nvEraseDone _ | .mountDone | .startupEnd | .recoveryEnd
  | .nvTest _ | .persistRound | .flProgram _ _ | .flErase _ _ | .flDone _ | .bitternRound | .persist _
  | .logSample _ _ _ _ | .operatingMinute | .readout | .noticeRead _ | .btnClear _ | .powerUp _ | .tickGo _
  | .softReset _ | .moduleReset | .leRun _ | .leStop _ | .stopComplete | .sleep _ | .wake _ | .configSlotWrite _
  | .manifest _ | .chunk _ _ _ _ _ _ | .decision | .activation | .confirm | .oemConfirm | .confirmTimeout | .fallback
  | .updCancel _ | .updConfirm _ | .updFallback _ | .updDiscard _ | .grdEvaluation | .canaryUrgent _ _ | .monthRecord
  | .derate _ | .refDrift _ _ | .flashMarginRead _ | .cellTest _ | .overtemp _ | .pwrOn | .pwrOff | .dischargeDone
  | .flush | .rectSubmit _ | .passStart | .passEnd | .fullRefresh | .rowScrub | .blinkPhase | .panelSupplyFault
  | .lowClear _ _ | .slewComplete | .bwdHalfTimeout | .usbVbus _ | .usbLoader _ | .roMeasure _
  | .tcxoDailyMean _ => true

end Sys2Proof
end

