-- ==== Sys2Proof/Decode.lean ====
section
/-! DEFINITION. The decoder of the program words that the logic engine fetches: the formats, opcodes and function codes of
R53-R55 and the group tables of 02; and the table decoder that the host asks for, which knows no word, because the rows of
the opcode table give no bits. -/

namespace Sys2Proof

/-- No row of the table of operations and events gives bits, so no word spells a command. -/
def decodeTableWord (_nbits _w : Nat) : Option Instr := none

/-- Bits [lo + len - 1 : lo] of a program word. -/
def wfld (w lo len : Nat) : Nat := w / 2 ^ lo % 2 ^ len

/-- STK functions 0-4 (R62). -/
def stkOps : List (At → Instr) := [.lePush, .lePop, .lePopand, .lePopor, .lePopxor]

/-- RLOP functions 0-5 (R63). -/
def rlopOps : List (At → Instr) := [.leNot, .leOne, .leZero, .leQgood, .leQuse, .leQsub]

/-- RAKE functions 0-5 (R64). -/
def rakeOps : List (At → BitVec 6 → BitVec 21 → Instr) := [.leRlall, .leRlany, .leRaall, .leRaany, .leRoall, .leRoany]

/-- MOV functions 0-2 (R68). -/
def movOps : List (At → BitVec 3 → BitVec 2 → BitVec 21 → Instr) := [.leMovLd, .leMovSt, .leClr]

/-- IAR functions 0-14 (R68). -/
def iarOps : List (At → BitVec 3 → BitVec 2 → BitVec 21 → Instr) := [
  .leAdd, .leSub, .leRsb, .leMul, .leDiv, .leMod, .leAdds, .leSubs, .leMin, .leMax, .leAbs, .leNeg, .leMulh,
  .leDivu, .leModu]

/-- FAR functions 0-7 (R68). -/
def farOps : List (At → BitVec 3 → BitVec 2 → BitVec 21 → Instr) := [
  .leFadd, .leFsub, .leFmul, .leFdiv, .leFmin, .leFmax, .leFabs, .leFneg]

/-- CMP functions 0-14 (R69). -/
def cmpOps : List (At → BitVec 3 → BitVec 2 → BitVec 21 → Instr) := [
  .leEq, .leNe, .leLt, .leLe, .leGt, .leGe, .leLtu, .leGeu, .leFeq, .leFne, .leFlt, .leFle, .leFgt, .leFge, .leFun]

/-- LOG functions 0-9 (R68). -/
def logOps : List (At → BitVec 3 → BitVec 2 → BitVec 21 → Instr) := [
  .leLogAnd, .leLogOr, .leLogXor, .leLogAndn, .leLogNot, .leShl, .leShr, .leSar, .leRol, .leRor]

/-- CNV functions 0-9 (R68). -/
def cnvOps : List (At → BitVec 3 → BitVec 2 → BitVec 21 → Instr) := [
  .leItof, .leFtoi, .leFtoiz, .leSx8, .leSx16, .leZx8, .leZx16, .leBcdi, .leIbcd, .leBswap]

/-- QUA functions 0-9 (R74). -/
def quaOps : List (At → BitVec 3 → BitVec 2 → BitVec 21 → Instr) := [
  .leGtag, .leStag, .leCtag, .leIsgood, .leIsuse, .leIsbad, .leIsnp, .leSubst, .leWorst, .leTeq]

/-- IMM functions 0-14 (R73). -/
def immOps : List (At → BitVec 3 → BitVec 23 → Instr) := [
  .leLdi, .leLdih, .leAddi, .leMuli, .leAndi, .leOri, .leXori, .leShli, .leShri, .leSari, .leCeqi, .leClti, .leCgti,
  .leMini, .leMaxi]

/-- SYS functions 0-3 (R83). -/
def sysOps : List (At → BitVec 3 → BitVec 23 → Instr) := [.leSysrd, .leSyswr, .leRaise, .leWdsrv]

/-- TMR functions 0-3 (R77). -/
def tmrOps : List (At → BitVec 3 → BitVec 13 → Instr) := [.leTon, .leTof, .leTp, .leTrst]

/-- CTR functions 0-4 (R78). -/
def ctrOps : List (At → BitVec 3 → BitVec 13 → Instr) := [.leCtu, .leCtd, .leCtud, .leCrst, .leCload]

/-- A bit instruction: N on LD, AND, OR, XOR and ST only, E on ST only (R57-R59). -/
def decodeBit (c : At) (op : Nat) (n e st : Bool) (w : BitVec 21) (b : BitVec 6) : Option Instr :=
  match op, n, e with
  | 1, _, false => some (.leLd c n st w b)
  | 2, _, false => some (.leAnd c n st w b)
  | 3, _, false => some (.leOr c n st w b)
  | 4, _, false => some (.leXor c n st w b)
  | 5, _, false => some (.leSt c n st w b)
  | 5, false, true => some (.leTrgr c st w b)
  | 5, true, true => some (.leTrgf c st w b)
  | 6, false, false => some (.leSet c st w b)
  | 7, false, false => some (.leRst c st w b)
  | _, _, _ => none

/-- An instruction of STK or RLOP: no modifiers, word field zero (R54, R58, R62, R63). -/
def decodeStack (c : At) (l : List (At → Instr)) (w : Nat) : Option Instr :=
  if wfld w 6 24 = 0 then (l[wfld w 0 6]?).map (fun f => f c) else none

/-- A word instruction (format W). -/
def decodeWord (c : At) (l : List (At → BitVec 3 → BitVec 2 → BitVec 21 → Instr)) (w : Nat) : Option Instr :=
  (l[wfld w 26 4]?).map (fun f =>
    f c (BitVec.ofNat 3 (wfld w 23 3)) (BitVec.ofNat 2 (wfld w 21 2)) (BitVec.ofNat 21 (wfld w 0 21)))

/-- An immediate or system instruction (format I). -/
def decodeImm (c : At) (l : List (At → BitVec 3 → BitVec 23 → Instr)) (w : Nat) : Option Instr :=
  (l[wfld w 26 4]?).map (fun f => f c (BitVec.ofNat 3 (wfld w 23 3)) (BitVec.ofNat 23 (wfld w 0 23)))

/-- A Rake instruction (format K). -/
def decodeRake (c : At) (w : Nat) : Option Instr :=
  (rakeOps[wfld w 27 3]?).map (fun f => f c (BitVec.ofNat 6 (wfld w 21 6)) (BitVec.ofNat 21 (wfld w 0 21)))

/-- A timer or counter instruction (format T): bits [9:0] are reserved. -/
def decodeBlock (c : At) (l : List (At → BitVec 3 → BitVec 13 → Instr)) (w : Nat) : Option Instr :=
  if wfld w 0 10 = 0 then
    (l[wfld w 26 4]?).map (fun f => f c (BitVec.ofNat 3 (wfld w 23 3)) (BitVec.ofNat 13 (wfld w 10 13)))
  else none

/-- A control instruction (format C): bits [22:20] are reserved, and RET and ENDS leave the target field unused (R81). -/
def decodeCtrl (c : At) (op w : Nat) : Option Instr :=
  let k := BitVec.ofNat 4 (wfld w 26 4)
  let a := BitVec.ofNat 3 (wfld w 23 3)
  let t := BitVec.ofNat 18 (wfld w 2 18)
  let sl := BitVec.ofNat 2 (wfld w 0 2)
  if wfld w 20 3 ≠ 0 then none
  else match op with
    | 0x30 => some (.leJmp c k a t sl)
    | 0x31 => some (.leCall c k a t sl)
    | 0x32 => if wfld w 0 20 = 0 then some (.leRet c k a) else none
    | 0x33 => some (.leLoop c k a t sl)
    | 0x34 => if wfld w 0 20 = 0 then some (.leEnds c k a) else none
    | _ => none

/-- The fields of a program word under its opcode (R53-R55); opcode 0x00 with any other bit set is illegal (R54). -/
def decodeFields (c : At) (w : Nat) : Option Instr :=
  let op := wfld w 30 6
  match op with
  | 0x00 => if w = 0 then some (.leNop c) else none
  | 0x08 => decodeStack c stkOps w
  | 0x09 => decodeStack c rlopOps w
  | 0x10 => decodeWord c movOps w
  | 0x11 => decodeWord c iarOps w
  | 0x12 => decodeWord c farOps w
  | 0x13 => decodeWord c cmpOps w
  | 0x14 => decodeWord c logOps w
  | 0x15 => decodeWord c cnvOps w
  | 0x16 => decodeWord c quaOps w
  | 0x18 => decodeImm c immOps w
  | 0x19 => decodeImm c sysOps w
  | 0x20 => decodeRake c w
  | 0x21 => decodeBlock c tmrOps w
  | 0x22 => decodeBlock c ctrOps w
  | 0x30 | 0x31 | 0x32 | 0x33 | 0x34 => decodeCtrl c op w
  | _ => decodeBit c op (wfld w 29 1 = 1) (wfld w 28 1 = 1) (wfld w 27 1 = 1) (BitVec.ofNat 21 (wfld w 6 21))
      (BitVec.ofNat 6 (wfld w 0 6))

/-- The word has an opcode of format C (R53, R55). -/
def isCtlWord (w : BitVec 36) : Bool := decide (0x30 ≤ wfld w.toNat 30 6) && decide (wfld w.toNat 30 6 ≤ 0x34)

/-- What an illegal word is issued as: ILLEGAL_INSTRUCTION; a word of format C as a JMP with a reserved condition code, which is
illegal too (R80) and counts among the control instructions of its bundle (R52). -/
def illegalWord (c : At) (w : BitVec 36) : Instr := if isCtlWord w then .leJmp c 15 0 0 0 else .illegalInstruction c

/-- The command that a fetched program word is: its instruction, or an illegal one (R54, R56, R58, R81, R86). -/
def leDecode (c : At) (w : BitVec 36) : Instr :=
  match decodeFields c w.toNat with
  | some i => if wellFormed i then i else illegalWord c w
  | none => illegalWord c w

end Sys2Proof
end

