-- ==== Sys2Proof/Machine/State.lean ====
section
/-! DEFINITION. The state of the module as plain data: every register, memory, queue, counter, mode and pin that the
spec gives it, and the queue of waiting commands. Configuration registers (RW, RWL, RWT) stand as 32-bit words by
address in `Regs`; everything else has a field of its own. Times marked "cyc" are fabric-clock cycles of 5 ns since the
start of the module; times marked "ns" are station time. -/

namespace Sys2Proof.Machine

/-- Why a command stops the model. -/
inductive Fault where
  /-- Raised by a register write whose value R10 forbids: a field receives a code that its table reserves, and
  "the module's behaviour on such a write is not defined". Safe: the model stops where the module's behaviour is open. -/
  | reservedCode (addr : Word)
deriving DecidableEq, Repr

/-- Why a command has no meaning. -/
inductive Refusal where
  /-- A command that the model does not model yet; raised by an arm of `exec`. Safe: the model stops. -/
  | notModelled (mnemonic : String)
deriving DecidableEq, Repr

/-- RLO, or an entry of the rung stack: a bit with its tag (R47). -/
structure Rlo where
  bit : Bool := false
  tag : Tag := 0
deriving DecidableEq, Repr, Inhabited

/-- The working state of one lane (R47). The head of `stack` is its top; `acc` is keyed 0-7. -/
structure LaneSt where
  rlo : Rlo := {}
  stack : List Rlo := []
  acc : SMap DWord := []
  flags : BitVec 5 := 0
deriving DecidableEq, Repr, Inhabited

/-- An entry of the call stack (R81). -/
structure CallEntry where
  ret : BitVec 18
  poolbase : BitVec 6
deriving DecidableEq, Repr, Inhabited

/-- A result that an LE instruction writes when its bundle retires (R49). A bit of `mask` is a bit that is written;
the tag is always written (R51, R57). -/
inductive LeWrite where
  | mem (a : BitVec 21) (mask val : Word) (tag : Tag)
  | acc (lane : BitVec 2) (i : BitVec 3) (mask val : Word) (tag : Tag)
  | rlo (lane : BitVec 2) (r : Rlo)
  | stack (lane : BitVec 2) (st : List Rlo)
  | flags (lane : BitVec 2) (set clr : BitVec 5)
  | sys (idx : BitVec 6) (val : Word)
  | raise (j : BitVec 5)
  | wdsrv (k : BitVec 3) (key : BitVec 16)
deriving DecidableEq, Repr

/-- What the control instruction of a bundle does at the retire (R52, R81). -/
inductive LeCtrl where
  | next
  | jump (target : BitVec 18) (slot : BitVec 2)
  | call (target : BitVec 18) (slot : BitVec 2) (pool : BitVec 6)
  | ret
  | loop (lane : BitVec 2) (a7 : DWord) (go : Bool) (target : BitVec 18) (slot : BitVec 2)
  | ends
deriving DecidableEq, Repr

/-- What one instruction of the open bundle does: its writes, its traps (reasons of R86), its control effect and whether
it is a control instruction (R52, also one that is illegal), its bank accesses for R93, its cycle count under R89, the violations of R298 and the memory faults of R24 that it found. -/
structure LaneEff where
  lane : BitVec 2
  writes : List LeWrite
  traps : List (BitVec 6)
  ctrl : Option LeCtrl
  isCtl : Bool
  reads : List Nat
  indirect : Bool
  targets : List Nat
  stores : List Nat
  cycles : Nat
  viols : List (BitVec 21 × Bool)
  memFaults : List (Nat × Nat)
deriving DecidableEq, Repr

/-- The logic engine (02, 03). -/
structure LeSt where
  /-- a scan is running -/
  running : Bool := false
  lanes : SMap LaneSt := []
  /-- logical address of the bundle in execution and the slot at which it was entered (R81, R107) -/
  pc : BitVec 18 := 0
  slot : BitVec 2 := 0
  callStack : List CallEntry := []
  poolbase : BitVec 6 := 0
  /-- SLUICE_GO is armed (R85) -/
  sluiceArmed : Bool := false
  /-- M holds the writes of a scan that a fatal fault ended before it was committed (R348) -/
  uncommitted : Bool := false
  /-- requests of the scan in progress, which travel with its Q image (R132, R179) -/
  goMask : Word := 0
  rfxRst : BitVec 64 := 0
  /-- user events raised, and trap event fired, in this scan (R84, R86) -/
  raised : Word := 0
  trapFired : Bool := false
  /-- SCANCYC at the start of the bundle, and stall cycles of this scan (R85, R93) -/
  scanCyc : Nat := 0
  stalls : Nat := 0
  /-- effects of the open bundle, in the order of issue; and whether the sequencer has issued it -/
  bundle : List LaneEff := []
  issued : Bool := false
  /-- fabric cycle and tick in which the scan started -/
  startCyc : Nat := 0
  scanTick : Nat := 0
  /-- this scan has overrun (R41) -/
  overran : Bool := false
  /-- a sealed Q image waits for its commit, with the requests that travel with it (R18, R19) -/
  sealedReady : Bool := false
  sealedGo : Word := 0
  sealedRst : BitVec 64 := 0
  sealedTick : Nat := 0
  sealedQ : SMap DWord := []
  /-- the Q image of the last commit, which the bus schedules take (R18, R20, R41) -/
  commQ : SMap DWord := []
  /-- tick of the scan that has overrun, whose image the next latch leaves in place (R41) -/
  overTick : Option Nat := none
  /-- LE cycles of the slice of the tick in which the scan started, and TBASE of that tick (R14, R76, R101) -/
  slice : Nat := 0
  scanTbase : Word := 0
  /-- scan flags of S 0x4006 for the next scan (R37) -/
  firstScan : Bool := false
  afterTakeover : Bool := false
  newVersion : Bool := false
  prevOverran : Bool := false
  /-- LE_TRAP and LE_TRAP_TICK (R88) -/
  trapBundle : BitVec 18 := 0
  trapLane : BitVec 2 := 0
  trapReason : BitVec 4 := 0
  trapOvf : Bool := false
  trapValid : Bool := false
  trapTick : Word := 0
  /-- SCAN_CYCLES_LAST, SCAN_CYCLES_MAX, LE_BANK_STALLS, SCAN_HIST, a pending CLR (R101, R102) -/
  cyclesLast : Nat := 0
  cyclesMax : Nat := 0
  bankStalls : Nat := 0
  hist : SMap Nat := []
  histClr : Bool := false
  /-- LE_BUDGET.OVER (R99) -/
  budgetOver : Bool := false
  /-- LE clock in force in MHz (R100) -/
  mhz : Nat := 400
  /-- OVERRUN_COUNT.TOTAL and CONSEC (R44) -/
  overTotal : Nat := 0
  overConsec : Nat := 0
  /-- LE_LSTEST and the pass in progress (R104) -/
  lsPasses : Nat := 0
  lsPeriod : Nat := 0
  lsActive : Bool := false
  lsStep : Nat := 0
  lsStart : Nat := 0
  lsPrevStart : Option Nat := none
  /-- fabric cycle from which the logic engine stands idle, or at which the last step of the pass ended (R104) -/
  lsFrom : Nat := 0
  /-- LE_STATE (R350): WARM, AUTO_RUN, RESULT, STOPPING; a RUN or STOP that waits for its boundary -/
  warm : Bool := false
  autoRun : Bool := false
  /-- the module has run since its last reset, so that the cause of that reset no longer decides R348 -/
  ran : Bool := false
  result : BitVec 4 := 0
  stopping : Bool := false
  runPending : Bool := false
  stopReady : Bool := false
  /-- LE_PROG_ID and the identity under which M and T were last written (R125, R348) -/
  progId : Word := 0
  dataId : Word := 0
deriving DecidableEq, Repr

/-- Memories of the logic engine. `words` holds Q, M and T; `lwords` the L words written since the last entry to RUN,
`lgen` counts those entries; `upset` marks words with a single-bit (1) or double-bit (2) error (R24, R97, R284): data words by
their addresses, program words from 0x200000, pool entries from 0x300000, words of CP SRAM from 0x400000. -/
structure MemSt where
  words : SMap DWord := []
  lwords : SMap (Option DWord) := []
  lgen : Nat := 0
  upset : SMap (BitVec 2) := []
  prog : SMap (BitVec 36) := []
  pool : SMap (Word × Word) := []
  scrubPos : SMap Nat := []
deriving DecidableEq, Repr

/-- One buffer of the input latch: channel words, node input words (key 16k + j), node status words and system image
words (key: offset from 0x4000) (R29-R37). -/
structure Image where
  chan : SMap DWord := []
  nodeIn : SMap DWord := []
  nodeStat : SMap DWord := []
  sys : SMap DWord := []
deriving DecidableEq, Repr

/-- The two image buffers (R17, R41), the routed firings not yet shown in a consumed latch, each with the number of the latch that
first shows it (R42, R219, R408), and the last latch and whether a scan has read it. -/
structure ImgSt where
  cur : Image := {}
  idle : Image := {}
  fired : List (BitVec 10 × Nat) := []
  lastLatch : Nat := 0
  consumed : Option Nat := none
deriving DecidableEq, Repr

/-- The tick (01). -/
structure TickSt where
  /-- the tick runs; `goAt` is the station time at which tick 0 starts after TICK_GO (R344) -/
  on : Bool := false
  goAt : Option Nat := none
  num : Nat := 0
  countHi : Word := 0
  /-- station time of T0 and of the next boundary, in ns -/
  t0 : Nat := 0
  next : Nat := 0
  /-- T0 of the tick before (R246) -/
  lastT0 : Nat := 0
  /-- period in force (R15), in µs; the one before it, and the first tick of the period in force (R76) -/
  period : Nat := 10000
  prevPeriod : Nat := 10000
  periodTick : Nat := 0
  /-- phases of this tick that have passed -/
  commitDone : Bool := false
  scanDone : Bool := false
  evalDone : Bool := false
  refDone : BitVec 4 := 0
  freeDone : BitVec 4 := 0
  /-- TBASE and RUNID (R76); `runidFresh`: the backup domain lost power since RUNID was last used -/
  tbase : Word := 0
  runid : BitVec 16 := 0
  runidFresh : Bool := false
  /-- count of missed commits and COMMIT_MISSED (R178, R129) -/
  missed : Nat := 0
  commitMissed : Bool := false
  /-- RUN was entered from READY at this tick's boundary, so its T0 + 2 µs makes no commit (R21) -/
  entryTick : Bool := false
  /-- the next commit is skipped after a scan abort (R87) -/
  skipCommit : Bool := false
deriving DecidableEq, Repr

/-- One configuration edit range that CLOSE has recorded as downloaded (R111, R122). -/
structure DlRange where
  base : BitVec 18
  len : Nat
  pool : Bool
  ack : Bool
deriving DecidableEq, Repr, Inhabited

/-- States of EDIT_STATE.STATE (R111). -/
inductive EditPhase where
  | idle | opened | staged | pending | committed | undoPending
deriving DecidableEq, Repr, Inhabited

/-- Online edits (04). -/
structure EditSt where
  phase : EditPhase := .idle
  busy : Bool := false
  partnerAck : Bool := false
  /-- in a standby: a COMMIT or UNDO is pending in the active (R124) -/
  partnerPend : Bool := false
  code : Byte := 0
  live : SMap BlockEntry := []
  prev : SMap BlockEntry := []
  /-- blocks whose previous entry is held for an unaccepted edit (R109) -/
  changed : List Nat := []
  openRange : Option DlRange := none
  ranges : List DlRange := []
  stagedSet : List (Nat × BlockEntry) := []
  /-- target tick, new budget, new identity and migration table of the pending swap (R115, R116) -/
  target : Nat := 0
  newBudget : BitVec 26 := 0
  newId : Word := 0
  mig : MigRef := default
  /-- migration tables of the committed edit, protected until ACCEPT (R110) -/
  migFwd : MigRef := default
  migBack : MigRef := default
  /-- what the swap back restores (R116) -/
  oldBudget : BitVec 26 := 0
  oldId : Word := 0
  migDone : Bool := false
  /-- tick of the seal after which the last migration table was applied: monitor requests wait for the next seal (R120) -/
  migSeal : Option Nat := none
  landed : Word := 0
deriving DecidableEq, Repr

/-- The online monitor and the CP's window bridge (R262, R264). -/
structure MonSt where
  snapReq : Bool := false
  snapBusy : Bool := false
  snapDone : Bool := false
  writeReq : Bool := false
  writeBusy : Bool := false
  writeDone : Bool := false
  skipped : Nat := 0
  /-- ticks at whose boundary the two requests were accepted (R105, R264) -/
  snapAccTick : Nat := 0
  writeAccTick : Nat := 0
  snapTick : Word := 0
  buf : SMap DWord := []
  /-- the write list, by word (four to an entry) -/
  wlist : SMap Word := []
  held : Option (BitVec 21 × Word) := none
  heldProg : Option (BitVec 20 × Word) := none
  /-- the tag latched by the last low-word read, and the word it belongs to (R262) -/
  tagLatch : Tag := 0
  latchAddr : Option (BitVec 21) := none
  /-- the same of the program store window: bits [35:32] of the word last read -/
  progLatch : BitVec 4 := 0
  progLatchAddr : Option (BitVec 20) := none
  drop : Bool := false
  tagErr : Bool := false
deriving DecidableEq, Repr

/-- The reflex unit (05). -/
structure RfxSt where
  latch : BitVec 64 := 0
  cond : BitVec 64 := 0
  stand : BitVec 64 := 0
  lastEq : BitVec 6 := 0
  lastValid : Bool := false
  lastTime : Nat := 0
  timeHi : Word := 0
  trips : SMap Nat := []
deriving DecidableEq, Repr

/-- The dynamic state of one field channel (06). -/
structure ChanSt where
  raw : Bool := false
  rawTs : Nat := 0
  edgePend : Bool := false
  filt : Bool := false
  filtTs : Nat := 0
  edges : List (Nat × Bool) := []
  lastTs : Option Nat := none
  tsUs : BitVec 31 := 0
  tsRising : Bool := false
  wb : Bool := false
  confirm : Option (Bool × Nat) := none
  fullUntil : Nat := 0
  settleLeft : Nat := 0
  winPct : Nat := 10
  wetLimit : Bool := false
  ioff : Nat := 0
  ioffAcc : Nat := 0
  learnt : Bool := false
  drive : Bool := false
  driveCyc : Nat := 0
  driveSense : Bool := false
  mismatch : Bool := false
  cmd : Bool := false
  rearmPrev : Bool := false
  trip : Bool := false
  lock : Bool := false
  cause : BitVec 4 := 0
  tripCyc : Nat := 0
  trips : List Nat := []
  rearmReq : Bool := false
  measI : BitVec 16 := 0
  termMv : BitVec 16 := 0
  onRes : BitVec 16 := 0
  cycles : Nat := 0
  thrTrim : Int := 0
  ilimTrim : Int := 0
  thrFirst : Option Int := none
  calAgeMin : Nat := 0
  calDue : Bool := false
  calReq : Bool := false
  calRetry : Bool := false
  calRetryCyc : Nat := 0
  calActive : Bool := false
  calStart : Nat := 0
  calLast : BitVec 4 := 0
  calAborts : Nat := 0
  calOverdue : Bool := false
  quietCyc : Nat := 0
  rep : Bool := false
  repForced : Bool := false
  repTs : Option Nat := none
  /-- the mode that the front end stands in, and its pulsed wetting with the period in units of 100 µs (R145, R149) -/
  feMode : BitVec 3 := 0
  fePulsed : Bool := false
  fePeriod : Nat := 0
  /-- an INHIBIT action holds the output OFF since a committed OFF (R130) -/
  held : Bool := false
  /-- fabric cycles: the settings took effect; the debounced state last fell, or WIREBREAK cleared with it at 0; the last steps of R151 and R153 -/
  setCyc : Nat := 0
  openCyc : Nat := 0
  adaptCyc : Nat := 0
  learnCyc : Nat := 0
deriving DecidableEq, Repr

/-- The dynamic state of one channel group (06). -/
structure GrpSt where
  lost : Bool := false
  reload : Bool := false
  low : Bool := false
  lowSeen : Bool := false
  shed : Bool := false
  shedCyc : Nat := 0
  surge : Bool := false
  mv : BitVec 16 := 0
  ma : BitVec 16 := 0
  peak : BitVec 16 := 0
  derated : Nat := 2500
  deratedNew : Nat := 2500
  surgeLast : Nat := 0
  surgeCount : Nat := 0
  hardOff : Bool := false
deriving DecidableEq, Repr

/-- States of a group sequence (R174). -/
inductive SlcPhase where
  | idle | running | rested
deriving DecidableEq, Repr, Inhabited

/-- One group sequencer (07). `began` says that the step in progress has taken effect; `table` is the table that the
sequence runs (R183); `pulseCh` the channel of a PULSE. -/
structure SlcGrp where
  phase : SlcPhase := .idle
  step : Nat := 0
  stepCyc : Nat := 0
  began : Bool := false
  cause : BitVec 4 := 0
  timeout : Bool := false
  badStep : Bool := false
  held : Byte := 0
  cmd : Byte := 0
  table : List Word := []
deriving DecidableEq, Repr

/-- The Sluice sequencer (07). -/
structure SlcSt where
  armed : Bool := false
  miss : Bool := false
  hardoff : Word := 0
  lastCause : BitVec 4 := 0
  lastGroup : BitVec 5 := 0
  lastValid : Bool := false
  lastTime : Nat := 0
  timeHi : Word := 0
  grp : SMap SlcGrp := []
  relPending : Word := 0
  parityBad : SMap Bool := []
deriving DecidableEq, Repr

/-- A twin-link frame that this module has sent (R198, R200): the lane, FLAGS, SEQ and ACK of its header, the payload, and the
fabric cycle of the last sending. -/
structure LinkFrame where
  hdr : FrameHdr
  payload : LinkPayload
  cyc : Nat
deriving DecidableEq, Repr

/-- What waits on the link behind the epoch frames (R200): a frame, a range of the program store or the pool, or the block table.
Their contents are taken as they are sent. -/
inductive LinkJob where
  | frame (p : LinkPayload)
  | range (base len : Nat) (pool : Bool)
  | table
  /-- everything that a resync sends before its sweep has been sent (R209) -/
  | mark
deriving DecidableEq, Repr

/-- One twin-link lane (LANE0_STATUS, LANE1_STATUS). -/
structure LaneStat where
  up : Bool := false
  sfp : Bool := false
  los : Bool := false
  retx : Nat := 0
  errors : Nat := 0
  lastRx : Nat := 0
  /-- fabric cycle up to which a frame of this module occupies the lane (R206) -/
  busyTo : Nat := 0
deriving DecidableEq, Repr

/-- What a standby stages of an epoch (R207). -/
structure Staged where
  hdr : EpochHdr
  blocks : List (BitVec 21 × List DWord)
  edits : List EditMsg
  forces : List ForceChange
deriving DecidableEq, Repr

/-- An epoch that the active ships (R203, R204): its header, what of it has not been sent yet, the CRC over what has, and
whether its first and its last frame have been sent. -/
structure ShipEpoch where
  hdr : EpochHdr
  edits : List EditMsg
  forces : List ForceChange
  blocks : List Nat
  sweep : List Nat := []
  crc : Word := 0xFFFFFFFF
  begun : Bool := false
  ended : Bool := false
deriving DecidableEq, Repr

/-- The redundant pair (08). -/
structure PairSt where
  seatB : Bool := false
  mstate : ModState := .init
  role : Role := .undecided
  partnerState : Option ModState := none
  partnerRole : Role := .undecided
  partnerNoRun : Bool := false
  partnerDefaulted : Bool := false
  partnerCurrent : Bool := false
  /-- the last heartbeat sent on each lane, and the partner's last transmit time with its time of receipt (R200, R201) -/
  hbOut : SMap (Option LinkFrame) := []
  hbEchoTx : Nat := 0
  hbEchoRx : Nat := 0
  lane0 : LaneStat := {}
  lane1 : LaneStat := {}
  tokenIn : Bool := false
  tokenOut : Bool := false
  refHeard : Bool := false
  refSeen : Bool := false
  missed : Nat := 0
  current : Bool := false
  /-- PAIR_STATUS.CURRENT as source 438 last reported it (R226) -/
  curShown : Bool := false
  resync : Bool := false
  cfgMismatch : Bool := false
  takeoverNc : Bool := false
  seatConflict : Bool := false
  r220 : Bool := false
  lag : Nat := 0xFFFF
  cmdLast : BitVec 4 := 0
  cmdResult : BitVec 4 := 0
  epochTick : Nat := 0
  epochTickHi : Word := 0
  epochBlocks : Nat := 0
  epochSeq : Word := 0
  /-- an epoch has been applied since SHADOW was entered; the next epoch of a resync may have any number; the block table of the
  resync in progress has arrived (R207, R209, log 36) -/
  applied : Bool := false
  seqAny : Bool := false
  tableSeen : Bool := false
  maxBlocks : Nat := 0
  preimgMax : Nat := 0
  swept : Nat := 0
  progDone : Bool := false
  lastCause : BitVec 4 := 0
  lastValid : Bool := false
  lastTime : Nat := 0
  timeHi : Word := 0
  takeovers : Nat := 0
  resyncs : Nat := 0
  giveSrc : BitVec 10 := 0
  giveReason : BitVec 6 := 0
  giveKind : BitVec 4 := 0
  /-- harvest: dirty blocks of the open map, the epoch being shipped, sequence number of the next epoch -/
  dirty : List Nat := []
  ship : Option ShipEpoch := none
  closed : Option ShipEpoch := none
  nextSeq : Word := 1
  /-- tick of the scan whose seal last closed an epoch (R216) -/
  closedTick : Nat := 0
  editsOut : List EditMsg := []
  /-- force changes that wait for the epoch of the tick in which they take effect (R204, R266) -/
  forcesOut : List (Nat × ForceChange) := []
  preimg : List (Nat × DWord × Bool) := []
  /-- link numbering and frames that wait for acknowledgement (R198, R199) -/
  txSeq : BitVec 16 := 0
  rxSeq : BitVec 16 := 0
  /-- the next sequenced frame sets the number that the receiver follows (log 87) -/
  rxAny : Bool := true
  unacked : List LinkFrame := []
  /-- frames of low priority, and the lane of the next epoch frame (R200, R206) -/
  lowq : List LinkJob := []
  stripe : Bool := false
  /-- the standby's staging area; a partial epoch was cut short as both lanes fell silent (R207) -/
  staged : Option Staged := none
  cut : Bool := false
  /-- pending takeover and hold window (R212, R214) -/
  takeoverAt : Option Nat := none
  giveTick : Option Nat := none
  handTries : Option Nat := none
  listenUntil : Option Nat := none
  released : Bool := false
  takenSeen : Bool := false
  /-- a NOT_CURRENT standby without COLD_START stays in READY (R220) -/
  stayReady : Bool := false
  cfgPull : Option CfgSlot := none
  /-- a configuration has been requested from the partner (R224) -/
  pullSent : Bool := false
  immediateCommit : Bool := false
deriving DecidableEq, Repr

/-- The time unit (09). -/
structure TimeSt where
  cyc : Nat := 0
  ns : Nat := 0
  frac : Int := 0
  timeHi : Word := 0
  valid : Bool := false
  setSrc : BitVec 2 := 0
  disc : BitVec 2 := 0
  locked : Bool := false
  holdover : Bool := false
  slewing : Bool := false
  result : BitVec 4 := 0
  sets : Nat := 0
  rate : Int := 0
  slewLeft : Int := 0
  slewAcc : Int := 0
  ppsErr : Int := 0
  ppsGood : Nat := 0
  ppsCyc : Option Nat := none
  ppsSec : Option Nat := none
  ppsOut : Bool := false
  ppsOutNs : Nat := 0
  pending : Option (Int × BitVec 2) := none
deriving DecidableEq, Repr

/-- A frame that the module's own schedule sends (R242): 0 reference, 1 output, 2 correction, 3 activate. -/
structure SchedFrame where
  kind : BitVec 2
  id : BitVec 29
  ide : Bool
  fdf : Bool := false
  brs : Bool := false
  node : Nat
  data : List Byte
deriving DecidableEq, Repr

/-- A frame of the module that is on the bus: its start of frame, the end of the intermission that follows it, both in ns of station
time, and the tick in which it started (R230, R247). -/
structure OnBus where
  frame : SchedFrame
  sof : Nat
  fin : Nat
  tick : Nat
deriving DecidableEq, Repr

/-- A transmit entry (09 "Frame words"); `reqNs` is the station time at which it was queued. -/
structure TxEntry where
  pending : Bool := false
  reqNs : Nat := 0
  done : Bool := false
  aborted : Bool := false
  badId : Bool := false
  esi : Bool := false
  stamp : BitVec 48 := 0
deriving DecidableEq, Repr

/-- One CAN bus (09). `state`: 0 ERROR_ACTIVE, 1 ERROR_PASSIVE, 2 BUS_OFF (OFF is told from CAN_CFG.MODE). -/
structure BusSt where
  state : BitVec 2 := 0
  schedRun : Bool := false
  rxErrs : Byte := 0
  txErrs : Byte := 0
  busoff : Nat := 0
  intrusions : Nat := 0
  superseded : Nat := 0
  corrections : Nat := 0
  fifo : List CanFrame := []
  ovf : Bool := false
  tx : SMap TxEntry := []
  lowerHeard : Option Nat := none
  sched : List SchedFrame := []
  corrQueue : List Nat := []
  /-- the free window stands open; the module's own frames that the bus has carried since T0 + 10 µs -/
  free : Bool := false
  sent : List SchedFrame := []
  /-- the module's own frame on the bus, the time up to which the bus is busy, and the start of frame and end of intermission of
  the frames of this tick and the last (R230, R242, R247) -/
  cur : Option OnBus := none
  busyTo : Nat := 0
  spans : List (Nat × Nat) := []
  /-- the tick in which a bus-off recovery came too late for the schedule (R231) -/
  holdTick : Option Nat := none
deriving DecidableEq, Repr

/-- Node states of the status word (R250). -/
inductive NodePhase where
  | ok | lost | rejoining
deriving DecidableEq, Repr, Inhabited

/-- A node frame that has arrived and waits for a latch: class LATE, class EDGE, pushed, data, end of frame (ns),
and the tick it belongs to (R246, R247). -/
structure NodeRx where
  late : Bool
  edge : Bool
  pushed : Bool
  data : List Byte
  eof : Int
  tick : Nat
deriving DecidableEq, Repr

/-- One node link (09). -/
structure NodeSt where
  phase : NodePhase := .ok
  status : Word := 0
  lastOfs : Int := 0
  violations : Nat := 0
  missedTotal : Nat := 0
  pushedTotal : Nat := 0
  corrections : Nat := 0
  losses : Nat := 0
  miss : Nat := 0
  consec : Nat := 0
  goodRun : Nat := 0
  rx : List NodeRx := []
  hasLast : Bool := false
  last : List Byte := []
  lastTag : Tag := 0
  prevRejoin : Bool := false
  outOff : Bool := false
  corrAt : List Nat := []
  waiting : Bool := false
  corrErr : Int := 0
  corrSeq : Byte := 0
deriving DecidableEq, Repr

/-- Entry of an event queue (R269). -/
structure QEntry where
  src : BitVec 10
  stamp : Nat
deriving DecidableEq, Repr

/-- Interrupt controller and event queues (R267-R269); `run` is the stack of claimed sources. -/
structure EvSt where
  pend : List (BitVec 10) := []
  run : List (BitVec 10) := []
  claim : BitVec 10 := 0x3FF
  q0 : List QEntry := []
  q1 : List QEntry := []
  lost0 : Nat := 0
  lost1 : Nat := 0
  corrSec : Option Nat := none
deriving DecidableEq, Repr

/-- One UART (R273-R276). -/
structure UartSt where
  rx : List (Byte × Bool × Bool) := []
  tx : List Byte := []
  keyed : Bool := false
  leading : Bool := false
  tailing : Bool := false
  phaseCyc : Nat := 0
  hold : Bool := false
  holdBit : Bool := false
  lines : BitVec 4 := 0
  rxErr : Bool := false
  /-- a transmission is in progress -/
  busy : Bool := false
  level : Int := 0
  rxCyc : Option Nat := none
deriving DecidableEq, Repr

/-- A service session (R277). -/
structure Session where
  nonce : BitVec 128
  roles : BitVec 8
  scopeKind : BitVec 8
  until_ : Option Nat
deriving DecidableEq, Repr

/-- A Sync of a PTP port, with what the port announces (R238): clockClass, the PTP timescale, and its time stamp in ns. -/
structure PtpSync where
  clockClass : Byte
  ptpScale : Bool
  stamp : Nat
deriving DecidableEq, Repr

/-- The communication processor and its ports (10). Interfaces: 0 and 1 Ethernet, 2 USB. -/
structure CpSt where
  down : Bool := false
  cause : BitVec 4 := 0
  rdata : Word := 0
  /-- the log as the last readout of the service protocol returned it, from 0x008 on (R334) -/
  readout : List Word := []
  sram : SMap Word := []
  oemStopped : Bool := false
  oemStops : List Nat := []
  oemStopCyc : Nat := 0
  oemValid : Bool := true
  /-- the exponent of the Sync interval, and the Ethernet addresses (R238, R271) -/
  eth : EthCfg := {}
  link : BitVec 2 := 0
  ethCount : SMap Nat := []
  ethSec : Nat := 0
  ethDiscards : SMap Nat := []
  /-- frames in each port's receive ring that the vendor base has not taken yet (R401, log 95) -/
  ethRing : SMap Nat := []
  /-- the last Sync of each Ethernet port (R238) -/
  ptp : SMap (Option PtpSync) := []
  usb : Bool := false
  sessions : SMap (Option Session) := []
  tokFails : SMap (List Nat) := []
  tokLock : SMap (Option Nat) := []
  nonceGen : Nat := 0
  uart : SMap UartSt := []
  /-- bus errors that accesses to unassigned addresses raised in the CP (R398) -/
  busErrors : Nat := 0
deriving DecidableEq, Repr

/-- A capture of the fault collector (R288). -/
structure Capture where
  src : BitVec 10 := 0
  reason : BitVec 6 := 0
  cls : BitVec 2 := 0
  valid : Bool := false
  time : Nat := 0
  tick : Word := 0
  timeHi : Word := 0
  cyc : Nat := 0
  /-- CH_FAULT.CAUSE of a captured OVERLOAD (R291) -/
  cause : BitVec 4 := 0
deriving DecidableEq, Repr

/-- The fault collector (11). -/
structure FcuSt where
  first : Capture := {}
  fatal : Capture := {}
  overflow : Nat := 0
  selfBit : Bool := false
  selfReg : BitVec 6 := 0
  corrected : Nat := 0
  contained : Nat := 0
  fatalCount : Nat := 0
  parityBad : BitVec 34 := 0
  fatalNow : Bool := false
  /-- fabric cycle of the last reaction of R285, and the reset that was called for before it (R294) -/
  reactCyc : Option Nat := none
  preReset : Option (BitVec 4) := none
deriving DecidableEq, Repr

/-- Master protection (R296-R300). -/
structure ProtSt where
  frozen : BitVec 7 := 0
  keyErr : Bool := false
  violAddr : SMap Word := []
  violWrite : BitVec 7 := 0
  violCount : SMap Nat := []
  violValid : BitVec 7 := 0
deriving DecidableEq, Repr

/-- A task watchdog (R301). -/
structure TwdSt where
  count : Nat := 0
  started : Bool := false
  served : Bool := false
deriving DecidableEq, Repr

/-- Watchdogs and the clock monitor (R301-R306). Retained counts lie in the backup domain. -/
structure WdSt where
  twd : SMap TwdSt := []
  /-- class-cycle starts that fell while a scan was overrunning, judged when it ends (R302) -/
  twdDue : Byte := 0
  expired : Byte := 0
  keyErr : Byte := 0
  cpTimeout : Nat := 0
  cpDeadline : Nat := 0
  cpRunning : Bool := false
  mainFailed : Bool := false
  backupFail : Bool := false
  devPpm : Int := 0
  /-- the main clock stands out of tolerance, and the restart after its failure is under way (R305) -/
  clkBad : Bool := false
  clkRestart : Bool := false
  nCp : Nat := 0
  nBackup : Nat := 0
  nTask : Nat := 0
  nClock : Nat := 0
  nFatal : Nat := 0
  fatalTimes : List Nat := []
  clkFailCyc : Option Nat := none
  bwdFrom : Nat := 0
  bwdHalf : Bool := false
deriving DecidableEq, Repr

/-- A record of the store (R309). -/
structure Rec where
  key : BitVec 16
  fmt : BitVec 4
  twin : Bool
  moved : Bool
  len : Nat
  seq : Nat
  data : List Byte
deriving DecidableEq, Repr

/-- A slot of a data-flash sector: free slots are not listed; `none` is a torn slot (R310). -/
abbrev Slot := Option Rec

/-- A data-flash sector (R308). `role` 1 head, 2 twin; `slots` are the programmed slots in order, from slot 1. -/
structure Sector where
  erased : Bool := true
  erases : Nat := 0
  openSeq : Nat := 0
  role : BitVec 2 := 0
  reclaimed : Bool := false
  retired : Bool := false
  slots : List Slot := []
deriving DecidableEq, Repr

/-- A queued record (R314). -/
structure NvReq where
  key : BitVec 16
  fmt : BitVec 4
  crit : Bool
  data : List Byte
  seq : Nat
deriving DecidableEq, Repr

/-- The NV controller and the record store (12). -/
structure NvSt where
  sectors : SMap Sector := []
  head : Option Nat := none
  twinHead : Option Nat := none
  queue : List NvReq := []
  /-- records of the module's own that found the queue full (R314, log 120) -/
  waiting : List NvReq := []
  /-- records that a margin read found weak, for which the head has had no slot yet (R378) -/
  moving : List Rec := []
  cur : Option (NvReq × Bool) := none
  mounted : Bool := false
  startup : Bool := false
  recovery : Bool := false
  startCyc : Nat := 0
  recCyc : Nat := 0
  test : Bool := false
  reclaiming : Option Nat := none
  eraseTries : Nat := 0
  code : BitVec 4 := 0
  rlen : BitVec 5 := 0
  rfmt : BitVec 4 := 0
  rtwin : Bool := false
  rseq : Nat := 0
  rdata : List Byte := []
  nextSeq : Nat := 0
  level : Int := 0
  torn : Nat := 0
  holdWritten : Nat := 0
  holdLost : Nat := 0
  eraseCut : Bool := false
  nextRec : Nat := 0
  deferred : Nat := 0
  roundCyc : Nat := 0
  /-- the tick at whose boundary a persistence round was found due; its seal follows R105 (R321) -/
  roundAcc : Option Nat := none
  /-- the persistent words at the last seal, in map order (R319) -/
  atSeal : Option (List DWord) := none
  pmap : List (BitVec 21) := []
  pmapCrc : Word := 0
  flBusy : Option (BitVec 1 × Bool × Nat) := none
  flDone : Bool := false
  flOwn : Bool := false
  flBusyRead : Bool := false
  flVerify : Bool := false
  /-- the two CP flash banks by word; the factory's firmware in bank A has BANK_SEQ 1 (R359, log 31) -/
  flash : SMap Word := [(0xFFC00, 1)]
  /-- sectors (true) and lines (false) whose content is open: an erase cut short, or an operation that did not verify (R324) -/
  flOpen : List (Bool × Nat) := []
  flErases : SMap Nat := []
deriving DecidableEq, Repr

/-- A notice of the Bittern ring (R328-R330). -/
structure Notice where
  kind : Byte
  src : BitVec 10
  reason : BitVec 6
  detail : Word
  rep : Nat
  firstMin : Word
  firstPc : BitVec 24
  lastMin : Word
  lastPc : BitVec 24
  serial : Word
deriving DecidableEq, Repr

/-- The Bittern log (13). -/
structure BtnSt where
  ring : SMap (Option Notice) := []
  serial : Word := 0
  ever : Bool := false
  dirty : List Nat := []
  busy : Bool := false
  restored : Bool := false
  backupLost : Bool := false
  opMin : Word := 0
  pcycle : BitVec 24 := 0
  lastRound : Word := 0
  clears : Nat := 0
  nonceGen : Nat := 0
  nonce : BitVec 128 := 0
  scanHist : SMap Nat := []
  scanRem : SMap Nat := []
  supplyHist : SMap Nat := []
  tempHist : SMap Nat := []
  fieldHist : SMap Nat := []
  surgeHist : SMap Nat := []
  curMax : SMap Nat := []
  curMin : SMap Nat := []
  tecMax : SMap Nat := []
  recMax : SMap Nat := []
  busoff : SMap Nat := []
  laneErr : SMap Nat := []
  laneRetx : SMap Nat := []
  takeovers : Nat := 0
  resyncs : Nat := 0
  overruns : Nat := 0
  wdCopy : List Nat := []
  latchSlot : Option Nat := none
  latch : List Word := []
  early : List Notice := []
  earlyLost : Nat := 0
  /-- what the store's records hold: histograms and extremes in the order of R325, the ring, and the stamps -/
  savedHist : List (SMap Nat) := []
  savedRing : SMap (Option Notice) := []
  savedSerial : Word := 0
  savedEver : Bool := false
  savedMin : Word := 0
  savedPc : BitVec 24 := 0
  /-- takeovers, resyncs, overruns and clears, then the copies of the counts of R306 -/
  savedCounts : List Nat := []
  minCyc : Nat := 0
  /-- BTN_CTRL.PERSIST was written during a round, which another follows (R331) -/
  again : Bool := false
deriving DecidableEq, Repr

/-- Facts fixed at manufacture (R1, R2, R370, 14 "System registers", R428). -/
structure FixedSt where
  variant : BitVec 4 := 1
  revision : Byte := 0
  serial : BitVec 64 := 0
  /-- the MAC address of Ethernet 0; that of Ethernet 1 is the next one (R270) -/
  mac : BitVec 48 := 0
  /-- the factory access key, which serves while no station key is set (R349) -/
  factoryKey : BitVec 256 := 0
  codeMin : Nat := 0
  supercap : Bool := false
deriving DecidableEq, Repr

/-- A configuration slot being written: first the header and the sections, then the check word, then the signature; `pulled` calls for the
reset that takes a pulled slot up (R224, R343). -/
structure SlotWrite where
  slot : BitVec 1
  stage : Nat
  cfg : CfgSlot
  pulled : Bool
deriving DecidableEq, Repr

/-- The module as a whole: power, configuration, resets, sleep (14). -/
structure SysSt where
  recovery : Bool := false
  cfgDefaulted : Bool := false
  backupLost : Bool := false
  fatalHold : Bool := false
  cause : BitVec 4 := 0
  wake : Bool := false
  sleepResult : BitVec 4 := 0
  /-- an accepted request of SLEEP waits for its persistence round and for the queue, and whether the round has started (R352) -/
  sleepPend : Bool := false
  sleepRound : Bool := false
  slotUse : BitVec 1 := 0
  result0 : BitVec 4 := 8
  result1 : BitVec 4 := 8
  gen : Word := 0
  slot0 : CfgSlot := default
  slot1 : CfgSlot := default
  /-- a slot write in progress (R343) -/
  slotWr : Option SlotWrite := none
  checkWord : Word := 0
  supplyLow : Bool := false
  supplyLost : Bool := false
  /-- fabric cycle at which the loss of the logic supply was detected (R187) -/
  lossCyc : Nat := 0
  /-- the supply has returned while the hold-up work still runs, with the seat pin that the start reads (R187) -/
  powerBack : Option Bool := none
  backupOk : Bool := false
  powered : Bool := false
  inReset : Bool := false
  pendReset : Option (BitVec 4) := none
  startWarm : Bool := false
  stationGroup : BitVec 16 := 0
  /-- the station access key of the COMMS section, if it carries one (R277, R349) -/
  stationKey : Option (BitVec 256) := none
  /-- the points that protocol traffic reaches (R278) -/
  points : List ProtoPoint := []
  initMem : List (Nat × DWord) := []
deriving DecidableEq, Repr

/-- Phases of UPD_STATE.STATE (R368). -/
inductive UpdPhase where
  | idle | staging | staged | armed | probation | fallingBack
deriving DecidableEq, Repr, Inhabited

/-- Updating in the field (15). -/
structure UpdSt where
  phase : UpdPhase := .idle
  verified : BitVec 6 := 0
  result : Byte := 0
  actTick : Nat := 0
  seq : Word := 0
  confSeq : Word := 0
  man : Option ManifestMsg := none
  chunks : List (Nat × Nat) := []
  img : Option UpdImage := none
  decided : Bool := false
  goSent : Bool := false
  partnerReady : Option (Nat × Word) := none
  partnerConfirmed : Bool := false
  /-- fabric cycles from which the checks of R365 count: without any of its failures, and without a fatal fault -/
  healthCyc : Nat := 0
  fatalCyc : Nat := 0
  /-- operating time at the activation, in fabric cycles (R365) -/
  probFrom : Nat := 0
  confirmed : BitVec 6 := 0
  fmtOld : BitVec 4 := 0
  fmtNew : BitVec 4 := 0
  bank : BitVec 1 := 0
  /-- what the boot ROM and the vendor base find when they check the firmware of each bank (R280, R359) -/
  sigA : Bool := true
  sigB : Bool := false
  oemA : Bool := true
  oemB : Bool := false
  /-- the staging area after its first 64 KiB, by offset; the last 68 bytes of a staged slot; the part types whose target has been
  erased (R357, R359) -/
  staging : SMap Byte := []
  tail : List Byte := []
  erased : BitVec 6 := 0
  /-- from the first accepted chunk until confirmation, fallback or DISCARD (R360) -/
  busy : Bool := false
  /-- the new program's migration table has been applied at the seal before the activation (R362) -/
  migDone : Bool := false
  armSec : Nat := 0
  /-- station time at which the fallback was called for (R366) -/
  fallNs : Nat := 0
deriving DecidableEq, Repr

/-- A month record (R375, R380). -/
structure Month where
  code : Nat
  mhz : Nat
  slack : Nat
  temp : Int
deriving DecidableEq, Repr

/-- The Graduation monitor (16). -/
structure GrdSt where
  code : Nat := 21
  worst : Nat := 0xFF
  canary : BitVec 4 := 0
  horizon : Nat := 4095
  urgentSeen : Bool := false
  atLimitSeen : Bool := false
  urgentTick : Option Nat := none
  clockPend : Option Nat := none
  codePend : Option Nat := none
  ro : SMap (BitVec 16) := []
  base : Int := 0
  die : Int := 0
  lifeSec : Nat := 0
  /-- the fraction of a second of `lifeSec`, in units of 10^-10 s -/
  lifeFrac : Nat := 0
  lifeNoted : Bool := false
  sramDay : List Nat := []
  sramWords : List (Nat × Nat) := []
  tcxo : Int := 0
  cell : BitVec 16 := 0
  wornSec : List Nat := []
  /-- normalised on-resistances in mΩ, as fractions -/
  chRes : SMap (Nat × Nat) := []
  chDrift : SMap Int := []
  chWorn : List Nat := []
  surgeMj : SMap Nat := []
  months : List Month := []
  monthNo : Nat := 0
  monthCode : Nat := 0
  monthMhz : Nat := 0
  monthSlack : Nat := 0xFF
  monthTemp : Int := -64
  firstCode : Option Nat := none
  trendLife : Nat := 0
  trendMonths : Nat := 0
  trendRo : SMap (BitVec 16) := []
  trendTcxo : Int := 0
  trendCell : BitVec 16 := 0
  trendSram : Nat := 0
  /-- fabric cycle of the last evaluation, and operating minute of the last month record -/
  evalCyc : Nat := 0
  monthMin : Nat := 0
  /-- when each periodic sensor was last taken, by its number: 0 ring oscillators, 1 derating, 2 backup cell, 3 TCXO (fabric cycles),
  4 margin reads (operating minutes), 8 + n the reference of channel n (fabric cycles) (R369, R376-R378) -/
  taken : SMap (Option Nat) := []
deriving DecidableEq, Repr

/-- A panel rectangle in the queue (R390-R392). -/
structure Rect where
  x0 : Nat
  y0 : Nat
  w : Nat
  h : Nat
  src : Word
  stride : Nat
  tag : Byte
  taken : Bool
  /-- a read for it was refused: it copies no further row (R396) -/
  stopped : Bool := false
deriving DecidableEq, Repr

/-- States of PNL_STATUS.PWR_STATE (R385, R394). -/
inductive PnlPhase where
  | off | rising | on | discharging
deriving DecidableEq, Repr, Inhabited

/-- A supply rail of the panel: not driven, at its level, or being discharged (R385, R394). -/
inductive Rail where
  | off | level | falling
deriving DecidableEq, Repr, Inhabited

/-- The panel driver (17). `fb` is keyed by byte offset, `rowAge` by row. -/
structure PnlSt where
  phase : PnlPhase := .off
  pass : Bool := false
  passRows : List Nat := []
  passPhase : Bool := false
  fault : Bool := false
  code : BitVec 2 := 0
  doneTag : Byte := 0
  pol : BitVec 160 := 0
  passes : Nat := 0
  scrubbed : Nat := 0
  fb : SMap Byte := []
  queue : List Rect := []
  rowCyc : SMap Nat := []
  scrubRows : List Nat := []
  blinkRows : List Nat := []
  blinkOff : BitVec 8 := 0
  fullDue : Bool := false
  cfgFull : Bool := false
  /-- MODE (FULL) and RATE in force since the start of the last pass (R389) -/
  passMode : Bool := false
  rate : Nat := 60
  /-- fabric cycle of the last change of PWR_STATE -/
  stopCyc : Nat := 0
  /-- fabric cycles at which the pass in progress, and the last full pass, started -/
  passCyc : Nat := 0
  fullCyc : Nat := 0
  /-- rows of the pass in progress that have been written, and the blink rectangles in their OFF phase as it started -/
  passDone : Nat := 0
  passBlink : BitVec 8 := 0
  /-- the rows of the pass in progress that the scrubber added and that have not been written yet (R388) -/
  passScrub : List Nat := []
  /-- VCOM in units of 10 mV, as the last pass set it (R386, R387) -/
  vcomNow : Nat := 0
  /-- rectangles of the start image that have not been submitted yet (17, log 116) -/
  start : List StartRect := []
  /-- PNL_VCOM and PNL_GAMMA0-7 in force since the start of the last pass (R389) -/
  vcom : Word := 300
  gamma : SMap Word := []
deriving DecidableEq, Repr

/-- Configuration registers by address: the value written, and the value in force (R9). -/
structure Regs where
  written : SMap Word := []
  force : SMap Word := []
deriving DecidableEq, Repr

/-- The state of the module and the queue of waiting commands. -/
structure State where
  pending : List Instr := []
  fixed : FixedSt := {}
  regs : Regs := {}
  le : LeSt := {}
  mem : MemSt := {}
  img : ImgSt := {}
  tick : TickSt := {}
  edit : EditSt := {}
  mon : MonSt := {}
  rfx : RfxSt := {}
  chan : SMap ChanSt := []
  grp : SMap GrpSt := []
  slc : SlcSt := {}
  pair : PairSt := {}
  time : TimeSt := {}
  bus : SMap BusSt := []
  node : SMap NodeSt := []
  ev : EvSt := {}
  cp : CpSt := {}
  fcu : FcuSt := {}
  prot : ProtSt := {}
  wd : WdSt := {}
  nv : NvSt := {}
  btn : BtnSt := {}
  sys : SysSt := {}
  upd : UpdSt := {}
  grd : GrdSt := {}
  pnl : PnlSt := {}
deriving DecidableEq, Repr

/-- The module before its first POWER_UP: module state INIT, role UNDECIDED, every register at its reset value, memory
with nothing listed and no command waiting. -/
def State.reset : State := {}

end Sys2Proof.Machine
end

