-- ==== Sys2Proof/Machine/Hash.lean ====
section
/-! DEFINITION. HMAC-SHA-256, with which the station access key covers tokens and clear requests (R277, R336). SHA-256 and HMAC are the
standards that the spec names (log 94). -/

namespace Sys2Proof.Machine

/-- The round constants of SHA-256. -/
def shaK1 : List Word := [
  0x428A2F98, 0x71374491, 0xB5C0FBCF, 0xE9B5DBA5, 0x3956C25B, 0x59F111F1, 0x923F82A4, 0xAB1C5ED5,
  0xD807AA98, 0x12835B01, 0x243185BE, 0x550C7DC3, 0x72BE5D74, 0x80DEB1FE, 0x9BDC06A7, 0xC19BF174,
  0xE49B69C1, 0xEFBE4786, 0x0FC19DC6, 0x240CA1CC, 0x2DE92C6F, 0x4A7484AA, 0x5CB0A9DC, 0x76F988DA,
  0x983E5152, 0xA831C66D, 0xB00327C8, 0xBF597FC7, 0xC6E00BF3, 0xD5A79147, 0x06CA6351, 0x14292967]
def shaK2 : List Word := [
  0x27B70A85, 0x2E1B2138, 0x4D2C6DFC, 0x53380D13, 0x650A7354, 0x766A0ABB, 0x81C2C92E, 0x92722C85,
  0xA2BFE8A1, 0xA81A664B, 0xC24B8B70, 0xC76C51A3, 0xD192E819, 0xD6990624, 0xF40E3585, 0x106AA070,
  0x19A4C116, 0x1E376C08, 0x2748774C, 0x34B0BCB5, 0x391C0CB3, 0x4ED8AA4A, 0x5B9CCA4F, 0x682E6FF3,
  0x748F82EE, 0x78A5636F, 0x84C87814, 0x8CC70208, 0x90BEFFFA, 0xA4506CEB, 0xBEF9A3F7, 0xC67178F2]

/-- The initial hash value of SHA-256. -/
def shaInit : List Word := [
  0x6A09E667, 0xBB67AE85, 0x3C6EF372, 0xA54FF53A, 0x510E527F, 0x9B05688C, 0x1F83D9AB, 0x5BE0CD19]

/-- The next word of the message schedule, from the last sixteen, oldest first. -/
def shaNext (w : List Word) : Word :=
  let a := w.getD 1 0
  let b := w.getD 14 0
  let s0 := a.rotateRight 7 ^^^ a.rotateRight 18 ^^^ (a >>> 3)
  let s1 := b.rotateRight 17 ^^^ b.rotateRight 19 ^^^ (b >>> 10)
  w.getD 0 0 + s0 + w.getD 9 0 + s1

/-- One round: the eight working words, and the last sixteen words of the message schedule. -/
def shaRound (x : List Word × List Word) (k : Word) : List Word × List Word :=
  let a := x.1.getD 0 0
  let b := x.1.getD 1 0
  let c := x.1.getD 2 0
  let e := x.1.getD 4 0
  let s1 := e.rotateRight 6 ^^^ e.rotateRight 11 ^^^ e.rotateRight 25
  let s0 := a.rotateRight 2 ^^^ a.rotateRight 13 ^^^ a.rotateRight 22
  let t1 := x.1.getD 7 0 + s1 + ((e &&& x.1.getD 5 0) ^^^ (~~~e &&& x.1.getD 6 0)) + k + x.2.getD 0 0
  let t2 := s0 + ((a &&& b) ^^^ (a &&& c) ^^^ (b &&& c))
  ([t1 + t2, a, b, c, x.1.getD 3 0 + t1, e, x.1.getD 5 0, x.1.getD 6 0], x.2.drop 1 ++ [shaNext x.2])

/-- The hash value after one block of sixteen words. -/
def shaBlock (h w : List Word) : List Word :=
  List.zipWith (· + ·) h ((shaK1 ++ shaK2).foldl shaRound (h, w)).1

/-- Words of four bytes, the most significant first. -/
def wordsBE (n : Nat) (l : List Byte) : List Word :=
  (List.range n).map (fun i => l.getD (4 * i) 0 ++ l.getD (4 * i + 1) 0 ++ l.getD (4 * i + 2) 0 ++ l.getD (4 * i + 3) 0)

/-- The `n` bytes of a value, the least significant first, as multi-byte fields are stored. -/
def byteList (n v : Nat) : List Byte := (List.range n).map (fun i => BitVec.ofNat 8 (v / 256 ^ i))

/-- The message with the padding of SHA-256: a 1 bit, zeros, and the length in bits. -/
def shaPad (m : List Byte) : List Byte :=
  m ++ [0x80] ++ List.replicate ((119 - m.length % 64) % 64) 0 ++ (byteList 8 (8 * m.length)).reverse

/-- SHA-256: the eight words of the digest. -/
def sha256 (m : List Byte) : List Word :=
  let p := shaPad m
  let ws := wordsBE (p.length / 4) p
  (List.range (p.length / 64)).foldl (fun h i => shaBlock h ((ws.drop (16 * i)).take 16)) shaInit

/-- The bytes of words, the most significant first. -/
def bytesBE (ws : List Word) : List Byte := ws.flatMap (fun w => (byteList 4 w.toNat).reverse)

/-- HMAC-SHA-256 under a key of 256 bits. -/
def hmac (key : BitVec 256) (m : List Byte) : List Byte :=
  let k := (byteList 32 key.toNat).reverse ++ List.replicate 32 0
  bytesBE (sha256 (k.map (· ^^^ 0x5C) ++ bytesBE (sha256 (k.map (· ^^^ 0x36) ++ m))))

/-- The key that tokens and clear requests are checked under: the station access key, and without one the module's factory access key
(R277, R349). -/
def accessKey (s : State) : BitVec 256 := s.sys.stationKey.getD s.fixed.factoryKey

/-- The MAC `mac` over the bytes `m` verifies (R277, R336). -/
def macVerifies (s : State) (m mac : List Byte) : Bool := decide (mac = hmac (accessKey s) m)

end Sys2Proof.Machine
end

