-- ==== Sys2Proof/Config.lean ====
section
/-! DEFINITION. The values that the spec leaves open, as constants without a body: no proof can see what they are. -/

namespace Sys2Proof

/-- R27: the contents of an L word that nothing has written since RUN was entered are unspecified.
The first argument counts the entries to RUN, the second is the word address (log 20). -/
opaque Config.freeL : Nat → Nat → DWord

/-- R277, R336: the bytes of a nonce that the module draws fresh; the argument counts the draws (log 21). -/
opaque Config.freeNonce : Nat → BitVec 128

/-- R291: whether a tripped channel's switch junction is still above its limit, which only the junction knows; the argument is
256 times the fabric cycle of the question plus the channel (log 22). -/
opaque Config.freeBit : Nat → Bool

/-- R309, R310, R316: a word of a data-flash slot that is torn, or of a sector whose erase was cut short; the argument is the
word's number in the data flash (log 78). -/
opaque Config.freeFlash : Nat → Word

/-- R323, R324: a word of CP flash in a sector whose erase was abandoned, or in a line or sector that did not verify; the argument is its
number from 0x08000000 on (log 97). -/
opaque Config.freeBank : Nat → Word

/-- R260: a word of the boot ROM, whose contents are the manufacturer's; the argument is its number (log 78). -/
opaque Config.bootRom : Nat → Word

/-- R198, R200: the payload length in bytes of a frame whose layout the spec does not give; the argument is its TYPE (log 86). -/
opaque Config.frameLen : Nat → Nat

/-- R200: the payload bytes of an EDIT frame, over which the CRC of EPOCH_END runs; the spec gives no layout (log 86). -/
opaque Config.editBytes : EditMsg → List Byte

/-- R200: the payload bytes of a FORCE frame; the spec gives no layout (log 86). -/
opaque Config.forceBytes : ForceChange → List Byte

/-- R333, R425: whether the backup domain kept its supply while the logic supply was off, which its cell decides; the argument is the fabric
cycle of the power-up (log 121). -/
opaque Config.backupHeld : Nat → Bool

/-- R228: where in 119-127 the receive error counter of a controller comes to stand that was above 127, which the standard leaves to the
controller; the argument is the fabric cycle (log 122). -/
opaque Config.freeRec : Nat → Nat

/-- R385: how long VGL and then VGH take to reach their levels at a power-up of the panel, in fabric cycles, of which the spec gives the upper
bound; the argument is twice the fabric cycle of the power-up, plus 1 for VGH (log 123). -/
opaque Config.panelRise : Nat → Nat

end Sys2Proof
end

