-- ==== Sys2Proof/Machine/SMap.lean ====
section
/-! DEFINITION. The operations on sparse tables. Every table keeps its keys rising and lists no entry that equals what
an unlisted key reads as, so that equal tables are equal data. -/

namespace Sys2Proof.Machine

/-- What key `k` reads as; an unlisted key reads as `d k`. -/
def mget {α : Type} (d : Nat → α) : SMap α → Nat → α
  | [], k => d k
  | (k', v) :: m, k => if k' = k then v else mget d m k

/-- The table after key `k` takes the value `v`. -/
def mput {α : Type} [DecidableEq α] (d : Nat → α) : SMap α → Nat → α → SMap α
  | [], k, v => if v = d k then [] else [(k, v)]
  | (k', v') :: m, k, v =>
    if k < k' then (if v = d k then (k', v') :: m else (k, v) :: (k', v') :: m)
    else if k = k' then (if v = d k then m else (k, v) :: m)
    else (k', v') :: mput d m k v

/-- The table after key `k` takes the value that `f` gives its old one. -/
def mupd {α : Type} [DecidableEq α] (d : Nat → α) (m : SMap α) (k : Nat) (f : α → α) : SMap α :=
  mput d m k (f (mget d m k))

/-- The table in which each key below `n` reads as `f` says, and every other key as `d` says. -/
def mtab {α : Type} [DecidableEq α] (d : Nat → α) (n : Nat) (f : Nat → α) : SMap α :=
  ((List.range n).filter (fun k => decide (f k ≠ d k))).map (fun k => (k, f k))

/-- Each key of the list takes the value that `f` gives it, from the left. -/
def mputs {α : Type} [DecidableEq α] (d : Nat → α) (m : SMap α) (ks : List (Nat × α)) : SMap α :=
  ks.foldl (fun m kv => mput d m kv.1 kv.2) m

/-- Every key of the list is at least `k`, keys rise, and no listed value is the default. -/
def mwfFrom {α : Type} [DecidableEq α] (d : Nat → α) : Nat → SMap α → Bool
  | _, [] => true
  | b, (k, v) :: m => decide (b ≤ k) && decide (v ≠ d k) && mwfFrom d (k + 1) m

/-- The canonical form of a table. -/
def mwf {α : Type} [DecidableEq α] (d : Nat → α) (m : SMap α) : Bool := mwfFrom d 0 m

end Sys2Proof.Machine
end

