-- ==== Sys2Proof/Machine/RegMap.lean ====
section
/-! DEFINITION. The configuration registers of the CP address space (R397): for every address the access class of its
writable fields (R9), the mask of those fields and the reset value, as the register tables of the chapters give them. -/

namespace Sys2Proof.Machine

/-- Access class of the writable fields of a configuration register (R9). -/
inductive RegClass where
  | none | rw | rwl | rwt
deriving DecidableEq, Repr

/-- A configuration register: class, mask of the writable fields, reset value. -/
structure RegInfo where
  cls : RegClass := .none
  mask : Word := 0
  reset : Word := 0
deriving DecidableEq, Repr

/-- The value of `len` bits of `w` from bit `lo`. -/
def fld (w : Word) (lo len : Nat) : Nat := w.toNat / 2 ^ lo % 2 ^ len

/-- Bit `i` of `w`. -/
def fbit (w : Word) (i : Nat) : Bool := w.getLsbD i

/-- A word from a number. -/
def wordOf (n : Nat) : Word := BitVec.ofNat 32 n

/-- A word with `n` at bit `lo`, for joining fields. -/
def at_ (n lo : Nat) : Word := BitVec.ofNat 32 (n * 2 ^ lo)

/-- A number lies in a range. -/
def within (n lo hi : Nat) : Bool := decide (lo ≤ n) && decide (n ≤ hi)

/-- 1 for true. -/
def b2n (b : Bool) : Nat := if b then 1 else 0

def aSYS : Nat := 0x40000000
def aFCU : Nat := 0x40010000
def aWD : Nat := 0x40020000
def aTIME : Nat := 0x40030000
def aNV : Nat := 0x40040000
def aBTN : Nat := 0x40050000
def aPAIR : Nat := 0x40060000
def aGRD : Nat := 0x40070000
def aPNL : Nat := 0x40080000
def aSLC : Nat := 0x40090000
def aLE : Nat := 0x400A0000
def aPROT : Nat := 0x400B0000
def aRFX : Nat := 0x400C0000
def aCH (n : Nat) : Nat := 0x40100000 + 0x40 * n
def aGRP (g : Nat) : Nat := 0x40140000 + 0x20 * g
def aCAN (b : Nat) : Nat := 0x40200000 + 0x1000 * b
def aNODE (k : Nat) : Nat := 0x40210000 + 0x80 * k
def aUART (u : Nat) : Nat := 0x40320000 + 0x100 * u
def aIC : Nat := 0x40340000

/-- LE control, edits, monitor, forces and image routing (03, 04, 10, 18). -/
def leReg (o : Nat) : RegInfo :=
  if o = 0x08 then ⟨.rwl, 0x1FFFF, 10000⟩
  else if o = 0x1C then ⟨.rwl, 0x0F000000, 0x03000000⟩
  else if o = 0x24 then ⟨.rwl, 0x03FFFFFF, 0⟩
  else if o = 0x48 then ⟨.rw, 0x8003FFFF, 0⟩
  else if o = 0x4C then ⟨.rw, 0x0007FFFF, 0⟩
  else if o = 0x50 then ⟨.rw, 0xFFFFFFFF, 0⟩
  else if o = 0x54 then ⟨.rw, 0x07FFFFFF, 0⟩
  else if o = 0x58 then ⟨.rw, 0x7FFFFFFF, 0⟩
  else if o = 0x5C ∨ o = 0x60 then ⟨.rw, 0x1FFFFFFF, 0⟩
  else if o = 0x64 ∨ o = 0x68 then ⟨.rw, 0xFFFFFFFF, 0⟩
  else if o = 0x6C then ⟨.rw, 0x03FFFFFF, 0⟩
  else if o = 0x70 ∨ o = 0x78 then ⟨.rw, 0xFFFFFFFF, 0⟩
  else if o = 0x90 then ⟨.rw, 0x001FFFFF, 0⟩
  else if o = 0x94 then ⟨.rw, 0x000007FF, 0⟩
  else if 0x400 ≤ o ∧ o < 0xC00 ∧ o % 8 = 0 then ⟨.rwt, 0x0000BFFF, 0⟩
  else if 0x400 ≤ o ∧ o < 0xC00 ∧ o % 8 = 4 then ⟨.rwt, 0xFFFFFFFF, 0⟩
  else if 0xC00 ≤ o ∧ o < 0xC44 ∧ o % 4 = 0 then ⟨.rwt, 0xFFFFFFFF, 0⟩
  else {}

/-- The reflex block (05). -/
def rfxReg (o : Nat) : RegInfo :=
  if o = 0 ∨ o = 4 then ⟨.rwt, 0xFFFFFFFF, 0⟩
  else if o = 0x18 then ⟨.rw, 0xF, 0⟩
  else if 0x100 ≤ o ∧ o < 0x200 ∧ o % 4 = 0 then ⟨.rwl, 0xFF0FFF1F, 0⟩
  else if 0x2000 ≤ o ∧ o < 0x4000 ∧ o % 4 = 0 then ⟨.rwl, 0x87FF87FF, 0⟩
  else {}

/-- A channel block (06). -/
def chReg (o : Nat) : RegInfo :=
  if o = 0x00 then ⟨.rwl, 0x7, 0⟩
  else if o = 0x04 then ⟨.rwl, 0x1FFF, 0⟩
  else if o = 0x08 then ⟨.rwl, 0x1FF, 0x114⟩
  else if o = 0x0C then ⟨.rwl, 0x3FF, 0x2C8⟩
  else if o = 0x10 then ⟨.rwl, 0x00FF01FF, 0x00050064⟩
  else if o = 0x34 then ⟨.rw, 0x7F, 0⟩
  else {}

/-- A group block (06). -/
def grpReg (o : Nat) : RegInfo :=
  if o = 0x00 then ⟨.rwl, 0x3FF, 180⟩
  else if o = 0x10 then ⟨.rwl, 0xFFF, 2500⟩
  else {}

/-- The Sluice block (07). -/
def slcReg (o : Nat) : RegInfo :=
  if o = 0x00 then ⟨.rwl, 0xFF, 5⟩
  else if 0x100 ≤ o ∧ o < 0x180 ∧ o % 4 = 0 then ⟨.rwl, 3, 0⟩
  else if 0x1000 ≤ o ∧ o < 0x2000 ∧ o % 4 = 0 then ⟨.rwl, 0xFFFFFFFF, 0⟩
  else {}

/-- The pair block (08). -/
def pairReg (o : Nat) : RegInfo :=
  if o = 0 then ⟨.rwl, 0x007F3FFF, 0x0014220B⟩
  else if 0x40 ≤ o ∧ o < 0x60 ∧ o % 4 = 0 then ⟨.rwl, 0xFFFFFFFF, 0⟩
  else {}

/-- The time unit (09). -/
def timeReg (o : Nat) : RegInfo :=
  if o = 0x08 ∨ o = 0x0C ∨ o = 0x20 then ⟨.rw, 0xFFFFFFFF, 0⟩
  else if o = 0x18 then ⟨.rw, 0xFFFFF, 0⟩
  else if o = 0x1C then ⟨.rwl, 0x3FFFFF1F, 0x14642500⟩
  else {}

/-- A CAN bus block (09). -/
def canReg (o : Nat) : RegInfo :=
  if o = 0x00 then ⟨.rwl, 0x00FF003F, 0x10⟩
  else if o = 0x04 ∨ o = 0x08 then ⟨.rwl, 0x7F7FFFFF, 0⟩
  else if o = 0x14 then ⟨.rwl, 0x1FFFF, 0⟩
  else if o = 0x1C then ⟨.rw, 0x3F, 0⟩
  else if 0x100 ≤ o ∧ o < 0x200 ∧ o % 8 = 0 then ⟨.rw, 0xBFFFFFFF, 0⟩
  else if 0x100 ≤ o ∧ o < 0x200 ∧ o % 8 = 4 then ⟨.rw, 0x1FFFFFFF, 0⟩
  else if 0x400 ≤ o ∧ o < 0x900 ∧ o % 4 = 0 then
    (if (o - 0x400) % 0x50 = 0 then ⟨.rw, 0xFFFFFFFF, 0⟩
     else if (o - 0x400) % 0x50 = 4 then ⟨.rw, 0xF, 0⟩
     else if (o - 0x400) % 0x50 < 0x10 then {}
     else ⟨.rw, 0xFFFFFFFF, 0⟩)
  else {}

/-- A node block (09). -/
def nodeReg (o : Nat) : RegInfo :=
  if o = 0x00 then ⟨.rwl, 0xFFFF7FFF, 0x03006000⟩
  else if o = 0x04 then ⟨.rwl, 0x1FFFF, 0⟩
  else if o = 0x08 then ⟨.rwl, 0x7FFFFFFF, 0x020A0000⟩
  else if o = 0x0C ∨ o = 0x10 then ⟨.rwl, 0x3FFFFFFF, 0⟩
  else {}

/-- A UART block (10). RADIO reads 0 on U2 and U3; TERM belongs to U2 and U3 only. -/
def uartReg (u o : Nat) : RegInfo :=
  if o = 0x00 then ⟨.rw, if u < 2 then 0x3DFF else 0x3FBF, 0⟩
  else if o = 0x04 then ⟨.rw, 0x3FFFF, 9600⟩
  else if o = 0x08 then ⟨.rw, 0xFFFFF, 0x10000⟩
  else if o = 0x0C then ⟨.rw, 0xFFFFFFFF, 0x03E83C64⟩
  else if o = 0x1C then ⟨.rw, 3, 0⟩
  else {}

/-- The NV block (12). -/
def nvReg (o : Nat) : RegInfo :=
  if o = 0x00 then ⟨.rw, 1, 0⟩
  else if o = 0x08 then ⟨.rw, 0x1F1FFFFF, 0⟩
  else if 0x0C ≤ o ∧ o < 0x20 ∧ o % 4 = 0 then ⟨.rw, 0xFFFFFFFF, 0⟩
  else if o = 0x60 then ⟨.rw, 0xFFFF, 0xFFFF⟩
  else if o = 0x64 then ⟨.rwl, 0x1FFF, 60⟩
  else if o = 0x80 then ⟨.rw, 0x7FFFFF, 0⟩
  else if 0xA0 ≤ o ∧ o < 0xC0 ∧ o % 4 = 0 then ⟨.rw, 0xFFFFFFFF, 0⟩
  else {}

/-- The panel block (17). -/
def pnlReg (o : Nat) : RegInfo :=
  if o = 0x00 then ⟨.rw, 1, 0⟩
  else if o = 0x08 then ⟨.rw, 0x37F, 0x78⟩
  else if o = 0x0C then ⟨.rw, 0x01FF01FF, 300⟩
  else if 0x10 ≤ o ∧ o < 0x30 ∧ o % 4 = 0 then
    ⟨.rw, 0x01FF01FF, wordOf (10 * (o - 0x10) + (10 * (o - 0x10) + 20) * 65536)⟩
  else if o = 0x40 then ⟨.rw, 0xFFFF, 0⟩
  else if o = 0x44 then ⟨.rw, 0x00FF01FF, 0⟩
  else if o = 0x48 then ⟨.rw, 0xFFFFFFFF, 0⟩
  else if o = 0x4C then ⟨.rw, 0xFFFF, 0⟩
  else if 0x80 ≤ o ∧ o < 0x100 ∧ o % 16 = 0 then ⟨.rw, 0xFFFF, 0⟩
  else if 0x80 ≤ o ∧ o < 0x100 ∧ o % 16 = 4 then ⟨.rw, 0x00FF01FF, 0⟩
  else if 0x80 ≤ o ∧ o < 0x100 ∧ o % 16 = 8 then ⟨.rw, 0xF3, 0⟩
  else {}

/-- The watchdog block (11). -/
def wdReg (o : Nat) : RegInfo :=
  if o < 0x20 ∧ o % 4 = 0 then ⟨.rwl, 0xFF01, 0x100⟩
  else if o = 0x40 then ⟨.rw, 0xFFFF, 2000⟩
  else if o = 0x50 then ⟨.rw, 0xFFFF00FF, 0x0E100002⟩
  else {}

/-- The protection block (11). -/
def protReg (o : Nat) : RegInfo :=
  if o = 0 then ⟨.rwl, 0x7F, 0⟩
  else if 0x100 ≤ o ∧ o < 0x800 ∧ (o % 16 = 0 ∨ o % 16 = 4) then ⟨.rwl, 0xFFFFFFFF, 0⟩
  else if 0x100 ≤ o ∧ o < 0x800 ∧ o % 16 = 8 then ⟨.rwl, 7, 0⟩
  else {}

/-- The configuration register at an address of the CP address space; class `none` where there is none. -/
def regInfo (a : Nat) : RegInfo :=
  if a < 0x40000000 then {}
  else if a < 0x40010000 then (if a = aSYS + 0x14 then ⟨.rw, 0x3E, 0x02⟩ else {})
  else if a < 0x40020000 then
    (if aFCU + 0x100 ≤ a ∧ a < aFCU + 0x188 ∧ a % 4 = 0 then ⟨.rwl, 0xFFFFFFFF, 0⟩ else {})
  else if a < 0x40030000 then wdReg (a - aWD)
  else if a < 0x40040000 then timeReg (a - aTIME)
  else if a < 0x40050000 then nvReg (a - aNV)
  else if a < 0x40060000 then (if a = aBTN then ⟨.rw, 2, 0⟩ else {})
  else if a < 0x40070000 then pairReg (a - aPAIR)
  else if a < 0x40080000 then {}
  else if a < 0x40090000 then pnlReg (a - aPNL)
  else if a < 0x400A0000 then slcReg (a - aSLC)
  else if a < 0x400B0000 then leReg (a - aLE)
  else if a < 0x400C0000 then protReg (a - aPROT)
  else if a < 0x400D0000 then rfxReg (a - aRFX)
  else if a < 0x40100000 then {}
  else if a < 0x40104000 then chReg ((a - 0x40100000) % 0x40)
  else if a < 0x40140000 then {}
  else if a < 0x40140400 then grpReg ((a - 0x40140000) % 0x20)
  else if a < 0x40200000 then {}
  else if a < 0x40204000 then canReg ((a - 0x40200000) % 0x1000)
  else if a < 0x40210000 then {}
  else if a < 0x40214800 then nodeReg ((a - 0x40210000) % 0x80)
  else if a < 0x40320000 then {}
  else if a < 0x40320400 then uartReg ((a - 0x40320000) / 0x100) ((a - 0x40320000) % 0x100)
  else if a < 0x40340000 then {}
  else if a < 0x40350000 then
    (if a < aIC + 4 * 544 ∧ a % 4 = 0 then ⟨.rw, 0x7F, 0⟩ else if a = aIC + 0xA08 then ⟨.rw, 0xF, 0⟩ else {})
  else {}

/-- The reset value of the configuration register at an address. -/
def regReset (a : Nat) : Word := (regInfo a).reset

/-- The value in force at an address (R9). -/
def force (s : State) (a : Nat) : Word := mget regReset s.regs.force a

/-- The value last written at an address (R9). -/
def written (s : State) (a : Nat) : Word := mget regReset s.regs.written a

/-- A configuration register takes a value that is in force at once. -/
def regPut (s : State) (a : Nat) (v : Word) : State :=
  { s with regs := { written := mput regReset s.regs.written a v, force := mput regReset s.regs.force a v } }

/-- A configuration register takes a value that waits for a tick boundary (RWT, RWL). -/
def regStage (s : State) (a : Nat) (v : Word) : State :=
  { s with regs := { s.regs with written := mput regReset s.regs.written a v } }

/-- R9: at a tick boundary the written values take effect. -/
def regLatch (s : State) : State := { s with regs := { s.regs with force := s.regs.written } }

end Sys2Proof.Machine
end

