-- ==== Sys2Proof/Machine/Ops.lean ====
section
/-! DEFINITION. The shared operations of the module: presence of units, event firing, notices, fault recording, channel
tags, reflex equations, the order of output commands, Sluice starts and the fatal reaction. -/

namespace Sys2Proof.Machine

/-- What a command answers. -/
abbrev Out := Host.Outcome State Fault Refusal

/-- `n` kept at or below `m`. -/
def satN (m n : Nat) : Nat := if m < n then m else n

/-- Adds an element that is not yet in the list. -/
def addNew {α : Type} [DecidableEq α] (x : α) (xs : List α) : List α := if x ∈ xs then xs else xs ++ [x]

/-! ### Presence of units (R1-R8) -/

/-- SYS_CAPS.GROUPS. -/
def nGroups (s : State) : Nat := if s.fixed.variant = 3 then 16 else 32
/-- Number of channels. -/
def nCh (s : State) : Nat := 8 * nGroups s
/-- Number of CAN buses. -/
def nBus (s : State) : Nat := if s.fixed.variant = 1 then 4 else 2
/-- SYS_CAPS.NODES. -/
def nNodes (s : State) : Nat := if s.fixed.variant = 1 then 144 else 72
/-- SYS_CAPS.TWIN. -/
def hasTwin (s : State) : Bool := decide (s.fixed.variant ≠ 3)
/-- SYS_CAPS.PANEL. -/
def hasPanel (s : State) : Bool := decide (s.fixed.variant = 1)

/-- An event source that exists in this variant (R4, R401-R403). -/
def srcPresent (s : State) (n : Nat) : Bool :=
  if n < 256 then decide (n < nCh s)
  else if n < 400 then decide (n - 256 < nNodes s)
  else if n < 416 then decide ((n - 400) / 4 < nBus s)
  else if n < 432 then true
  else if n < 440 then hasTwin s
  else if n < 472 then decide (n - 440 < nGroups s)
  else if n < 478 then true
  else if n < 480 then false
  else if n < 497 then (if n = 491 then hasPanel s else true)
  else if n < 504 then false
  else decide (n < 542)

/-- The state of channel `n`. -/
def ch (s : State) (n : Nat) : ChanSt := mget (fun _ => {}) s.chan n
/-- The state of group `g`. -/
def gr (s : State) (g : Nat) : GrpSt := mget (fun _ => {}) s.grp g
/-- The sequencer of group `g`. -/
def sg (s : State) (g : Nat) : SlcGrp := mget (fun _ => {}) s.slc.grp g
/-- The state of bus `b`. -/
def bu (s : State) (b : Nat) : BusSt := mget (fun _ => {}) s.bus b
/-- The state of node `k`. -/
def nd (s : State) (k : Nat) : NodeSt := mget (fun _ => {}) s.node k

def chPut (s : State) (n : Nat) (c : ChanSt) : State := { s with chan := mput (fun _ => {}) s.chan n c }
def grPut (s : State) (g : Nat) (c : GrpSt) : State := { s with grp := mput (fun _ => {}) s.grp g c }
def sgPut (s : State) (g : Nat) (c : SlcGrp) : State :=
  { s with slc := { s.slc with grp := mput (fun _ => {}) s.slc.grp g c } }
def buPut (s : State) (b : Nat) (c : BusSt) : State := { s with bus := mput (fun _ => {}) s.bus b c }
def ndPut (s : State) (k : Nat) (c : NodeSt) : State := { s with node := mput (fun _ => {}) s.node k c }

/-- The channel register at offset `o`, as in force; 0 for an absent channel (R3). -/
def chCfg (s : State) (n o : Nat) : Word := if n < nCh s then force s (aCH n + o) else 0
/-- The node register at offset `o`, as in force; 0 for an absent node. -/
def nodeCfg (s : State) (k o : Nat) : Word := if k < nNodes s then force s (aNODE k + o) else 0
/-- The bus register at offset `o`, as in force; 0 for an absent bus. -/
def canCfg (s : State) (b o : Nat) : Word := if b < nBus s then force s (aCAN b + o) else 0

/-! ### Events (R267, R269, R408) -/

/-- A tick boundary is due. -/
def boundaryDue (s : State) : Bool :=
  s.sys.powered && !s.sys.inReset && (s.tick.on || s.tick.goAt.isSome) && decide (s.pair.mstate ≠ .init) && decide (s.pair.mstate ≠ .sleep)
    && decide (s.tick.next ≤ s.time.ns)

/-- Number of the latch that comes next. -/
def nextLatch (s : State) : Nat := if s.tick.on then s.tick.num + 1 else 0

/-- Number of the latch that first shows a firing: the one whose instant follows, so that a firing in the fabric cycle of a latch, though
before it in the cycle's order (log 51), belongs to the latch after it (R408). -/
def firstShown (s : State) : Nat := if boundaryDue s then nextLatch s + 1 else nextLatch s

/-- IC_SRC_CFG of a source. -/
def icCfg (s : State) (src : Nat) : Word := force s (aIC + 4 * src)

/-- The source is routed to the image (R407). -/
def imgRouted (s : State) (src : Nat) : Bool := fbit (force s (aLE + 0xC00 + 4 * (src / 32))) (src % 32)

/-- Event source `src` fires with a stamp in ns: it becomes pending, writes a queue entry where QEN is set, and reaches
the image where it is routed. Reserved and absent sources never fire (R4, R403). -/
def fire (src stamp : Nat) (s : State) : State :=
  let ok := srcPresent s src
  let c := icCfg s src
  let e : QEntry := { src := BitVec.ofNat 10 src, stamp := stamp }
  let q0 := ok && fbit c 5 && !fbit c 6
  let q1 := ok && fbit c 5 && fbit c 6
  { s with
    ev := { s.ev with
      pend := if ok then addNew (BitVec.ofNat 10 src) s.ev.pend else s.ev.pend
      q0 := if q0 && decide (s.ev.q0.length < 512) then s.ev.q0 ++ [e] else s.ev.q0
      lost0 := if q0 && !decide (s.ev.q0.length < 512) then satN 1023 (s.ev.lost0 + 1) else s.ev.lost0
      q1 := if q1 && decide (s.ev.q1.length < 512) then s.ev.q1 ++ [e] else s.ev.q1
      lost1 := if q1 && !decide (s.ev.q1.length < 512) then satN 1023 (s.ev.lost1 + 1) else s.ev.lost1 }
    img := { s.img with
      fired := if ok && imgRouted s src then addNew (BitVec.ofNat 10 src, firstShown s) s.img.fired
        else s.img.fired } }

/-- The source fires, stamped now, where `c` holds. -/
def fireIf (c : Bool) (src : Nat) (s : State) : State := if c then fire src s.time.ns s else s

/-- The listed sources fire in order, each with its stamp. -/
def fires (l : List (Nat × Nat)) (s : State) : State := l.foldl (fun s e => fire e.1 e.2 s) s

/-! ### Notices (R328-R333, R338) -/

/-- The newest notice of the ring. -/
def newestNotice (s : State) : Option Notice :=
  if s.btn.ever then mget (fun _ => none) s.btn.ring (s.btn.serial.toNat % 256) else none

/-- Notices that are queued as critical records at once (R331). -/
def critKind (k : Nat) : Bool := k = 0x0E || k = 0x01 || k = 0x10

/-- The sector is HEAD, TWIN or CLOSED. -/
def secLive (x : Sector) : Bool := !x.retired && !x.erased && !x.reclaimed && decide (x.role ≠ 0)

/-- A key of a record (R309). -/
def keyOk (k : BitVec 16) : Bool := decide (k ≠ 0) && decide (k ≠ 0xFFFF)

/-- The valid records of the store. -/
def validRecs (s : State) : List Rec :=
  s.nv.sectors.flatMap (fun p => if secLive p.2 then
    (p.2.slots.filterMap id).filter (fun r => keyOk r.key && decide (r.len ≤ 20)) else [])

/-- The entries of the index. -/
def entries (s : State) : List (BitVec 16 × BitVec 4) := (validRecs s).foldl (fun l r => addNew (r.key, r.fmt) l) []

/-- The entries of the index together with those that waiting records will create (R311). -/
def entriesDue (s : State) : List (BitVec 16 × BitVec 4) :=
  (s.nv.queue ++ (s.nv.cur.map (·.1)).toList).foldl (fun l q => addNew (q.key, q.fmt) l) (entries s)

/-- The requests are for the same entry (R311). -/
def sameEntry (r q : NvReq) : Bool := decide (q.key = r.key) && decide (q.fmt = r.fmt)

/-- A waiting record of the entry of `r` gives way to it in its place, critical where either is. -/
def reqPut (r : NvReq) (l : List NvReq) : List NvReq :=
  l.map (fun q => if sameEntry r q then { r with crit := r.crit || q.crit } else q)

/-- A record joins the queue of the NV controller and takes the next sequence number; a queued record of its entry is replaced in its
place (R312, R314). A record of the module's own that finds the queue full is asked for again as it drains; one that would create an entry
too many is refused (R311, log 120). Before the mount none is taken (R318). -/
def nvEnqueue (r : NvReq) (s : State) : State :=
  let r' : NvReq := { r with seq := s.nv.nextSeq }
  if !s.nv.mounted then s
  else if s.nv.queue.any (sameEntry r) then { s with nv := { s.nv with queue := reqPut r' s.nv.queue, nextSeq := s.nv.nextSeq + 1 } }
  else if 64 ≤ s.nv.queue.length then
    { s with nv := { s.nv with waiting := if s.nv.waiting.any (sameEntry r) then reqPut r s.nv.waiting else s.nv.waiting ++ [r] } }
  else if (r.key, r.fmt) ∉ entriesDue s ∧ 2048 ≤ (entriesDue s).length then s
  else { s with nv := { s.nv with
    queue := s.nv.queue ++ [{ r' with crit := r.crit || s.nv.waiting.any (fun q => sameEntry r q && q.crit) }]
    waiting := s.nv.waiting.filter (fun q => !sameEntry r q), nextSeq := s.nv.nextSeq + 1 } }

/-- The format of the records that the running set writes: that of a new set from its activation on (R367). -/
def ownFmt (s : State) : BitVec 4 :=
  if s.upd.phase = .probation ∨ s.upd.phase = .fallingBack then s.upd.fmtNew else s.upd.fmtOld

/-- A changed notice in slot `r` is of a critical kind. -/
def critSlot (s : State) (r : Nat) : Bool :=
  s.btn.dirty.contains r && ((mget (fun _ => none) s.btn.ring r).any (fun n => critKind n.kind.toNat))

/-- The record that keeps notice slots `r` and its neighbour, critical while one of them is (R331); the layout of Bittern records is
internal to the vendor base (log 31). -/
def noticeRec (s : State) (r : Nat) : NvReq := {
  key := BitVec.ofNat 16 (0x0040 + r / 2), fmt := ownFmt s, crit := critSlot s (2 * (r / 2)) || critSlot s (2 * (r / 2) + 1)
  data := [BitVec.ofNat 8 (r / 2)], seq := 0 }

/-- The log's copies of the counts of R306 (R325). -/
def wdCopied (s : State) : State :=
  { s with btn := { s.btn with wdCopy := [s.wd.nCp, s.wd.nBackup, s.wd.nTask, s.wd.nClock, s.wd.nFatal] } }

/-- The notice `n` enters the restored ring. -/
def ringPut (n : Notice) (s : State) : State :=
  let merge := match newestNotice s with
    | some m => m.kind = n.kind && m.src = n.src && m.reason = n.reason && n.kind ≠ 0x0E
    | none => false
  let old := (newestNotice s).getD n
  let serial := if merge then s.btn.serial else if s.btn.ever then s.btn.serial + 1 else 0
  let slot := serial.toNat % 256
  let new : Notice := if merge then
      { old with rep := satN 0xFFFF (old.rep + 1), lastMin := n.lastMin, lastPc := n.lastPc, detail := n.detail }
    else { n with serial := serial }
  let s1 := { s with btn := { s.btn with
    ring := mput (fun _ => none) s.btn.ring slot (some new)
    serial := serial, ever := true, dirty := addNew slot s.btn.dirty } }
  let s2 := if critKind n.kind.toNat then nvEnqueue (noticeRec s1 slot) s1 else s1
  fireIf (!merge && fbit (force s aBTN) 1) 492 s2

/-- A notice is written; before the log is restored it waits in a queue of 16 (R333). -/
def notice (kind src reason : Nat) (detail : Word) (s : State) : State :=
  let n : Notice := {
    kind := BitVec.ofNat 8 kind, src := BitVec.ofNat 10 src, reason := BitVec.ofNat 6 reason,
    detail := detail, rep := 0, firstMin := s.btn.opMin, firstPc := s.btn.pcycle, lastMin := s.btn.opMin,
    lastPc := s.btn.pcycle, serial := 0 }
  if s.btn.restored then ringPut n s
  else { s with btn := { s.btn with
    early := if s.btn.early.length < 16 then s.btn.early ++ [n] else s.btn.early
    earlyLost := if s.btn.early.length < 16 then s.btn.earlyLost else s.btn.earlyLost + 1 } }

/-- SOURCE of a notice that no event source applies to. -/
def noSrc : Nat := 0x3FF

/-- The notice is written where `c` holds. -/
def noticeIf (c : Bool) (kind src reason : Nat) (detail : Word) (s : State) : State :=
  if c then notice kind src reason detail s else s

/-- The notice of KIND GRADUATION is written where `c` holds; it fires the Graduation source (R379). -/
def gradNotice (c : Bool) (reason : Nat) (detail : Word) (s : State) : State :=
  if c then fire 490 s.time.ns (notice 0x0C 490 reason detail s) else s

/-! ### Fault recording (R284, R288-R290) -/

/-- The captured fault `c` gives way to a fault of the same fabric cycle that ranks before it (R289). -/
def outranks (s : State) (c : Capture) (src reason cls : Nat) : Bool :=
  c.valid && c.cyc = s.time.cyc &&
    (decide (c.cls.toNat < cls) ||
     (decide (c.cls.toNat = cls) && (decide (src < c.src.toNat) ||
       (decide (src = c.src.toNat) && decide (reason < c.reason.toNat)))))

/-- The capture of a fault now. -/
def mkCapture (s : State) (src reason cls : Nat) : Capture :=
  { src := BitVec.ofNat 10 src, reason := BitVec.ofNat 6 reason, cls := BitVec.ofNat 2 cls, valid := true,
    time := s.time.ns, tick := BitVec.ofNat 32 s.tick.num, timeHi := s.fcu.first.timeHi, cyc := s.time.cyc
    cause := if src < 256 then (ch s src).cause else 0 }

/-- The FCU records a corrected fault: counted, and source 536 at most once per second (R284). -/
def corrected (s : State) : State :=
  let sec := s.time.ns / 1000000000
  let s1 := { s with
    fcu := { s.fcu with corrected := satN 0xFFFFFFFF (s.fcu.corrected + 1) },
    ev := { s.ev with corrSec := some sec } }
  fireIf (decide (s.ev.corrSec ≠ some sec)) 536 s1

/-- The FCU records a contained (1), fatal (2) or self (3) fault: counts, captures, and the source of the class. -/
def fcuRecord (src reason cls : Nat) (s : State) : State :=
  let f := s.fcu
  let take1 := !f.first.valid || outranks s f.first src reason cls
  let take2 := decide (2 ≤ cls) && (!f.fatal.valid || outranks s f.fatal src reason cls)
  let miss := f.first.valid
  let s1 := { s with
                   fcu := { f with
    first := if take1 then mkCapture s src reason cls else f.first
    fatal := if take2 then { mkCapture s src reason cls with timeHi := f.fatal.timeHi } else f.fatal
    overflow := if miss then satN 0xFFFF (f.overflow + 1) else f.overflow
    contained := if cls = 1 then satN 0xFFFF (f.contained + 1) else f.contained
    fatalCount := if 2 ≤ cls then satN 0xFFFF (f.fatalCount + 1) else f.fatalCount
    fatalNow := f.fatalNow || decide (cls = 2) }
                   upd := { s.upd with
    fatalCyc := if 2 ≤ cls then s.time.cyc else s.upd.fatalCyc
    healthCyc := if 2 ≤ cls then s.time.cyc else s.upd.healthCyc } }
  fireIf (miss && decide (f.overflow = 0)) 539
    (fire (if cls = 1 then 537 else if cls = 2 then 538 else 541) s.time.ns s1)

/-- A failure of the conditions of R365: the 60 s of a probation start again. -/
def unhealthy (s : State) : State := { s with upd := { s.upd with healthCyc := s.time.cyc } }

/-- Parts of an update set are being staged, or the set has not been confirmed, dropped or fallen back (R360). -/
def updBusy (s : State) : Bool := s.upd.busy

/-- FCU_REACT of a source: 0 RECORD, 1 NOTICE, 2 ESCALATE (R287). -/
def fcuReact (s : State) (src : Nat) : Nat := fld (force s (aFCU + 0x100 + 4 * (src / 16))) (2 * (src % 16)) 2

/-- LE cycles of the slice of one period at the floor clock, for PERIOD_US as written (R98, R99, R115). -/
def sliceFloor (s : State) : Nat := (fld (written s (aLE + 8)) 0 17 - 12) * 360

/-! ### Channels: modes, tags, reported state (R23, R30, R31, R143, R144) -/

def tagGOOD : Tag := 0
def tagFORCED : Tag := 1
def tagSUBST : Tag := 2
def tagSETTLING : Tag := 4
def tagLATE : Tag := 5
def tagSTALE : Tag := 6
def tagCALOVERDUE : Tag := 7
def tagWIREBREAK : Tag := 8
def tagOVERLOAD : Tag := 9
def tagMEMORY : Tag := 10
def tagCOMMSLOST : Tag := 11
def tagABSENT : Tag := 12
def tagUNCONF : Tag := 13

/-- The class of a tag: 0 good, 1 uncertain, 2 bad, 3 not present (R22). -/
def tagClass (t : Tag) : Nat := t.toNat / 4

/-- The tag is a reserved code (R22). -/
def tagReserved (t : Tag) : Bool := decide (14 ≤ t.toNat)

/-- The highest class, with the reason of the first operand of that class (R23). -/
def tag2 (a b : Tag) : Tag := if tagClass a < tagClass b then b else a

/-- The worst tag of a list, ranked by R23. -/
def tagWorst (l : List Tag) : Tag :=
  match l with
  | [] => 0
  | x :: r => r.foldl tag2 x

/-- CH_MODE in force. -/
def chModeReg (s : State) (n : Nat) : Nat := fld (chCfg s n 0) 0 3

/-- R144: the settings in force do not go together. -/
def chCfgErr (s : State) (n : Nat) : Bool :=
  let m := chModeReg s n
  let w := chCfg s n 8
  let per := fld w 1 7
  let thr := fld (chCfg s n 0xC) 0 9
  let out := chCfg s n 0x10
  decide (6 ≤ m)
  || (fbit w 0 && decide (m ≠ 1) && decide (m ≠ 2))
  || (fbit w 0 && (decide (m = 1) || decide (m = 2)) && (decide (per < 1) || decide (100 < per)))
  || (decide (m = 3) && !fbit (chCfg s n 0xC) 9 && (decide (thr < 200) || decide (300 < thr)))
  || ((decide (m = 4) || decide (m = 5)) && decide (fld out 1 8 = 0))
  || (decide (m = 5) && decide (fld out 16 8 = 0))

/-- The mode that the channel runs in; a bad combination behaves as UNCONFIGURED (R144). -/
def chMode (s : State) (n : Nat) : Nat := if chCfgErr s n then 0 else chModeReg s n

/-- The channel is an output (mode 4 or 5). -/
def isOut (s : State) (n : Nat) : Bool := chMode s n = 4 || chMode s n = 5

/-- Debounce D in µs (R148); 0 in plain OUTPUT. -/
def chDeb (s : State) (n : Nat) : Nat :=
  let w := chCfg s n 4
  if chMode s n = 4 then 0 else fld w 0 12 * (if fbit w 12 then 16 else 1)

/-- Pulsed wetting is in force. -/
def chPulsed (s : State) (n : Nat) : Bool := fbit (chCfg s n 8) 0

/-- The channel's calibration is overdue (R166). -/
def calOver (s : State) (n : Nat) : Bool :=
  let m := chMode s n
  (m = 1 || m = 2 || m = 3 || m = 5) && (ch s n).calOverdue

/-- The tag under R31 with forcing left out (COND_TAG). -/
def chCondTag (s : State) (n : Nat) : Tag :=
  if nCh s ≤ n then tagABSENT
  else if chMode s n = 0 then tagUNCONF
  else if chMode s n = 3 ∧ (ch s n).wb then tagWIREBREAK
  else if isOut s n ∧ (ch s n).trip then tagOVERLOAD
  else if 0 < (ch s n).settleLeft then tagSETTLING
  else if calOver s n then tagCALOVERDUE
  else tagGOOD

/-- The debounced state that the image, the reflex unit and WAITIN see (R30, R128, R152). DESIGN CHOICE (log 111): the state of a plain
output is its drive at once; that R30 takes it at the 1 MHz strobe stands in the stamp of its edge alone. -/
def chState (s : State) (n : Nat) : Bool :=
  let c := ch s n
  let m := chMode s n
  if m = 0 then false else if m = 4 then c.drive else if m = 3 then c.filt && !c.wb else c.filt

/-! ### Reflex equations (R126-R130) -/

/-- The tick runs in this module state (R21). -/
def tickRuns (s : State) : Bool :=
  s.tick.on && !s.sys.inReset && decide (s.pair.mstate ≠ .init) && decide (s.pair.mstate ≠ .sleep)

/-- The module is in RUN. -/
def inRun (s : State) : Bool := decide (s.pair.mstate = .run)

/-- A group is configured when a channel of it has a mode other than UNCONFIGURED in CH_MODE (R167). -/
def grpConfigured (s : State) (g : Nat) : Bool :=
  (List.range 8).any (fun i => decide (chModeReg s (8 * g + i) ≠ 0))

/-- TOKEN_IN as the module heeds it: not in role SOLO (R192). -/
def tokenSeen (s : State) : Bool := hasTwin s && s.pair.tokenIn && decide (s.pair.role ≠ .solo)

/-- System signal `k` of R129. -/
def sysSignal (s : State) (k : Nat) : Bool :=
  match k with
  | 0 => true
  | 1 => tokenSeen s
  | 2 => inRun s
  | 3 => decide (s.pair.mstate = .safe)
  | 4 => decide (s.pair.mstate = .hold)
  | 5 => inRun s && s.tick.commitMissed
  | 6 => s.fcu.fatalNow
  | 7 => s.cp.down
  | 8 => s.sys.supplyLow
  | 9 => hasTwin s && !s.pair.lane0.up && !s.pair.lane1.up
  | 10 => (List.range (nGroups s)).any (fun g => grpConfigured s g && (gr s g).low)
  | 11 => s.time.valid
  | 12 | 13 | 14 | 15 => fbit (force s (aRFX + 0x18)) (k - 12)
  | _ => false

/-- The half word of literal `l` of term `t` of equation `e`. -/
def rfxLit (s : State) (e t l : Nat) : Nat :=
  fld (force s (aRFX + 0x2000 + 128 * e + 16 * t + 4 * (l / 2))) (16 * (l % 2)) 16

/-- The value of a literal (R128). -/
def litValue (s : State) (w : Nat) : Bool :=
  let src := w % 512
  let neg := w / 512 % 2 = 1
  let badv := w / 1024 % 2 = 1
  if src < 256 then
    if 2 ≤ tagClass (chCondTag s src) then badv else (chState s src != neg)
  else (sysSignal s (src - 256) != neg)

/-- The condition of equation `e` (R127). -/
def rfxCondition (s : State) (e : Nat) : Bool :=
  let cfg := force s (aRFX + 0x100 + 4 * e)
  (List.range 8).any (fun t => fbit cfg (24 + t) &&
    (List.range 8).all (fun l => let w := rfxLit s e t l; decide (w < 0x8000) || litValue s w))

/-- The equation is enabled. -/
def rfxEn (s : State) (e : Nat) : Bool := fbit (force s (aRFX + 4 * (e / 32))) (e % 32)

/-- The equation is latched. -/
def rfxLatched (s : State) (e : Nat) : Bool := fbit (force s (aRFX + 0x100 + 4 * e)) 18

/-- Sets bit `i` of a 64-bit map. -/
def setBit64 (v : BitVec 64) (i : Nat) (b : Bool) : BitVec 64 :=
  if b then v ||| (1#64 <<< i) else v &&& ~~~(1#64 <<< i)

/-- A 64-bit map from a test of each bit. -/
def bits64 (f : Nat → Bool) : BitVec 64 := (List.range 64).foldl (fun v i => setBit64 v i (f i)) 0

/-- A 32-bit map from a test of each bit. -/
def bits32 (f : Nat → Bool) : Word :=
  (List.range 32).foldl (fun v i => if f i then v ||| (1#32 <<< i) else v) 0

/-- The trips that one evaluation brings: equations whose condition (transparent) or latch (latched) rises. -/
def rfxTrips (s : State) (cond latch : BitVec 64) : List Nat :=
  (List.range 64).filter (fun e =>
    if rfxLatched s e then latch.getLsbD e && !s.rfx.latch.getLsbD e
    else cond.getLsbD e && !s.rfx.cond.getLsbD e)

/-- One trip is reported (R141). -/
def rfxReport (s : State) (e : Nat) : State :=
  let cfg := force s (aRFX + 0x100 + 4 * e)
  let g := fld cfg 0 5
  let s1 := { s with rfx := { s.rfx with
    trips := mput (fun _ => 0) s.rfx.trips e (satN 0xFFFF (mget (fun _ => 0) s.rfx.trips e + 1))
    lastEq := BitVec.ofNat 6 e, lastValid := true, lastTime := s.time.ns } }
  noticeIf (fbit cfg 18) 0x07 (440 + g) 0 (wordOf e) (fireIf (fbit cfg 19) (440 + g) s1)

/-- The equations are evaluated, latches follow R131, actions begin (R134) and trips are reported. DESIGN CHOICE (log 110): equations
that trip in one fabric cycle are reported in rising order, so that RFX_LAST names the highest of them. -/
def rfxEval (s : State) : State :=
  let run := tickRuns s
  let cond := bits64 (fun e => run && rfxEn s e && rfxCondition s e)
  let latch := bits64 (fun e => rfxLatched s e && (s.rfx.latch.getLsbD e || cond.getLsbD e))
  let stand := s.rfx.stand ||| cond ||| latch
  let s1 := { s with rfx := { s.rfx with cond := cond, latch := latch, stand := stand } }
  (rfxTrips s cond latch).foldl rfxReport s1

/-- R135: at T0 + 2 µs an action ends whose equation has neither a true condition nor a set latch. -/
def rfxEndActions (s : State) : State :=
  { s with rfx := { s.rfx with stand := s.rfx.cond ||| s.rfx.latch } }

/-- The equations whose action `act` stands, each with its target group and mask. -/
def standing (s : State) (act : Nat) : List (Nat × Nat) :=
  ((List.range 64).filter (fun e => s.rfx.stand.getLsbD e && fld (force s (aRFX + 0x100 + 4 * e)) 16 2 = act)).map
    (fun e => (fld (force s (aRFX + 0x100 + 4 * e)) 0 5, fld (force s (aRFX + 0x100 + 4 * e)) 8 8))

/-- The listed actions target channel `n`. -/
def targets (l : List (Nat × Nat)) (n : Nat) : Bool := l.any (fun e => e.1 = n / 8 && e.2.testBit (n % 8))

/-! ### The order of output commands (R133) -/

/-- Line 1 of R133 for channel `n`, with the release of R213 and R222, and a group without L+, which powers its output stages (R142,
R145; log 89). -/
def outOff (s : State) (n : Nat) : Bool :=
  let m := s.pair.mstate
  (gr s (n / 8)).hardOff || (gr s (n / 8)).lost || s.sys.supplyLost || !s.sys.powered || s.pair.released
  || decide (m = .init) || decide (m = .sleep) || decide (m = .ready) || decide (m = .shadow)
  || (decide (m = .safe) && (decide (s.pair.role = .standby) || decide (s.pair.role = .undecided)))

/-- An INHIBIT action holds channel `n` OFF from a committed OFF under it until it ends (R130). -/
def inhHeld (s : State) (inh : List (Nat × Nat)) (n : Nat) : Bool := targets inh n && ((ch s n).held || !(ch s n).cmd)

/-- Lines 6 and 7 of R133: the committed command, held off by a start inhibit where the output is OFF or held OFF (R130). -/
def cmd67 (s : State) (inh : List (Nat × Nat)) (n : Nat) : Bool :=
  (ch s n).cmd && !inhHeld s inh n && (!targets inh n || (ch s n).drive)

/-- The command that reaches the output stage of channel `n`. -/
def outCmd (s : State) (off on inh : List (Nat × Nat)) (n : Nat) : Bool :=
  let c := ch s n
  if outOff s n then false
  else if c.trip then false
  else if targets off n then false
  else if targets on n then true
  else if (sg s (n / 8)).phase ≠ .idle then (sg s (n / 8)).cmd.getLsbD (n % 8)
  else cmd67 s inh n

/-- A debounced edge, or an edge of the driven state, of channel `n` with the timestamp `ts` in µs (R29, R148, R169). -/
def chEdge (n : Nat) (rising : Bool) (ts : Nat) (s : State) : State :=
  let c := ch s n
  let s1 := chPut s n { c with
    edges := c.edges ++ [(nextLatch s, rising)]
    lastTs := some ts, tsUs := BitVec.ofNat 31 ts, tsRising := rising }
  if fbit (chCfg s n 0x34) (if rising then 0 else 1) then fire n (1000 * ts) s1 else s1

/-- The output stage of channel `n` takes a new command: switching count (R161) and, in plain OUTPUT, the driven
state as an edge at the next strobe (R30). -/
def driveCh (s : State) (n : Nat) (v : Bool) : State :=
  let c := ch s n
  let s1 := chPut s n { c with
    drive := v, driveCyc := s.time.cyc
    cycles := if v then satN 0xFFFFFFFF (c.cycles + 1) else c.cycles
    driveSense := c.driveSense && !v
    mismatch := c.mismatch && (c.filt != v)
    raw := if chMode s n = 4 then v else c.raw }
  let s2 := fireIf (c.driveSense && v && fbit (chCfg s n 0x34) 6) n s1
  if chMode s n = 4 then chEdge n v ((s.time.ns + 999) / 1000) s2 else s2

/-- The output stages take the commands of R133. -/
def driveAll (s : State) : State :=
  let off := standing s 1
  let on := standing s 2
  let inh := standing s 3
  (List.range (nCh s)).foldl (fun a n =>
    let v := isOut s n && outCmd s off on inh n
    let h := inhHeld s inh n
    let b := if h = (ch s n).held then a else chPut a n { ch a n with held := h }
    if v = (ch s n).drive then b else driveCh b n v) s

/-- PAIR_STATUS.CURRENT: a standby's own, in SHADOW only (R194, R208), and an active's partner's. -/
def pairCurrent (s : State) : Bool :=
  if s.pair.role = .standby then s.pair.current && decide (s.pair.mstate = .shadow)
  else decide (s.pair.role = .active) && s.pair.partnerCurrent

/-- A change of CURRENT fires source 438, whatever brought it (R226). -/
def currentReport (s : State) : State :=
  if pairCurrent s = s.pair.curShown then s
  else fire 438 s.time.ns { s with pair := { s.pair with curShown := pairCurrent s } }

/-- One pass of the reflex unit and the output command registers; a change of CURRENT is reported. -/
def settle (s : State) : State := currentReport (driveAll (rfxEval s))

/-! ### Starting Sluice sequences (R173, R177, R180, R181) -/

/-- A group that is IDLE starts its sequence; RUNNING and RESTED groups ignore the trigger. -/
def slcStartGrp (cause : Nat) (useTable : Bool) (s : State) (g : Nat) : State :=
  let q := sg s g
  let inh := standing s 3
  let off := decide (s.pair.mstate = .ready) || decide (s.pair.mstate = .shadow)
  let snap := (List.range 8).foldl (fun (v : Byte) i =>
    if !off && cmd67 s inh (8 * g + i) then v ||| (1#8 <<< i) else v) 0
  let q' : SlcGrp := {
    phase := .running, step := 0, stepCyc := s.time.cyc + 200, began := false,
    cause := BitVec.ofNat 4 cause, timeout := false, badStep := false, held := 0, cmd := snap,
    table := if useTable then (List.range 32).map (fun i => force s (aSLC + 0x1000 + 128 * g + 4 * i)) else [] }
  if q.phase = .idle ∧ g < nGroups s then
    fireIf (fbit (force s (aSLC + 0x100 + 4 * g)) 1) (440 + g) (sgPut s g q')
  else s

/-- The record of a trigger in SLC_LAST. -/
def slcRecord (cause group : Nat) (s : State) : State :=
  { s with slc := { s.slc with
    lastCause := BitVec.ofNat 4 cause, lastGroup := BitVec.ofNat 5 group,
    lastValid := true, lastTime := s.time.ns } }

/-- A module-wide trigger: every group of the variant starts, and pending releases are cancelled (R177, R182). -/
def slcTriggerAll (cause : Nat) (s : State) : State :=
  let s1 := slcRecord cause 0 { s with slc := { s.slc with relPending := 0 } }
  (List.range (nGroups s)).foldl
    (fun a g => slcStartGrp cause (fbit (force s (aSLC + 0x100 + 4 * g)) 0) a g) s1

/-- The lowest bit set in a mask. -/
def lowestBit (m : Word) : Nat := ((List.range 32).find? (fun i => m.getLsbD i)).getD 0

/-- An explicit start of the named groups, accepted in RUN and HOLD only (R180). -/
def slcTriggerMask (cause : Nat) (m : Word) (s : State) : State :=
  let s1 := slcRecord cause (lowestBit m) s
  if s.pair.mstate = .run ∨ s.pair.mstate = .hold then
    ((List.range 32).filter (fun g => m.getLsbD g)).foldl (slcStartGrp cause true) s1
  else s1

/-- Every group's table starts as an explicit start of the CP (R350, R364). -/
def slcStartTables (s : State) : State := slcTriggerMask 4 0xFFFFFFFF s

/-! ### Leaving RUN, giving up, and the fatal reaction (R202, R211, R285, R294) -/

/-- A pending commit or undo is cancelled as the module leaves READY and RUN (R118). -/
def editCancel (s : State) : State :=
  let pend := decide (s.edit.phase = .pending) || decide (s.edit.phase = .undoPending)
  fireIf pend 475 { s with edit := { s.edit with
    phase := if s.edit.phase = .pending then .staged
      else if s.edit.phase = .undoPending then .committed else s.edit.phase
    code := if pend then 0x0C else s.edit.code } }

/-- The module leaves READY or RUN: the scan in progress is dropped, nothing that it sealed is committed, a pending
edit is cancelled, and the counts of the task watchdogs are held at 0 (R302). -/
def stopScan (s : State) : State :=
  editCancel { s with
                 wd := { s.wd with twd := [], twdDue := 0 }
                 le := { s.le with
    running := false, bundle := [], issued := false, sealedReady := false
    lsFrom := if s.le.running then s.time.cyc else s.le.lsFrom } }

/-! ### The twin link: frames that leave (R198-R200, R206) -/

/-- A lane. -/
def laneOf (s : State) (l : Bool) : LaneStat := if l then s.pair.lane1 else s.pair.lane0

/-- A lane takes a new state. -/
def lanePutL (s : State) (l : Bool) (x : LaneStat) : State :=
  { s with pair := { s.pair with lane0 := if l then s.pair.lane0 else x, lane1 := if l then x else s.pair.lane1 } }

/-- TYPE of a frame (R200). -/
def frameType (p : LinkPayload) : Nat :=
  match p with
  | .heartbeat _ => 0x01 | .giveUp _ => 0x02 | .taken _ => 0x03 | .epochBegin _ => 0x10 | .block _ _ _ => 0x11 | .edit _ => 0x12
  | .force _ => 0x13 | .epochEnd _ _ => 0x14 | .epochLost _ => 0x15 | .program _ _ => 0x20 | .rangeAck _ _ => 0x21
  | .blockTable _ _ => 0x22 | .cfgReq => 0x30 | .cfgData _ => 0x31 | .cfgEnd => 0x32 | .cpMsg _ => 0x40

/-- LEN of a frame (R198, R200): 324 for BLOCK, 4 and 20 per bundle for PROGRAM; DEDUCED (log 86): 36 for EPOCH_BEGIN and 8 for
EPOCH_END, which with their headers and CRCs are the 68 bytes of R204; otherwise open, within the limits of R198 and R200. -/
def frameLen (p : LinkPayload) : Nat :=
  match p with
  | .block _ _ _ => 324
  | .epochBegin _ => 36
  | .epochEnd _ _ => 8
  | .program _ ws => 4 + 20 * min 64 ((ws.length + 3) / 4)
  | .cpMsg _ => min 1024 (Config.frameLen 0x40)
  | _ => min 1344 (Config.frameLen (frameType p))

/-- Fabric cycles for which a frame occupies its lane at 8 ns a byte: header, payload, CRC, delimiters and gap (R206). -/
def lineCyc (p : LinkPayload) : Nat := (8 * (frameLen p + 16) + 4) / 5

/-- The number of a sequenced frame after `q`; 0 marks unsequenced frames (R198). -/
def seqAfter (q : BitVec 16) : BitVec 16 := if q = 0xFFFF then 1 else q + 1

/-- The header of a frame of this module (R198). -/
def txHdr (s : State) (l : Bool) (seq : BitVec 16) : FrameHdr :=
  { lane := l, ok := true, seat := s.pair.seatB, role := s.pair.role, seq := seq, ack := s.pair.rxSeq }

/-- The frame occupies lane `l` from now, or from the end of the frame on it. -/
def laneUse (l : Bool) (p : LinkPayload) (s : State) : State :=
  lanePutL s l { laneOf s l with busyTo := max s.time.cyc (laneOf s l).busyTo + lineCyc p }

/-- A sequenced frame leaves on the lanes `ls` with one number, and waits for its acknowledgement (R198, R199). -/
def sendOn (ls : List Bool) (p : LinkPayload) (s : State) : State :=
  let q := seqAfter s.pair.txSeq
  let s1 := { s with pair := { s.pair with
    txSeq := q, unacked := s.pair.unacked ++ ls.map (fun l => { hdr := txHdr s l q, payload := p, cyc := s.time.cyc }) } }
  ls.foldl (fun a l => laneUse l p a) s1

/-- The lane for a frame of its own: L0, or L1 where L0 is down and L1 is up. -/
def txLane (s : State) : Bool := !s.pair.lane0.up && s.pair.lane1.up

/-- A sequenced frame leaves at once on one lane. -/
def sendFrame (p : LinkPayload) (s : State) : State := sendOn [txLane s] p s

/-- A job of low priority joins the queue behind the epoch frames (R200). -/
def sendLow (j : LinkJob) (s : State) : State := { s with pair := { s.pair with lowq := s.pair.lowq ++ [j] } }

/-- Own role changes: PAIR_LAST and source 434 (R226). -/
def setRole (r : Role) (cause : Nat) (s : State) : State :=
  if s.pair.role = r then s
  else fire 434 s.time.ns { s with pair := { s.pair with
    role := r, lastCause := BitVec.ofNat 4 cause, lastValid := true, lastTime := s.time.ns } }

/-- Some group is RUNNING (R184). -/
def anyRunning (s : State) : Bool := (List.range (nGroups s)).any (fun g => decide ((sg s g).phase = .running))

/-- A channel of the drive-sense set shows DRIVE_SENSE; only channels in mode 4 or 5 count (R160, R195). -/
def foreignDrive (s : State) : Bool :=
  (List.range (nCh s)).any (fun n => fbit (force s (aPAIR + 0x40 + 4 * (n / 32))) (n % 32) && isOut s n &&
    (ch s n).driveSense)

/-- SYS_STATE.STATE and PAIR_STATUS.ROLE as codes. -/
def stateCode (m : ModState) : Nat :=
  match m with
  | .init => 1 | .ready => 2 | .run => 3 | .shadow => 4 | .hold => 5 | .safe => 6 | .sleep => 7

def roleCode (r : Role) : Nat :=
  match r with
  | .solo => 0 | .active => 1 | .standby => 2 | .undecided => 3

/-- Any path shows the partner. -/
def partnerAlive (s : State) : Bool :=
  decide (s.pair.role ≠ .solo) && (s.pair.lane0.up || s.pair.lane1.up || s.pair.tokenIn || s.pair.refSeen)

/-- PAIR_STATUS. -/
def pairStatus (s : State) : Word :=
  let p := s.pair
  if !hasTwin s then 0
  else wordOf (b2n p.seatB + 2 * roleCode p.role + 8 * roleCode p.partnerRole + 32 * b2n (partnerAlive s)
    + 64 * b2n p.lane0.up + 128 * b2n p.lane1.up + 256 * b2n (tokenSeen s) + 512 * b2n p.refSeen
    + 1024 * b2n (pairCurrent s) + 2048 * b2n p.resync + 4096 * b2n (foreignDrive s) + 8192 * b2n p.cfgMismatch
    + 16384 * b2n p.takeoverNc + 32768 * b2n p.seatConflict + 65536 * p.missed)

/-- SHADOW is entered as STANDBY: a pending edit is cancelled (R118), a pending RUN lapses (R350), VALID clears and with it PPS_OUT and a set that waits, the
rate follows the partner, and a full resync is awaited (R209, R234, R237). -/
def enterShadow (cause : Nat) (s : State) : State :=
  let s1 := setRole .standby cause (editCancel s)
  let s2 := { s1 with
    le := { s1.le with runPending := false }
    pair := { s1.pair with
      mstate := .shadow, giveTick := none, takenSeen := false, resync := true, current := false, staged := none
      lag := 0xFFFF, epochSeq := 0, applied := false, seqAny := true, tableSeen := false, tokenOut := false
      takeoverAt := none, handTries := none, listenUntil := none, released := false, stayReady := false, ship := none
      closed := none, dirty := [], preimg := [], editsOut := [], forcesOut := []
      lowq := s1.pair.lowq.filter (fun j => match j with | .frame _ => true | _ => false) }
    nv := { s1.nv with atSeal := none }
    time := { s1.time with valid := false, disc := 2, pending := none, ppsOut := false, ppsSec := none } }
  notice 0x06 434 cause (pairStatus s2) s2

/-- The old active releases its outputs once the partner is seen to drive (R213): in HOLD at once, in SAFE when its groups
rest (R185). A module that gave up on a fault then resets with cause FCU_FATAL; one that handed over enters SHADOW as
STANDBY, where a full resync starts (R216). -/
def releaseCheck (s : State) : State :=
  let seen := s.pair.takenSeen || s.pair.tokenIn || foreignDrive s
  let may := decide (s.pair.mstate = .hold) || (decide (s.pair.mstate = .safe) && !anyRunning s)
  if s.pair.role = .active ∧ s.pair.giveTick.isSome ∧ s.pair.released = false ∧ seen ∧ may then
    if s.pair.giveKind = 3 ∧ s.pair.mstate = .hold then enterShadow 7 s
    else { s with pair := { s.pair with released := true }, sys := { s.sys with pendReset := some 4 } }
  else s

/-- An ACTIVE module gives up (R211): TOKEN_OUT released, GIVE_UP sent on both lanes, scan and Harvest stopped, outputs held; a
partner that is already seen to drive releases them at once (R213). KIND 1 FAULT, 2 POWER, 3 HANDOVER, 4 FCU_SELF. -/
def giveUpOp (kind src reason : Nat) (s : State) : State :=
  let m : GiveUpMsg := {
    kind := BitVec.ofNat 4 kind, src := BitVec.ofNat 10 src, reason := BitVec.ofNat 6 reason, tick := BitVec.ofNat 64 s.tick.num }
  let s1 := sendOn [false, true] (.giveUp m) (stopScan s)
  releaseCheck (fire 436 s.time.ns { s1 with pair := { s1.pair with
    mstate := if kind = 4 then .safe else .hold
    tokenOut := false, ship := none, closed := none, takenSeen := false
    giveSrc := m.src, giveReason := m.reason, giveKind := m.kind
    giveTick := some s.tick.num, handTries := none } })

/-- A reset of a cause is called for; R184 holds it off while a group runs, and the first cause stands. -/
def callReset (cause : BitVec 4) (s : State) : State :=
  { s with sys := { s.sys with pendReset := if s.sys.pendReset.isSome then s.sys.pendReset else some cause } }

/-- A pin wakes the module: with its bit of SYS_SLEEP set, a change ends SLEEP with a reset of cause SOFT (R353). -/
def wakePin (bit : Nat) (s : State) : State :=
  if s.pair.mstate = .sleep ∧ fbit (force s (aSYS + 0x14)) bit then callReset 5 { s with sys := { s.sys with wake := true } } else s

/-- R285: the reaction to a fatal fault, by role and state. `cause` is the Sluice cause of a SOLO module. -/
def fatalReact (src reason cause : Nat) (s : State) : State :=
  let again := decide (s.fcu.reactCyc = some s.time.cyc)
  let s0 := { s with
    pair := { s.pair with tokenOut := false }
    fcu := { s.fcu with
      reactCyc := some s.time.cyc, preReset := if again then s.fcu.preReset else s.sys.pendReset } }
  match s.pair.role, s.pair.mstate with
  | .active, .run => giveUpOp 1 src reason s0
  | .solo, .run | .solo, .ready =>
    let s1 := slcTriggerAll cause (stopScan s0)
    { s1 with pair := { s1.pair with mstate := .safe }, le := { s1.le with uncommitted := s.le.uncommitted || decide (s.pair.mstate = .run) } }
  | .standby, .shadow | .undecided, .ready => { s0 with sys := { s0.sys with pendReset := some 4 } }
  | _, _ => s0

/-- A fatal fault: recorded, then the reaction of R285. -/
def fatalFault (src reason : Nat) (s : State) : State :=
  fatalReact src reason (if reason = 0x23 then 1 else 2) (fcuRecord src reason 2 s)

/-- A contained fault: recorded, then the reaction of R287. -/
def containedFault (src reason : Nat) (s : State) : State :=
  let s1 := fcuRecord src reason 1 s
  match fcuReact s src with
  | 1 => notice 0x02 src reason 0 s1
  | 2 => fatalReact src reason 2 s1
  | _ => s1

/-- The contained fault is recorded where `c` holds. -/
def containedIf (c : Bool) (src reason : Nat) (s : State) : State := if c then containedFault src reason s else s

/-- A master is frozen by a violation (R298): recorded as FREEZE_m, fatal for the LE. -/
def freezeMaster (m : Nat) (addr : Word) (write : Bool) (s : State) : State :=
  let s1 := { s with prot := { s.prot with
    frozen := s.prot.frozen ||| (1#7 <<< m)
    violAddr := mput (fun _ => 0) s.prot.violAddr m addr
    violWrite := if write then s.prot.violWrite ||| (1#7 <<< m) else s.prot.violWrite &&& ~~~(1#7 <<< m)
    violCount := mput (fun _ => 0) s.prot.violCount m (satN 255 (mget (fun _ => 0) s.prot.violCount m + 1))
    violValid := s.prot.violValid ||| (1#7 <<< m) } }
  let s2 := fire 540 s.time.ns s1
  if m = 0 then fatalFault 540 0x30 s2 else containedFault 540 (0x30 + m) s2

/-! ### Corrections of memory words (R284, R369, R379) -/

/-- Fabric cycles of 5 ns in a number of µs. -/
def cycUs (us : Nat) : Nat := 200 * us

/-- A correction enters the counts of the last 24 h; SRAM_RATE is raised as more than 100 corrections, or the third of one
word, fall into them (R379). -/
def sramCount (a : Nat) (s : State) : State :=
  let young := fun (c : Nat) => decide (s.time.cyc < c + cycUs 86400000000)
  let day := s.grd.sramDay.filter young ++ [s.time.cyc]
  let ws := s.grd.sramWords.filter (fun p => young p.2) ++ [(a, s.time.cyc)]
  let raise := decide (day.length = 101) || decide ((ws.filter (fun p => p.1 = a)).length = 3)
  fireIf raise 490 (noticeIf raise 0x0C 490 9 (wordOf day.length)
    { s with grd := { s.grd with sramDay := day, sramWords := ws } })

end Sys2Proof.Machine
end

