-- ==== Sys2Proof/Machine/Mem.lean ====
section
/-! DEFINITION. The logic engine's data memory (R22-R28, R35, R400): what a word reads as, and what a write changes. -/

namespace Sys2Proof.Machine

/-- A word that nothing has latched: value 0, tag UNCONFIGURED (R26). -/
def unconfWord : DWord := ⟨0, tagUNCONF⟩
/-- A Q, M or T word that nothing has written: value 0, tag GOOD (R348, log 1). -/
def goodZero : DWord := ⟨0, 0⟩

/-- The areas of R25. -/
def inI (a : Nat) : Bool := decide (a < 0x2000)
def inQ (a : Nat) : Bool := decide (0x2000 ≤ a ∧ a < 0x4000)
def inS (a : Nat) : Bool := decide (0x4000 ≤ a ∧ a < 0x5000)
def inM (a : Nat) : Bool := decide (0x8000 ≤ a ∧ a < 0x100000)
def inL (a : Nat) : Bool := decide (0x100000 ≤ a ∧ a < 0x1E0000)
def inT (a : Nat) : Bool := decide (0x1E0000 ≤ a ∧ a < 0x200000)

/-- A packed Q word (R35). -/
def qPacked (a : Nat) : Bool := decide (0x2100 ≤ a ∧ a < 0x2108)
/-- A Q word with storage of its own (R400). -/
def qWord (a : Nat) : Bool :=
  decide (0x2000 ≤ a ∧ a < 0x2100) || decide (0x2400 ≤ a ∧ a < 0x2D00) || decide (0x2E00 ≤ a ∧ a < 0x2E90)
/-- A word that is stored and that the LE and the CP may write: Q, M, T (R25, R26). -/
def keptWord (a : Nat) : Bool := qWord a || inM a || inT a

/-- The reading of a word of the input or system image that is not a packed word (R29, R36, R37). -/
def imgWord (i : Image) (a : Nat) : DWord :=
  if a < 0x100 then mget (fun _ => unconfWord) i.chan a
  else if 0x400 ≤ a ∧ a < 0xD00 then mget (fun _ => unconfWord) i.nodeIn (a - 0x400)
  else if 0xE00 ≤ a ∧ a < 0xE90 then mget (fun _ => unconfWord) i.nodeStat (a - 0xE00)
  else if 0x4000 ≤ a ∧ a < 0x5000 then mget (fun _ => unconfWord) i.sys (a - 0x4000)
  else unconfWord

/-- A stored word, packed words apart. -/
def plainWord (s : State) (a : Nat) : DWord :=
  if keptWord a then mget (fun _ => goodZero) s.mem.words a
  else if inL a then (mget (fun _ => none) s.mem.lwords a).getD (Config.freeL s.mem.lgen a)
  else if inI a || inS a then imgWord s.img.cur a
  else unconfWord

/-- A word as any reader of data memory is given it, packed words apart: an uncorrectable error and a reserved tag read
as value 0 with tag MEMORY (R24). -/
def readPlain (s : State) (a : Nat) : DWord :=
  let w := plainWord s a
  if mget (fun _ => 0) s.mem.upset a = 2 || tagReserved w.tag then ⟨0, tagMEMORY⟩ else w

/-- The error that a memory word stands with: 1 a single bit, 2 two bits. -/
def upsetOf (s : State) (k : Nat) : BitVec 2 := mget (fun _ => 0) s.mem.upset k

/-- The faults that a read of the word finds (R24, R284): the word and the reason. -/
def readFault (s : State) (a : Nat) : List (Nat × Nat) :=
  if upsetOf s a = 2 then [(a, 0x10)]
  else (if upsetOf s a = 1 then [(a, 8)] else []) ++ (if tagReserved (plainWord s a).tag then [(a, 0x11)] else [])

/-- Keys of the errors of program words, pool entries and words of CP SRAM. -/
def progKey (i : Nat) : Nat := 0x200000 + i
def poolKey (i : Nat) : Nat := 0x300000 + i
def sramKey (i : Nat) : Nat := 0x400000 + i

/-- The faults that a read of the program store or the Rake pool finds (R284). -/
def codeFault (s : State) (k : Nat) : List (Nat × Nat) :=
  if upsetOf s k = 2 then [(k, 0x22)] else if upsetOf s k = 1 then [(k, 9)] else []

/-- The errors of the listed words end. -/
def clearUpset (p : Nat → Bool) (s : State) : State :=
  { s with mem := { s.mem with upset := s.mem.upset.filter (fun x => !p x.1) } }

/-- The 32 channel words under the packed word `a` (R32, R35). -/
def packedBase (a : Nat) : Nat := if a < 0x2000 then 32 * (a - 0x100) else 0x2000 + 32 * (a - 0x2100)

/-- A packed word of I or Q. -/
def isPacked (a : Nat) : Bool := decide (0x100 ≤ a ∧ a < 0x108) || qPacked a

/-- The packed view of 32 words: their bits 0, and the worst of their tags (R32). -/
def packWords (f : Nat → DWord) : DWord :=
  ⟨bits32 (fun j => (f j).val.getLsbD 0), tagWorst ((List.range 32).map (fun j => (f j).tag))⟩

/-- What word `a` of data memory reads as. -/
def readWord (s : State) (a : Nat) : DWord :=
  if isPacked a then packWords (fun j => readPlain s (packedBase a + j)) else readPlain s a

/-- The faults that a read of word `a` finds. -/
def readFaults (s : State) (a : Nat) : List (Nat × Nat) :=
  if isPacked a then (List.range 32).flatMap (fun j => readFault s (packedBase a + j)) else readFault s a

/-! ### CRC-32C (R112, log 33) -/

/-- One bit of the CRC. -/
def crcBit (c : Word) : Word := if c.getLsbD 0 then (c >>> 1) ^^^ 0x82F63B78 else c >>> 1

/-- One byte of the CRC. -/
def crcByte (c : Word) (b : Nat) : Word :=
  let x := c ^^^ wordOf (b % 256)
  crcBit (crcBit (crcBit (crcBit (crcBit (crcBit (crcBit (crcBit x)))))))

/-- The four bytes of a word, least significant first. -/
def bytesLE (w : Word) : List Nat := [w.toNat % 256, w.toNat / 256 % 256, w.toNat / 65536 % 256, w.toNat / 16777216]

/-- CRC-32C over window words. -/
def crc32c (ws : List Word) : Word := ~~~((ws.flatMap bytesLE).foldl crcByte 0xFFFFFFFF)

/-- The 8-byte window images of a range, as 32-bit words in ascending order (R112). -/
def rangeWords (s : State) (r : DlRange) : List Word :=
  if r.pool then (List.range (64 * r.len)).flatMap (fun i =>
    let e := mget (fun _ => ((0 : Word), (0 : Word))) s.mem.pool (64 * r.base.toNat + i)
    [e.1, e.2])
  else (List.range (4 * r.len)).flatMap (fun i =>
    let w := mget (fun _ => (0 : BitVec 36)) s.mem.prog (4 * r.base.toNat + i)
    [w.truncate 32, (w >>> 32).truncate 32])

/-- The persistent words as they stand, in map order (R320). -/
def mapWords (s : State) : List DWord := s.nv.pmap.map (fun a => readWord s a.toNat)

/-! ### Harvest's marks (R203, R205, R209) -/

/-- Ranges of the program store and of the pool that an entry names. -/
def entryJobs (e : BlockEntry) : List LinkJob :=
  (if e.len = 0 then [] else [.range e.pbase.toNat e.len.toNat false])
    ++ (if e.poolCount = 0 then [] else [.range e.poolFirst.toNat e.poolCount.toNat true])

/-- A downloaded range goes to the partner with the CRC that it is to check (R122, log 85). -/
def rangeJobs (s : State) (r : DlRange) : List LinkJob :=
  [.range r.base.toNat r.len r.pool, .frame (.cpMsg (.editRange r.base r.len r.pool (crc32c (rangeWords s r))))]

/-- What a full resync sends before its sweep: the block table and the ranges of the live and previous entries (R209), and the
edit that stands open (R124, log 85). -/
def resyncJobs (s : State) : List LinkJob :=
  [.table] ++ (s.edit.live.map (·.2) ++ s.edit.prev.map (·.2)).flatMap entryJobs
    ++ (s.edit.openRange.map (fun r => LinkJob.range r.base.toNat r.len r.pool)).toList
    ++ s.edit.ranges.flatMap (rangeJobs s)
    ++ s.edit.stagedSet.map (fun p => .frame (.cpMsg (.editStage p.1 p.2)))
    ++ [.frame (.cpMsg (.editPend (s.edit.phase = .pending || s.edit.phase = .undoPending))), .mark]

/-- A full resync starts in an active module (R209): no range counts as acknowledged by the partner that is brought up. DESIGN CHOICE
(log 106): PARTNER_ACK falls also where no range is downloaded. -/
def startResync (s : State) : State :=
  { s with
    pair := { s.pair with
      resync := true, swept := 0, progDone := false, resyncs := satN 0xFFFF (s.pair.resyncs + 1)
      lowq := s.pair.lowq.filter (fun j => match j with | .frame _ => true | _ => false) ++ resyncJobs s }
    edit := { s.edit with ranges := s.edit.ranges.map (fun r => { r with ack := false }), partnerAck := false }
    btn := { s.btn with resyncs := satN 0xFFFF (s.btn.resyncs + 1) } }

/-- The block of a word. -/
def blockOf (a : Nat) : Nat := a / 64

/-- R203, R205: a write marks the block of the word dirty, and the old value is kept where the block is not yet sent, with the mark of
an uncorrectable error (R24). A pre-image store that fills makes the active send EPOCH_LOST and start a full resync. -/
def harvestMark (a : Nat) (old : DWord) (s : State) : State :=
  let has := fun (e : ShipEpoch) => e.blocks.contains (blockOf a) || e.sweep.contains (blockOf a)
  let unsent := s.pair.ship.any has || s.pair.closed.any has
  let bad := decide (mget (fun _ => 0) s.mem.upset a = 2)
  let fresh := unsent && !s.pair.preimg.any (fun p => p.1 = a)
  let full := fresh && decide (32767 ≤ s.pair.preimg.length)
  let s1 := { s with pair := { s.pair with
    dirty := addNew (blockOf a) s.pair.dirty
    preimg := if full then [] else if fresh then s.pair.preimg ++ [(a, old, bad)] else s.pair.preimg
    preimgMax := if fresh then max s.pair.preimgMax (s.pair.preimg.length + 1) else s.pair.preimgMax
    ship := if full then none else s.pair.ship
    closed := if full then none else s.pair.closed } }
  if full then startResync (sendFrame (.epochLost (s.pair.nextSeq - 1)) s1) else s1

/-- A word with storage of its own takes the bits of `v` under `mask` and the tag. DESIGN CHOICE (log 102): a store of some bits, or of
the tag alone, into a word with an uncorrectable error keeps the other bits as they were stored, and ends the error; the spec does not
say what they then hold. -/
def putPlain (a : Nat) (mask v : Word) (t : Tag) (s : State) : State :=
  if keptWord a then
    let old := plainWord s a
    let w : DWord := ⟨(old.val &&& ~~~mask) ||| (v &&& mask), t⟩
    let s1 := harvestMark a old s
    { s1 with mem := { s1.mem with
      words := mput (fun _ => goodZero) s.mem.words a w, upset := mput (fun _ => 0) s.mem.upset a 0 } }
  else if inL a then
    let old := plainWord s a
    let w : DWord := ⟨(old.val &&& ~~~mask) ||| (v &&& mask), t⟩
    { s with mem := { s.mem with
      lwords := mput (fun _ => none) s.mem.lwords a (some w), upset := mput (fun _ => 0) s.mem.upset a 0 } }
  else s

/-- A write to word `a`: every bit of `mask` takes the bit of `v`, and the word takes the tag. A packed Q word passes
its written bits and the tag to the channel words (R35). Writes to I, S and reserved words are ignored (R26). -/
def writeBits (a : Nat) (mask v : Word) (t : Tag) (s : State) : State :=
  if qPacked a then
    (List.range 32).foldl (fun s j => if mask.getLsbD j then
      putPlain (packedBase a + j) 1 (if v.getLsbD j then 1 else 0) t s else s) s
  else putPlain a mask v t s

/-- A whole-word write. -/
def writeWord (a : Nat) (w : DWord) (s : State) : State := writeBits a 0xFFFFFFFF w.val w.tag s

/-- A tag write that leaves the value (R35, R74). -/
def writeTag (a : Nat) (t : Tag) (s : State) : State :=
  if qPacked a then
    (List.range 32).foldl (fun s j => putPlain (packedBase a + j) 0 0 t s) s
  else putPlain a 0 0 t s

/-- A fault that a read has found is recorded (R24, R284): a corrected word counts (R369), and of the program store and the Rake pool it
is written back; a double-bit error there is fatal. -/
def memFault (s : State) (f : Nat × Nat) : State :=
  if f.2 = 8 then sramCount f.1 (corrected s)
  else if f.2 = 9 then sramCount f.1 (corrected (clearUpset (fun k => decide (k = f.1)) s))
  else if f.2 = 0x22 then fatalFault 538 0x22 s
  else containedFault 537 f.2 s

/-- The faults found by reads are recorded. -/
def recordReadFaults (l : List (Nat × Nat)) (s : State) : State := l.foldl memFault s

/-- Bits 0 to 8191 of the copy engine's work: a list of words with their contents is written. -/
def writeWords (l : List (Nat × DWord)) (s : State) : State := l.foldl (fun s p => writeWord p.1 p.2 s) s

end Sys2Proof.Machine
end

