-- ==== Sys2Proof/Machine/Store.lean ====
section
/-! DEFINITION. Byte images: configuration slots (R340), update manifests (R355), the configuration store (R339, R357, R359), and the
headers of the CP flash banks (R359). -/

namespace Sys2Proof.Machine

/-! ### Bytes -/

/-- The field of `n` bytes at offset `i`, the least significant first; what nothing has written reads erased. -/
def leField (l : List Byte) (i n : Nat) : Nat :=
  (List.range n).foldl (fun v k => v + (l.getD (i + k) 0xFF).toNat * 256 ^ k) 0

/-- `n` bytes from offset `i`. -/
def bytesAt (l : List Byte) (i n : Nat) : List Byte :=
  let m := (l.drop i).take n
  m ++ List.replicate (n - m.length) 0xFF

/-- Bytes are written at offset `i`. -/
def putBytes (l : List Byte) (i : Nat) (d : List Byte) : List Byte := bytesAt l 0 i ++ d ++ l.drop (i + d.length)

/-- The bytes from offset `i` to `j - 1` are zero. -/
def zeroBytes (l : List Byte) (i j : Nat) : Bool := decide (leField l i (j - i) = 0)

/-- CRC-32C over bytes. -/
def byteCrc (l : List Byte) : Word := ~~~(l.foldl (fun c b => crcByte c b.toNat) 0xFFFFFFFF)

/-! ### Configuration slots (R340) -/

/-- A field of a slot's header. -/
def slotField (c : CfgSlot) (i n : Nat) : Nat := leField c.bytes i n

def slotMagic (c : CfgSlot) : Nat := slotField c 0 4
def slotGen (c : CfgSlot) : Word := wordOf (slotField c 8 4)
def slotLen (c : CfgSlot) : Nat := slotField c 12 4
def slotProgId (c : CfgSlot) : Word := wordOf (slotField c 20 4)

/-- The check word of a slot, at LENGTH − 68. -/
def slotCheck (c : CfgSlot) : Word := wordOf (slotField c (slotLen c - 68) 4)

/-- An entry of the section table. -/
structure Section where
  id : Nat
  zero : Nat
  off : Nat
  size : Nat
  crc : Nat
deriving DecidableEq, Repr

/-- The section table. -/
def slotSections (c : CfgSlot) : List Section :=
  (List.range (slotField c 6 2)).map (fun k =>
    let o := 32 + 16 * k
    ⟨slotField c o 2, slotField c (o + 2) 2, slotField c (o + 4) 4, slotField c (o + 8) 4, slotField c (o + 12) 4⟩)

/-- The slot has a section. -/
def hasSec (c : CfgSlot) (id : Nat) : Bool := (slotSections c).any (fun x => decide (x.id = id))

/-- The check word that belongs to the bytes before it. -/
def slotCrc (c : CfgSlot) : Word := byteCrc (bytesAt c.bytes 0 (slotLen c - 68))

/-! ### Update manifests (R355) -/

/-- A part of a manifest. -/
structure Part where
  type : Nat
  target : Nat
  zero : Nat
  version : Word
  length : Nat
  hash : List Byte
deriving DecidableEq, Repr

/-- A field of a manifest. -/
def manField (m : ManifestMsg) (i n : Nat) : Nat := leField m.bytes i n

def manFlags (m : ManifestMsg) : Nat := manField m 7 1
def manSeq (m : ManifestMsg) : Word := wordOf (manField m 8 4)
def manGroup (m : ManifestMsg) : Nat := manField m 36 2
def manFmt (m : ManifestMsg) : BitVec 4 := BitVec.ofNat 4 (manField m 39 1)
def manConfirm (m : ManifestMsg) : Nat := manField m 40 2

/-- The parts of a manifest. -/
def manParts (m : ManifestMsg) : List Part :=
  (List.range (manField m 6 1)).map (fun k =>
    let o := 48 + 48 * k
    { type := manField m o 1, target := manField m (o + 1) 1
      zero := manField m (o + 2) 2 + manField m (o + 12) 4
      version := wordOf (manField m (o + 4) 4), length := manField m (o + 8) 4, hash := bytesAt m.bytes (o + 16) 32 })

/-- The parts of the staged manifest. -/
def updParts (s : State) : List Part := (s.upd.man.map manParts).getD []

/-- Chunks of a part. -/
def partChunks (p : Part) : Nat := (p.length + 511) / 512

/-- The part lies in the staging area. -/
def stagedPart (p : Part) : Bool := [3, 5, 6].contains p.type

/-- Offset in the staging area of a part that lies there: after the first 64 KiB, in the order of the manifest (R357). -/
def stagedAt (l : List Part) (type : Nat) : Nat :=
  ((l.takeWhile (fun p => decide (p.type ≠ type))).filter stagedPart).foldl (fun n p => n + p.length) 0x10000

/-! ### The configuration store (R339) -/

/-- Byte `i` of the first 64 KiB of the staging area: the copy of the manifest, the last 68 bytes of a staged slot, the marks of erased
targets, and the resume bitmaps, whose programmed bits read 0 (R357, R359). DESIGN CHOICE (log 115): their places and their form. -/
def stagingHead (s : State) (i : Nat) : Byte :=
  if i < 0x400 then ((s.upd.man.map (·.bytes)).getD []).getD i 0xFF
  else if i < 0x444 then s.upd.tail.getD (i - 0x400) 0xFF
  else if 0xF00 ≤ i ∧ i < 0xF06 then (if s.upd.erased.getLsbD (i - 0xF00) then 0 else 0xFF)
  else if 0x1000 ≤ i ∧ i < 0xD000 then
    (bits32 (fun k => decide (k < 8) &&
      !s.upd.chunks.contains ((i - 0x1000) / 0x2000 + 1, 8 * ((i - 0x1000) % 0x2000) + k))).truncate 8
  else 0xFF

/-- Byte `i` of the configuration store. -/
def storeByte (s : State) (i : Nat) : Byte :=
  if i < 0x1000000 then s.sys.slot0.bytes.getD i 0xFF
  else if i < 0x2000000 then s.sys.slot1.bytes.getD (i - 0x1000000) 0xFF
  else if i < 0x2010000 then stagingHead s (i - 0x2000000)
  else if i < 0x4000000 then mget (fun _ => 0xFF) s.upd.staging (i - 0x2000000)
  else 0xFF

/-! ### CP flash banks (R260, R359) -/

/-- The word at offset `o` of a bank. -/
def cfWord (s : State) (b : BitVec 1) (o : Nat) : Word :=
  mget (fun _ => 0xFFFFFFFF) s.nv.flash (0x100000 * b.toNat + o / 4)

/-- BANK_SEQ of a bank; 0 where its header is erased. -/
def bankSeq (s : State) (b : BitVec 1) : Nat :=
  if cfWord s b 0x3FF000 = 0xFFFFFFFF then 0 else (cfWord s b 0x3FF000).toNat

/-- The vendor base of a bank verifies under the vendor firmware key, and its OEM partition under the OEM key (R280). -/
def bankSig (s : State) (b : BitVec 1) : Bool := if b = 0 then s.upd.sigA else s.upd.sigB
def oemSig (s : State) (b : BitVec 1) : Bool := if b = 0 then s.upd.oemA else s.upd.oemB

/-- The verdicts on a bank change. -/
def bankVerdict (b : BitVec 1) (fw oem : Option Bool) (s : State) : State :=
  { s with upd := { s.upd with
    sigA := if b = 0 then fw.getD s.upd.sigA else s.upd.sigA, sigB := if b = 1 then fw.getD s.upd.sigB else s.upd.sigB
    oemA := if b = 0 then oem.getD s.upd.oemA else s.upd.oemA, oemB := if b = 1 then oem.getD s.upd.oemB else s.upd.oemB } }

/-- The boot ROM may start the bank: its header is valid, its REJECTED byte reads 0xFF, and its signature verifies (R359). A header in a
sector that an erase left open is not valid. -/
def bankGood (s : State) (b : BitVec 1) : Bool :=
  decide (bankSeq s b ≠ 0) && decide (fld (cfWord s b 0x3FF004) 0 8 = 0xFF) && bankSig s b
    && !s.nv.flOpen.contains (true, 64 * b.toNat + 63)

/-- Bytes are programmed into the CP flash, from a word boundary. -/
def flashPut (word : Nat) (data : List Byte) (s : State) : State :=
  let ws := (List.range ((data.length + 3) / 4)).map (fun i => (word + i, wordOf (leField data (4 * i) 4)))
  { s with nv := { s.nv with flash := mputs (fun _ => 0xFFFFFFFF) s.nv.flash ws } }

/-- The header of a bank takes a BANK_SEQ. -/
def bankHeader (b : BitVec 1) (seq : Nat) (s : State) : State := flashPut (0x100000 * b.toNat + 0xFFC00) (byteList 4 seq) s

/-- The REJECTED byte of a bank is programmed to zero (R366). -/
def bankReject (b : BitVec 1) (s : State) : State :=
  flashPut (0x100000 * b.toNat + 0xFFC01) (byteList 4 (cfWord s b 0x3FF004 &&& 0xFFFFFF00).toNat) s

/-- The vendor base checks the OEM partition of the bank that runs before it enters it; one that fails is not entered, with a notice
(R280). -/
def oemCheck (s : State) : State :=
  let v := oemSig s s.upd.bank
  noticeIf (!v) 0x0B noSrc 4 0 { s with cp := { s.cp with oemValid := v } }

end Sys2Proof.Machine
end

