-- ==== Sys2Proof/Machine/Guard.lean ====
section
/-! DEFINITION. Master protection (R296-R299, R398): the address map, the windows and fixed rules, what an access of each master meets,
and the checks before a register row of the CP. -/

namespace Sys2Proof.Machine

/-- The rows of R397: first and last address of every assigned range. -/
def mapRows : List (Nat × Nat) := [
  (0x00000000, 0x0000FFFF), (0x08000000, 0x083FFFFF), (0x08400000, 0x087FFFFF), (0x09000000, 0x0907FFFF),
  (0x20000000, 0x200FFFFF), (0x30000000, 0x307FFFFF), (0x30800000, 0x30807FFF), (0x30810000, 0x30813FFF),
  (0x30820000, 0x308223FF), (0x31000000, 0x31FFFFFF), (0x40000000, 0x400CFFFF), (0x40100000, 0x40103FFF),
  (0x40140000, 0x401403FF), (0x40200000, 0x40203FFF), (0x40210000, 0x402147FF), (0x40300000, 0x4031FFFF),
  (0x40320000, 0x403203FF), (0x40330000, 0x4034FFFF)]

/-- A row of R397 covers the address (R398). -/
def assigned (a : Nat) : Bool := mapRows.any (fun r => decide (r.1 ≤ a) && decide (a ≤ r.2))

/-- The address lies in the block of a unit that the variant lacks (R3, R399). -/
def absentAddr (s : State) (a : Nat) : Bool :=
  if 0x40060000 ≤ a ∧ a < 0x40070000 then !hasTwin s
  else if 0x40080000 ≤ a ∧ a < 0x40090000 then !hasPanel s
  else if 0x40100000 ≤ a ∧ a < 0x40104000 then decide (nCh s ≤ (a - 0x40100000) / 0x40)
  else if 0x40140000 ≤ a ∧ a < 0x40140400 then decide (nGroups s ≤ (a - 0x40140000) / 0x20)
  else if 0x40200000 ≤ a ∧ a < 0x40204000 then decide (nBus s ≤ (a - 0x40200000) / 0x1000)
  else if 0x40210000 ≤ a ∧ a < 0x40214800 then decide (nNodes s ≤ (a - 0x40210000) / 0x80)
  else false

/-- The address lies in the Sluice block. -/
def inSluice (a : Nat) : Bool := decide (0x40090000 ≤ a) && decide (a < 0x400A0000)

/-- Window `w` of master `m` covers the address with the permission (R297). -/
def winCovers (s : State) (m w a : Nat) (wr : Bool) : Bool :=
  let b := aPROT + 0x100 + 0x100 * m + 0x10 * w
  let f := force s (b + 8)
  fbit f 0 && fbit f (if wr then 2 else 1) && decide ((force s b).toNat ≤ a) && decide (a ≤ (force s (b + 4)).toNat)

/-- The windows of master `m` permit the access (R297). -/
def winAllows (s : State) (m a : Nat) (wr : Bool) : Bool :=
  !fbit (force s aPROT) m || (List.range 16).any (fun w => winCovers s m w a wr)

/-- An access of master `m` is permitted (R297); a CP access to an unassigned address is a bus error, no violation (R398). -/
def permitted (s : State) (m a : Nat) (wr : Bool) : Bool :=
  if m = 0 then (wr && (inI a || inS a)) || winAllows s 0 a wr
  else if absentAddr s a then true
  else if m ≠ 1 ∧ inSluice a then false
  else if ¬ assigned a then decide (m = 1)
  else winAllows s m a wr

/-- Master `m` is frozen (R298). -/
def frozen (s : State) (m : Nat) : Bool := s.prot.frozen.getLsbD m

/-- Master `m` makes the access: it is not frozen, and the access is permitted (R297, R298). -/
def mayAccess (s : State) (m a : Nat) (wr : Bool) : Bool := !frozen s m && permitted s m a wr

/-- An access that master `m` does not make: a refused one freezes it, a frozen master makes none (R298). -/
def accessRefused (m a : Nat) (wr : Bool) (s : State) : State :=
  if frozen s m then s else freezeMaster m (wordOf a) wr s

/-! ### The CP -/

/-- The CP runs: powered, not held in reset, not in SLEEP. -/
def cpRuns (s : State) : Bool := s.sys.powered && !s.sys.inReset && !s.cp.down && decide (s.pair.mstate ≠ .sleep)

/-- The CP's access. -/
def cpMay (s : State) (a : Nat) (wr : Bool) : Bool := mayAccess s 1 a wr

/-- A refused CP access (R298). -/
def cpRefused (s : State) (a : Nat) (wr : Bool) : State := accessRefused 1 a wr s

/-- A read delivers a value to the CP (log 2). -/
def readOut (v : Word) (s : State) : State := { s with cp := { s.cp with rdata := v } }

/-- A row that is a CP access to the register at `a`: a CP that does not run or is frozen makes none, and a refused one, which changes
nothing and reads zero, freezes the CP (R296-R299). -/
def cpRow (a : Nat) (wr : Bool) (s : State) (o : Out) : Out :=
  if !cpRuns s || frozen s 1 then .next s
  else if permitted s 1 a wr then o
  else .next (settle (accessRefused 1 a wr (if wr then s else readOut 0 s)))

/-- The CP reaches the register. -/
def cpReach (s : State) (a : Nat) (wr : Bool) : Bool := cpRuns s && cpMay s a wr

/-- Ethernet 1 is off with factory defaults. -/
def ethOn (s : State) (e : Bool) : Bool := s.cp.link.getLsbD (b2n e) && !(e && s.sys.cfgDefaulted)

/-- The session of an interface. -/
def session (s : State) (i : Nat) : Option Session := mget (fun _ => none) s.cp.sessions i

/-- Traffic passes an interface: attached, the CP runs, and the DMA of the Ethernet ports or of the service port is not frozen (R299). -/
def ifaceLive (s : State) (i : Nat) : Bool :=
  cpRuns s && (match i with
    | 0 => ethOn s false && !s.prot.frozen.getLsbD 4
    | 1 => ethOn s true && !s.prot.frozen.getLsbD 4
    | 2 => s.cp.usb && !s.prot.frozen.getLsbD 6
    | _ => false)

/-- Some session through which traffic passes holds the roles (R278). -/
def sessionHolds (s : State) (r : Byte) : Bool :=
  (List.range 3).any (fun i => ifaceLive s i && (session s i).any (fun x => decide (x.roles &&& r = r)))

/-- A row that the vendor base carries out only for a session that holds the roles `r` (R278). -/
def svcRow (r : Byte) (a : Nat) (wr : Bool) (s : State) (o : Out) : Out :=
  if sessionHolds s r then cpRow a wr s o else .next s

/-! ### The Harvest and copy engine: words of LE data memory at their places in the CP address space -/

/-- CP address of data word `a`. -/
def engAddr (a : Nat) : Nat := 0x31000000 + 8 * a

/-- The first of the listed words that the engine may not access. -/
def engHit (s : State) (l : List Nat) (wr : Bool) : Option Nat := l.find? (fun a => !permitted s 2 (engAddr a) wr)

/-- The engine accesses word `a`, and `f` is what the access does; a refused one freezes the engine, and a frozen engine does nothing. -/
def engAct (a : Nat) (wr : Bool) (f : State → State) (s : State) : State :=
  if mayAccess s 2 (engAddr a) wr then f s else accessRefused 2 (engAddr a) wr s

end Sys2Proof.Machine
end

