-- ==== Sys2Proof/Machine/Reflex.lean ====
section
/-! DEFINITION. Commands of the reflex block (R129, R131, R141). -/

namespace Sys2Proof.Machine

/-- A half of a 64-bit map: `v` in the high or the low word. -/
def half64 (hi : Bool) (v : Word) : BitVec 64 := if hi then v ++ 0#32 else 0#32 ++ v

/-- A write of 1 to a latch bit is a CP reset: latch := condition or (latch and not reset) (R131). -/
def rfxReset (m : BitVec 64) (s : State) : State :=
  { s with rfx := { s.rfx with
    latch := s.rfx.latch &&& ~~~(m &&& ~~~(bits64 (fun e => rfxEn s e && rfxLatched s e && s.rfx.cond.getLsbD e))) } }

/-- RFX_LATCH_LO, RFX_LATCH_HI write (R131). -/
def execRfxLatch (hi : Bool) (v : Word) (s : State) : Out :=
  cpRow (aRFX + (if hi then 0x14 else 0x10)) true s <| .next (settle (rfxReset (half64 hi v) s))

/-- RFX_SOFT write (R129). -/
def execRfxSoft (v : Word) (s : State) : Out :=
  cpRow (aRFX + 0x18) true s <| .next (settle (regPut s (aRFX + 0x18) (v &&& 0xF)))

/-- The low word of a 64-bit stamp. -/
def lo32 (n : Nat) : Word := wordOf n
/-- The high word of a 64-bit stamp. -/
def hi32 (n : Nat) : Word := wordOf (n / 4294967296)

/-- RFX_LAST_TIME low word read: it latches the high word (R141). -/
def execRfxLastTime (s : State) : Out :=
  cpRow (aRFX + 0x24) false s <|
  .next (readOut (lo32 s.rfx.lastTime) { s with rfx := { s.rfx with timeHi := hi32 s.rfx.lastTime } })

end Sys2Proof.Machine
end

