-- ==== Sys2Proof/Machine/Channel.lean ====
section
/-! DEFINITION. Events and commands of the field channels and their groups (06). A channel number beyond the variant has
no effect (R3). -/

namespace Sys2Proof.Machine

/-- Station time in whole µs. -/
def nowUs (s : State) : Nat := s.time.ns / 1000

/-- The channel is an input, or an output with readback, that is present and configured. -/
def hasInput (s : State) (n : Nat) : Bool :=
  decide (n < nCh s) && (chMode s n = 1 || chMode s n = 2 || chMode s n = 3 || chMode s n = 5)

/-- The fabric clock runs. -/
def clockRuns (s : State) : Bool := s.sys.powered && !s.sys.inReset && decide (s.pair.mstate ≠ .sleep)

/-- The front end of channel `n` is sampled: it stands in a mode with an input, which it keeps while L+ is present, also through a
reset and in INIT (R145, R147). -/
def feSampled (s : State) (n : Nat) : Bool :=
  let m := (ch s n).feMode
  decide (n < nCh s) && clockRuns s && (decide (m = 1) || decide (m = 2) || decide (m = 3) || decide (m = 5))

/-- Wetting period W in µs, as the front end keeps it (R145, R149). -/
def wetPeriod (s : State) (n : Nat) : Nat := 100 * (ch s n).fePeriod

/-- Station time lies in a wetting window of the channel (R149). -/
def wetWindow (s : State) (n : Nat) : Bool :=
  let c := ch s n
  let W := wetPeriod s n
  let p := nowUs s % W
  decide (p * 1000 ≤ 2 * c.winPct * W) || decide ((W - p) * 1000 ≤ 8 * c.winPct * W)

/-- The channel stands at full wetting current: always without pulsed wetting and while the fabric clock stands still, in the 2 ms
after a raw edge and while a raw edge waits for its confirmation, and in the wetting windows (R145, R149, R150). -/
def fullCurrent (s : State) (n : Nat) : Bool :=
  !(ch s n).fePulsed || !clockRuns s || decide (nowUs s < (ch s n).fullUntil) || wetWindow s n

/-- A raw edge to `level` with timestamp `ts` in µs: debounce of a configured input begins or is cancelled (R147, R148). -/
def rawTo (n : Nat) (level : Bool) (ts : Nat) (s : State) : State :=
  let c := ch s n
  chPut s n { c with
    raw := level, rawTs := ts, edgePend := hasInput s n && (level != c.filt), confirm := none
    fullUntil := ts + 2000, quietCyc := s.time.cyc }

/-- A sample brings the level `level` to the channel (R147, R150). In pulsed wetting, at reduced current, a differing sample switches to
full current and waits for the sample that confirms it; samples in that wait, and those of a wetting window, leave the raw state
alone: the confirming sample and the wetting sample decide (log 90). In the 2 ms after a raw edge every sample counts. -/
def sampleTo (n : Nat) (level : Bool) (s : State) : State :=
  let c := ch s n
  if level = c.raw then s
  else if !c.fePulsed || (c.confirm.isNone && decide (nowUs s < c.fullUntil)) then rawTo n level (nowUs s) s
  else if c.confirm.isSome || wetWindow s n then s
  else chPut s n { c with confirm := some (level, nowUs s), fullUntil := nowUs s + 20 }

/-- The learnt THR in µA (R153). -/
def learntThr (s : State) (n : Nat) : Nat := if (ch s n).learnt then min (max ((ch s n).ioff / 2) 200) 300 else 200

/-- THR in µA (R153). -/
def wbThr (s : State) (n : Nat) : Nat :=
  let w := chCfg s n 0xC
  if fbit w 9 then learntThr s n else fld w 0 9

/-- A sample of an INPUT_WB channel below 0.2 mA or below THR is a break sample (R152). -/
def isBreak (s : State) (n ua : Nat) : Bool := decide (ua < 200) || decide (ua < wbThr s n)

/-- The level that a sample brings: in mode 3 by current, break and up to 0.9 mA OFF, above 1.5 mA ON, unchanged between; elsewhere
as the comparator gives it (R146, R152). -/
def sampleLevel (s : State) (n : Nat) (x : Sample) : Bool :=
  match x with
  | .level b => b
  | .current ua => if ua ≤ 900 then false else if 1500 < ua then true else (ch s n).raw

/-- The sample is of the kind that the front end takes: a current in mode 3, a level elsewhere. -/
def sampleFits (s : State) (n : Nat) (x : Sample) : Bool :=
  match x with
  | .level _ => decide ((ch s n).feMode ≠ 3)
  | .current _ => decide ((ch s n).feMode = 3)

/-- A calibration result is discarded with the code LAST; a retry is pending (R164, R165). -/
def calDiscard (n code : Nat) (s : State) : State :=
  let c := ch s n
  fireIf (fbit (chCfg s n 0x34) 5) n (chPut s n { c with
    calActive := false, calLast := BitVec.ofNat 4 code, calRetry := true, calRetryCyc := s.time.cyc
    calAborts := if code = 2 then satN 255 (c.calAborts + 1) else c.calAborts })

/-- The watch comparator sees the terminal rise in a calibration window: the window aborts, and the sample counts as without the
window (R164). -/
def abortWindow (n : Nat) (s : State) : State := sampleTo n true (calDiscard n 2 s)

/-- A sample differs from the one before it (R147, R150, R152). In a calibration window it is the watch comparator's (R163, R164). -/
def execRawEdge (n : BitVec 8) (x : Sample) (s : State) : Out :=
  let k := n.toNat
  if !feSampled s k || !sampleFits s k x then .next s
  else if (ch s k).calActive then .next (if sampleLevel s k x then abortWindow k s else s)
  else .next (sampleTo k (sampleLevel s k x) s)

/-- The debounced state takes the raw state; the reported state follows unless WIREBREAK stands (R148, R152). -/
def debounceTo (n : Nat) (s : State) : State :=
  let c := ch s n
  let s1 := chPut s n { c with
    filt := c.raw, filtTs := c.rawTs, edgePend := false, quietCyc := s.time.cyc
    openCyc := if c.raw then c.openCyc else s.time.cyc
    mismatch := c.mismatch && (c.raw != c.drive) }
  if chMode s n = 3 ∧ c.wb then s1 else chEdge n c.raw c.rawTs s1

/-- D µs after an unbroken raw edge the debounced state takes the new raw state (R148). -/
def execDebouncedEdge (n : BitVec 8) (s : State) : Out :=
  let k := n.toNat
  let c := ch s k
  if hasInput s k && c.edgePend && decide (c.rawTs + chDeb s k ≤ nowUs s) then .next (settle (debounceTo k s))
  else .next s

/-- A confirmed or filmed edge of a pulsed channel; in a calibration window it is the watch comparator's, and a rise aborts the
window (R150, R163, R164). -/
def wetEdge (n : Nat) (level : Bool) (ts : Nat) (s : State) : State :=
  rawTo n level ts (if (ch s n).calActive && level then calDiscard n 2 s else s)

/-- The read of the input at a wetting sample, at full current (R150). -/
def execWettingSample (n : BitVec 8) (level : Bool) (s : State) : Out :=
  let k := n.toNat
  let c := ch s k
  if feSampled s k && c.fePulsed && c.confirm.isNone && decide (nowUs s % wetPeriod s k = 0) && (level != c.raw) then
    .next (wetEdge k level (nowUs s) s)
  else .next s

/-- The sample 20 µs after a differing sample at reduced current confirms the raw edge or drops it (R150). -/
def execWettingConfirm (n : BitVec 8) (level : Bool) (s : State) : Out :=
  let k := n.toNat
  let c := ch s k
  match c.confirm with
  | some (l, ts) =>
    if feSampled s k && c.fePulsed && decide (ts + 20 ≤ nowUs s) then
      if level = l then .next (wetEdge k l ts s) else .next (chPut s k { c with confirm := none })
    else .next s
  | none => .next s

/-- A second has passed since the cycle `t`. -/
def secondFrom (s : State) (t : Nat) : Bool := decide (t + cycUs 1000000 ≤ s.time.cyc)

/-- Once per second the window fraction follows the largest settling time of that second, in ns; without ADAPT it stays at 10 %
(R151). -/
def execWettingAdapt (n : BitVec 8) (settleNs : Nat) (s : State) : Out :=
  let k := n.toNat
  let c := ch s k
  let lead := 8 * c.winPct * wetPeriod s k
  let slow := decide (6 * lead < 10 * settleNs)
  if hasInput s k && chPulsed s k && secondFrom s c.adaptCyc then
    if fbit (chCfg s k 8) 8 then
      .next (chPut s k { c with
        adaptCyc := s.time.cyc
        winPct := if slow then min 25 (c.winPct + 1)
          else if 10 * settleNs < 3 * lead then max 5 (c.winPct - 1) else c.winPct
        wetLimit := decide (c.winPct = 25) && slow })
    else .next (chPut s k { c with winPct := 10, wetLimit := false })
  else .next s

/-- Break samples count as OFF: the filter, which they have had for at least D, stands at 0 (R152). -/
def breakOff (n us : Nat) (s : State) : State :=
  let s1 := if (ch s n).raw then rawTo n false (nowUs s - us) s else s
  if (ch s1 n).filt then debounceTo n s1 else s1

/-- Break samples have persisted for `us` µs: WIREBREAK is declared, no earlier than that time after the settings took effect (R152,
R162). -/
def execWirebreak (n : BitVec 8) (ua us : Nat) (s : State) : Out :=
  let k := n.toNat
  let c := ch s k
  let t := max (chDeb s k) 1000
  if decide (k < nCh s) && chMode s k = 3 && !c.wb && isBreak s k ua && decide (t ≤ us)
      && decide (c.setCyc + cycUs t ≤ s.time.cyc) then
    let s1 := breakOff k us s
    .next (settle (fireIf (fbit (chCfg s k 0x34) 2) k (chPut s1 k { ch s1 k with wb := true })))
  else .next s

/-- Samples of 0.3 mA or more have persisted for 10 ms: WIREBREAK clears, and a filter state of 1 appears as a rising edge
with the timestamp of the filter's own change (R152). -/
def execWirebreakClear (n : BitVec 8) (ua us : Nat) (s : State) : Out :=
  let k := n.toNat
  let c := ch s k
  if decide (k < nCh s) && chMode s k = 3 && c.wb && decide (300 ≤ ua) && decide (10000 ≤ us) then
    let s1 := fireIf (fbit (chCfg s k 0x34) 2) k (chPut s k { c with wb := false, openCyc := s.time.cyc })
    .next (settle (if c.filt then chEdge k true c.filtTs s1 else s1))
  else .next s

/-- A second in which the debounced state has been 0 without WIREBREAK for the 10 s before it feeds the learnt open-contact current,
at most once a second (R153, log 32). -/
def execWbLearn (n : BitVec 8) (ua : Nat) (s : State) : Out :=
  let k := n.toNat
  let c := ch s k
  if decide (k < nCh s) && chMode s k = 3 && fbit (chCfg s k 0xC) 9 && !c.wb && !c.filt && !c.calActive
      && decide (c.openCyc + cycUs 10000000 ≤ s.time.cyc) && secondFrom s c.learnCyc then
    let acc := if c.learnt then c.ioffAcc + ua - c.ioffAcc / 3600 else 3600 * ua
    .next (chPut s k { c with learnCyc := s.time.cyc, ioffAcc := acc, ioff := min 1023 (acc / 3600), learnt := true })
  else .next s

/-! ### Overload -/

/-- An output trips (R156, R158): cause, trip count of the last 60 s with its lock, the contained fault, the event. -/
def chTrip (n cause : Nat) (s : State) : State :=
  let c := ch s n
  let trips := c.trips.filter (fun t => decide (s.time.cyc < t + cycUs 60000000)) ++ [s.time.cyc]
  let s1 := chPut s n { c with
    trip := true, cause := BitVec.ofNat 4 cause, tripCyc := s.time.cyc, trips := trips
    lock := c.lock || decide (8 ≤ trips.length), rearmReq := false }
  settle (fireIf (fbit (chCfg s n 0x34) 3) n (containedFault n 0x19 s1))

/-- The own switch of an output channel is on. -/
def isOn (s : State) (n : Nat) : Bool := decide (n < nCh s) && isOut s n && (ch s n).drive && !(ch s n).trip

/-- Current at the limit for 20 µs (R156). -/
def execShort (n : BitVec 8) (us : Nat) (s : State) : Out :=
  if isOn s n.toNat && decide (20 ≤ us) then .next (chTrip n.toNat 1 s) else .next s

/-- Current above 0.65 A for longer than INRUSH (R156); the log keeps the highest current (R325). -/
def execOvercurrent (n : BitVec 8) (ma us : Nat) (s : State) : Out :=
  if isOn s n.toNat && decide (650 < ma) && decide (100 * fld (chCfg s n.toNat 0x10) 1 8 < us) then
    let s1 := chPut s n.toNat { ch s n.toNat with measI := BitVec.ofNat 16 ma }
    .next (chTrip n.toNat 2 { s1 with btn := { s1.btn with
      curMax := mput (fun _ => 0) s.btn.curMax n.toNat (max (mget (fun _ => 0) s.btn.curMax n.toNat) (satN 0xFFFF ma)) } })
  else .next s

/-- A switch junction above its limit (R156). -/
def execThermal (n : BitVec 8) (s : State) : Out :=
  if isOn s n.toNat then .next (chTrip n.toNat 3 s) else .next s

/-- The effective limit of a group in mA (R157). -/
def grpLimit (s : State) (g : Nat) : Nat := min (fld (force s (aGRP g + 0x10)) 0 12) (gr s g).derated

/-- The highest-numbered channel of a group that is switched on. -/
def highestOn (s : State) (g : Nat) : Option Nat :=
  ((List.range 8).reverse.map (fun i => 8 * g + i)).find? (fun n => isOn s n)

/-- The group current has stood above the effective limit for `us` µs: after 100 ms, and then every 10 ms, the
highest-numbered channel that is on is shed (R157). -/
def execGroupShed (g : BitVec 5) (ma us : Nat) (s : State) : Out :=
  let k := g.toNat
  let q := gr s k
  if decide (k < nGroups s) && decide (grpLimit s k < ma) && decide (100000 ≤ us)
      && (decide (q.shedCyc = 0) || decide (q.shedCyc + cycUs 10000 ≤ s.time.cyc)) then
    match highestOn s k with
    | some n =>
      let m : BitVec 16 := BitVec.ofNat 16 ma
      let s1 := grPut s k { q with
        shed := true, shedCyc := s.time.cyc, ma := m, peak := if q.peak < m then m else q.peak }
      .next (chTrip n 4 (fireIf (fbit (force s (aGRP k)) 9) (440 + k) s1))
    | none => .next s
  else .next s

/-- CH_FAULT.REARM write: the CP's re-arm takes effect at the next commit or T0 + 2 µs (R158). -/
def execChFaultRearm (n : BitVec 8) (s : State) : Out :=
  cpRow (aCH n.toNat + 0x30) true s <|
  let c := ch s n.toNat
  if n.toNat < nCh s ∧ c.trip then .next (chPut s n.toNat { c with rearmReq := true }) else .next s

/-- A re-arm takes effect (R158): within 100 ms of the trip it is ignored; the lock refuses the LE and yields to the CP. -/
def rearm (n : Nat) (fromCp : Bool) (s : State) : State :=
  let c := ch s n
  if c.trip && decide (c.tripCyc + cycUs 100000 ≤ s.time.cyc) && (fromCp || !c.lock) then
    chPut s n { c with trip := false, lock := c.lock && !fromCp, rearmReq := c.rearmReq && !fromCp }
  else chPut s n { c with rearmReq := c.rearmReq && !fromCp }

/-! ### Readback and drive-sense -/

/-- Readback has differed from the own switch for longer than RB_TIMEOUT; a terminal that a partner may hold ON is exempt
(R159). -/
def execMismatch (n : BitVec 8) (us : Nat) (s : State) : Out :=
  let k := n.toNat
  let c := ch s k
  let exempt := c.filt && !c.drive && decide (s.pair.role ≠ .solo)
  if decide (k < nCh s) && chMode s k = 5 && (c.filt != c.drive) && !c.mismatch && !exempt
      && decide (1000 * fld (chCfg s k 0x10) 16 8 < us) then
    .next (fireIf (fbit (chCfg s k 0x34) 4) k (chPut s k { c with mismatch := true }))
  else .next s

/-- DRIVE_SENSE changes (R160); foreign drive makes an old active release its outputs (R213). -/
def execDriveSense (n : BitVec 8) (on : Bool) (s : State) : Out :=
  let k := n.toNat
  let c := ch s k
  if decide (k < nCh s) && isOut s k && (c.driveSense != on)
      && (!on || (!c.drive && decide (c.driveCyc + cycUs 100 ≤ s.time.cyc))) then
    .next (settle (releaseCheck (fireIf (fbit (chCfg s k 0x34) 6) k (chPut s k { c with driveSense := on }))))
  else .next s

/-! ### Settling -/

/-- N of R162 for a channel whose settings took effect, `pulsedChange` where PULSED changed. -/
def settleTicks (s : State) (n : Nat) (pulsedChange : Bool) : Nat :=
  1 + (chDeb s n + 20 + s.tick.period - 1) / s.tick.period + (if pulsedChange then 2 else 0)

/-- The front end takes the mode and the wetting of the configuration, unless its group's L+ is lost (R145). -/
def feTake (s : State) (n : Nat) (c : ChanSt) : ChanSt :=
  if (gr s (n / 8)).lost then { c with feMode := 0, fePulsed := false }
  else { c with feMode := BitVec.ofNat 3 (chMode s n), fePulsed := chPulsed s n, fePeriod := fld (chCfg s n 8) 1 7 }

/-- The settings of a channel take effect: SETTLING begins, the filter is loaded with the raw state without an edge, and
wire-break classification restarts, so that a standing WIREBREAK clears (R162); a plain output's raw state is its drive (R30), the
window fraction starts again where it no longer adapts or wetting is newly pulsed (R151), and MISMATCH and DRIVE_SENSE stay only where
their mode and condition do (R159, R160); a change of DRIVE_SENSE or WIREBREAK fires as any other (R169). -/
def settleStart (n : Nat) (pulsedChange : Bool) (s : State) : State :=
  let c := ch s n
  let raw := if chMode s n = 4 then c.drive else c.raw
  let restart := pulsedChange || !chPulsed s n || !fbit (chCfg s n 8) 8
  let en := chCfg s n 0x34
  fireIf ((c.driveSense && !isOut s n && fbit en 6) || (c.wb && fbit en 2)) n (chPut s n (feTake s n { c with
    raw := raw, winPct := if restart then 10 else c.winPct, wetLimit := c.wetLimit && !restart
    mismatch := c.mismatch && decide (chMode s n = 5) && (raw != c.drive), driveSense := c.driveSense && isOut s n
    setCyc := s.time.cyc, openCyc := s.time.cyc, adaptCyc := s.time.cyc
    settleLeft := settleTicks s n pulsedChange, filt := raw, filtTs := nowUs s, edgePend := false, wb := false
    confirm := none, quietCyc := s.time.cyc }))

/-- The last tick of a settling count runs out at a boundary (R162). -/
def execSettlingEnd (n : BitVec 8) (s : State) : Out :=
  let c := ch s n.toNat
  if n.toNat < nCh s ∧ c.settleLeft = 1 ∧ s.tick.next ≤ s.time.ns then
    .next (chPut s n.toNat { c with settleLeft := 0 })
  else .next s

/-! ### Calibration -/

/-- A channel is due 24 h of operating time after its last success (R163). -/
def execCalDue (n : BitVec 8) (s : State) : Out :=
  let c := ch s n.toNat
  if hasInput s n.toNat && decide (1440 ≤ c.calAgeMin) then .next (chPut s n.toNat { c with calDue := true })
  else .next s

/-- The terminal is quiet: raw and debounced states OFF for 10 s, and in mode 5 the own switch off for 10 s (R163). -/
def calQuiet (s : State) (n : Nat) : Bool :=
  let c := ch s n
  !c.raw && !c.filt && decide (c.quietCyc + cycUs 10000000 ≤ s.time.cyc) &&
    (decide (chMode s n ≠ 5) || (!c.drive && decide (c.driveCyc + cycUs 10000000 ≤ s.time.cyc)))

/-- A window is wanted: due, requested, or a retry 10 min after a discarded result (R163, R165, R166). -/
def calWanted (s : State) (n : Nat) : Bool :=
  let c := ch s n
  c.calReq || (if c.calRetry then decide (c.calRetryCyc + cycUs 600000000 ≤ s.time.cyc) else c.calDue)

/-- A due channel starts its 2 ms window at a whole second; one channel of a group at a time (R163). -/
def execCalWindow (n : BitVec 8) (s : State) : Out :=
  let k := n.toNat
  let c := ch s k
  let busy := (List.range 8).any (fun i => (ch s (8 * (k / 8) + i)).calActive)
  if hasInput s k && calWanted s k && calQuiet s k && !busy && decide (nowUs s % 1000000 = 0) then
    .next (chPut s k { c with calActive := true, calStart := s.time.cyc, calReq := false })
  else .next s

/-- The calibration registers as CH_CAL lays them out. -/
def calWord (thr ilim : Int) : Word := wordOf ((thr % 256).toNat + 256 * (ilim % 256).toNat)

/-- The record of a channel's coefficients: key 0x0100 + n, critical (R313, R317). -/
def calRec (s : State) (n : Nat) (thr ilim : Int) : NvReq := {
  key := BitVec.ofNat 16 (0x0100 + n), fmt := ownFmt s, crit := true
  data := [BitVec.ofInt 8 thr, BitVec.ofInt 8 ilim], seq := 0 }

/-- At the end of the window the result is applied and stored, or discarded (R165, R166); a threshold trim more than 16
steps from the first calibration raises REF_DRIFT (R377). -/
def execCalResult (n : BitVec 8) (thr ilim : Int) (terminal : Bool) (s : State) : Out :=
  let k := n.toNat
  let c := ch s k
  if decide (k < nCh s) && c.calActive && decide (c.calStart + cycUs 2000 ≤ s.time.cyc) then
    if terminal then .next (calDiscard k 3 s)
    else if thr < -64 ∨ 63 < thr ∨ ilim < -32 ∨ 31 < ilim then
      .next (notice 0x09 k 0 (calWord c.thrTrim c.ilimTrim) (calDiscard k 4 s))
    else
      let moved := decide (16 < (thr - c.thrFirst.getD thr).natAbs)
      .next (gradNotice moved 8 (wordOf k) (nvEnqueue (calRec s k thr ilim) (corrected (chPut s k { c with
        calActive := false, calLast := 1, thrTrim := thr, ilimTrim := ilim, calAgeMin := 0, calDue := false
        calRetry := false, calOverdue := false, thrFirst := some (c.thrFirst.getD thr) }))))
  else .next s

/-- The watch comparator sees the terminal rise: the window aborts, and the edge is timestamped as without it (R164). -/
def execAbortEdge (n : BitVec 8) (s : State) : Out :=
  let k := n.toNat
  if k < nCh s ∧ (ch s k).calActive then .next (abortWindow k s) else .next s

/-- Coefficients older than 720 h (R166). -/
def execCalOverdue (n : BitVec 8) (s : State) : Out :=
  let c := ch s n.toNat
  if n.toNat < nCh s ∧ 43200 < c.calAgeMin then .next (chPut s n.toNat { c with calOverdue := true }) else .next s

/-- CH_CAL_STATUS.REQ write (R166). -/
def execCalReq (n : BitVec 8) (s : State) : Out :=
  cpRow (aCH n.toNat + 0x28) true s <|
  if n.toNat < nCh s then .next (chPut s n.toNat { ch s n.toNat with calReq := true }) else .next s

/-! ### Group field supply -/

/-- The front end of channel `n` has lost its L+: it draws no current, so that its samples show OFF from now on, and the first one
does so where the fabric clock stands still (R145, log 89). -/
def frontLost (s : State) (n : Nat) : State :=
  let s1 := if (ch s n).raw && feSampled s n then rawTo n false (nowUs s) s else s
  let c := ch s1 n
  chPut s1 n { c with raw := c.raw && decide (c.feMode = 0 ∨ c.feMode = 4), feMode := 0, fePulsed := false }

/-- L+ below 9.0 V for 1 ms: the group electronics lose their state; L+ then lies below every LOW_THR (R145, R167). -/
def execFieldSupplyLost (g : BitVec 5) (s : State) : Out :=
  let k := g.toNat
  let q := gr s k
  if k < nGroups s then
    let s1 := (List.range 8).foldl (fun a i => frontLost a (8 * k + i)) s
    let s2 := grPut s1 k { q with lost := true, reload := false, hardOff := false, low := true, lowSeen := q.lowSeen || !q.low }
    .next (settle (fireIf (!q.low && fbit (force s (aGRP k)) 8) (440 + k) s2))
  else .next s

/-- L+ above 12.0 V for 1 ms: the front end is reloaded at the next tick boundary if the logic supply is good (R145). -/
def execFieldSupplyReturn (g : BitVec 5) (s : State) : Out :=
  let k := g.toNat
  if k < nGroups s ∧ (gr s k).lost then
    .next (grPut s k { gr s k with lost := false, reload := s.sys.powered && !s.sys.supplyLost })
  else .next s

/-- LOW_THR in mV. -/
def lowThr (s : State) (g : Nat) : Nat := 100 * fld (force s (aGRP g)) 0 8

/-- L+ below LOW_THR: LOW rises (R167). -/
def execLow (g : BitVec 5) (mv : BitVec 16) (s : State) : Out :=
  let k := g.toNat
  let q := gr s k
  if k < nGroups s ∧ q.low = false ∧ mv.toNat < lowThr s k then
    .next (settle (fireIf (fbit (force s (aGRP k)) 8) (440 + k)
      (grPut s k { q with low := true, lowSeen := true, mv := mv })))
  else .next s

/-- L+ 0.5 V above LOW_THR: LOW clears (R167). -/
def execLowClear (g : BitVec 5) (mv : BitVec 16) (s : State) : Out :=
  let k := g.toNat
  let q := gr s k
  if k < nGroups s ∧ q.low = true ∧ lowThr s k + 500 ≤ mv.toNat then
    .next (settle (grPut s k { q with low := false, mv := mv }))
  else .next s

/-- The energy bin of a surge (R325). -/
def surgeBin (uj : Nat) : Nat :=
  if uj < 200 then 0 else if uj < 500 then 1 else if uj < 1000 then 2 else if uj < 2000 then 3
  else if uj < 5000 then 4 else if uj < 10000 then 5 else if uj < 20000 then 6 else 7

/-- A surge above 100 µJ is counted, and its energy recorded; the group's total passing 20 J raises SURGE_BUDGET
(R168, R325, R379). -/
def execSurge (g : BitVec 5) (uj : Nat) (s : State) : Out :=
  let k := g.toNat
  let q := gr s k
  let i := 8 * k + surgeBin uj
  if k < nGroups s ∧ 100 < uj then
    let s1 := grPut s k { q with
      surge := true, surgeLast := satN 0xFFFF uj, surgeCount := satN 0xFFFF (q.surgeCount + 1) }
    let e := mget (fun _ => 0) s.grd.surgeMj k
    .next (gradNotice (decide (e ≤ 20000000) && decide (20000000 < e + uj)) 12 (wordOf k) { s1 with
      btn := { s1.btn with
        surgeHist := mput (fun _ => 0) s.btn.surgeHist i (satN 0xFFFFFFFF (mget (fun _ => 0) s.btn.surgeHist i + 1)) }
      grd := { s1.grd with surgeMj := mput (fun _ => 0) s.grd.surgeMj k (e + uj) } })
  else .next s

end Sys2Proof.Machine
end

