-- ==== Sys2Proof/Machine/Flags.lean ====
section
/-! DEFINITION. Integer arithmetic of the logic engine with its flags (R68, R70, R72). A result is a word and the flags
that the operation sets: bit 0 OV, 1 DZ, 2 FI, 3 FO, 4 FZ. -/

namespace Sys2Proof.Machine

abbrev FlagSet := BitVec 5
def fOV : FlagSet := 1
def fDZ : FlagSet := 2
def fFI : FlagSet := 4
def fFO : FlagSet := 8
def fFZ : FlagSet := 16

/-- The word of an integer, wrapped. -/
def wrap (i : Int) : Word := BitVec.ofInt 32 i

/-- The word of an integer, clamped to the signed range, with OV where it was clamped (R70). -/
def sat32 (i : Int) : Word × FlagSet :=
  if 0x7FFFFFFF < i then (0x7FFFFFFF, fOV) else if i < -0x80000000 then (0x80000000, fOV) else (wrap i, 0)

def iAdd (a b : Word) : Word × FlagSet := (wrap (a.toInt + b.toInt), 0)
def iSub (a b : Word) : Word × FlagSet := (wrap (a.toInt - b.toInt), 0)
def iRsb (a b : Word) : Word × FlagSet := (wrap (b.toInt - a.toInt), 0)
def iMul (a b : Word) : Word × FlagSet := (wrap (a.toInt * b.toInt), 0)
def iMulh (a b : Word) : Word × FlagSet := (wrap ((a.toInt * b.toInt) / 4294967296), 0)
def iAdds (a b : Word) : Word × FlagSet := sat32 (a.toInt + b.toInt)
def iSubs (a b : Word) : Word × FlagSet := sat32 (a.toInt - b.toInt)
def iMin (a b : Word) : Word × FlagSet := (if b.toInt < a.toInt then b else a, 0)
def iMax (a b : Word) : Word × FlagSet := (if a.toInt < b.toInt then b else a, 0)
def iAbs (b : Word) : Word × FlagSet := sat32 (b.toInt.natAbs : Int)
def iNeg (b : Word) : Word × FlagSet := sat32 (-b.toInt)

/-- DIV: signed, truncated towards zero, with the exceptional cases of R70. -/
def iDiv (a b : Word) : Word × FlagSet :=
  if b = 0 then (if a.toInt < 0 then 0x80000000 else 0x7FFFFFFF, fDZ)
  else if a = 0x80000000 ∧ b = 0xFFFFFFFF then (0x7FFFFFFF, fOV)
  else (wrap (a.toInt.tdiv b.toInt), 0)

/-- MOD: the remainder of DIV, with the sign of A (R68, R70). -/
def iMod (a b : Word) : Word × FlagSet :=
  if b = 0 then (a, fDZ)
  else if a = 0x80000000 ∧ b = 0xFFFFFFFF then (0, fOV)
  else (wrap (a.toInt.tmod b.toInt), 0)

def iDivu (a b : Word) : Word × FlagSet := if b = 0 then (0xFFFFFFFF, fDZ) else (BitVec.ofNat 32 (a.toNat / b.toNat), 0)
def iModu (a b : Word) : Word × FlagSet := if b = 0 then (a, fDZ) else (BitVec.ofNat 32 (a.toNat % b.toNat), 0)

/-! ### Logic, shifts and conversions -/

def lShl (a b : Word) : Word := a <<< (b.toNat % 32)
def lShr (a b : Word) : Word := a >>> (b.toNat % 32)
def lSar (a b : Word) : Word := a.sshiftRight (b.toNat % 32)
def lRol (a b : Word) : Word := a.rotateLeft (b.toNat % 32)
def lRor (a b : Word) : Word := a.rotateRight (b.toNat % 32)

def sx8 (b : Word) : Word := (b.truncate 8).signExtend 32
def sx16 (b : Word) : Word := (b.truncate 16).signExtend 32
def zx8 (b : Word) : Word := b &&& 0xFF
def zx16 (b : Word) : Word := b &&& 0xFFFF

/-- Decimal digit `i` of a BCD word. -/
def nibble (b : Word) (i : Nat) : Nat := b.toNat / 16 ^ i % 16

/-- 8-digit BCD to integer; a digit above 9 gives 0 with OV (R70). -/
def bcdi (b : Word) : Word × FlagSet :=
  if (List.range 8).all (fun i => decide (nibble b i ≤ 9)) then
    (BitVec.ofNat 32 ((List.range 8).foldl (fun n i => n + nibble b i * 10 ^ i) 0), 0)
  else (0, fOV)

/-- Integer 0-99,999,999 to 8-digit BCD, with the exceptional cases of R70. -/
def ibcd (b : Word) : Word × FlagSet :=
  if b.toInt < 0 then (0, fOV)
  else if 99999999 < b.toInt then (0x99999999, fOV)
  else (BitVec.ofNat 32 ((List.range 8).foldl (fun n i => n + b.toNat / 10 ^ i % 10 * 16 ^ i) 0), 0)

/-- The byte order reversed. -/
def bswap (b : Word) : Word :=
  BitVec.ofNat 32 (b.toNat % 256 * 16777216 + b.toNat / 256 % 256 * 65536 + b.toNat / 65536 % 256 * 256 +
    b.toNat / 16777216)

end Sys2Proof.Machine
end

