-- ==== Sys2Proof/Machine/Float.lean ====
section
/-! DEFINITION. Floating arithmetic of the logic engine: IEEE 754 binary32 with the restrictions of R71. Values are taken
apart into exact integers, computed exactly and rounded once. -/

namespace Sys2Proof.Machine

/-- A binary32 operand as the logic engine reads it: a subnormal counts as zero of the same sign (R71). A finite value
is `m` times two to the power `e`. -/
inductive FVal where
  | nan (signalling : Bool)
  | inf (neg : Bool)
  | zero (neg : Bool)
  | fin (neg : Bool) (m : Nat) (e : Int)
deriving DecidableEq, Repr

/-- Every NaN result (R71). -/
def qNaN : Word := 0x7FC00000

def fSign (w : Word) : Bool := w.getLsbD 31

/-- An operand taken apart. -/
def fDecode (w : Word) : FVal :=
  let n := w.toNat
  let ex := n / 8388608 % 256
  let fr := n % 8388608
  if ex = 255 then (if fr = 0 then .inf (fSign w) else .nan (decide (fr < 4194304)))
  else if ex = 0 then .zero (fSign w)
  else .fin (fSign w) (fr + 8388608) ((ex : Int) - 150)

def fZero (neg : Bool) : Word := if neg then 0x80000000 else 0
def fInf (neg : Bool) : Word := if neg then 0xFF800000 else 0x7F800000

/-- Rounds `m` times two to the power `e`, a little more where `sticky`, to 24 bits, to nearest with ties to even, then
flushes a tiny result and sets FO on overflow (R71). `m` is not 0. -/
def fRound (neg : Bool) (m : Nat) (e : Int) (sticky : Bool) : Word × FlagSet :=
  let len := m.log2 + 1
  let sh := len - 24
  let q0 := if len ≤ 24 then m * 2 ^ (24 - len) else m / 2 ^ sh
  let e0 : Int := if len ≤ 24 then e - ((24 - len : Nat) : Int) else e + (sh : Int)
  let rem := if len ≤ 24 then 0 else m % 2 ^ sh
  let half := if len ≤ 24 then 1 else 2 ^ (sh - 1)
  let up := decide (half < rem) || (decide (rem = half) && (sticky || decide (q0 % 2 = 1)))
  let q1 := if up then q0 + 1 else q0
  let q := if q1 = 16777216 then 8388608 else q1
  let ex : Int := (if q1 = 16777216 then e0 + 1 else e0) + 150
  if ex < 1 then (fZero neg, 0)
  else if 254 < ex then (fInf neg, fFO)
  else (BitVec.ofNat 32 ((if neg then 2147483648 else 0) + ex.toNat * 8388608 + (q - 8388608)), 0)

/-- The signed integer of a value at exponent `e0`, which is not above its own. -/
def fScaled (neg : Bool) (m : Nat) (e e0 : Int) : Int :=
  (if neg then -1 else 1) * ((m * 2 ^ (e - e0).toNat : Nat) : Int)

/-- Some operand is a signalling NaN. -/
def anySig (a b : FVal) : Bool := a = .nan true || b = .nan true

/-- The sum of two finite nonzero values. -/
def fSum (s1 : Bool) (m1 : Nat) (e1 : Int) (s2 : Bool) (m2 : Nat) (e2 : Int) : Word × FlagSet :=
  let e := if e1 ≤ e2 then e1 else e2
  let v := fScaled s1 m1 e1 e + fScaled s2 m2 e2 e
  if v = 0 then (0, 0) else fRound (decide (v < 0)) v.natAbs e false

/-- FADD over taken-apart operands; `wa` and `wb` are the operand words. -/
def fAddV (a b : FVal) (wa wb : Word) : Word × FlagSet :=
  match a, b with
  | .nan _, _ | _, .nan _ => (qNaN, if anySig a b then fFI else 0)
  | .inf s1, .inf s2 => if s1 = s2 then (fInf s1, 0) else (qNaN, fFI)
  | .inf s1, _ => (fInf s1, 0)
  | _, .inf s2 => (fInf s2, 0)
  | .zero s1, .zero s2 => (fZero (s1 && s2), 0)
  | .zero _, .fin _ _ _ => (wb, 0)
  | .fin _ _ _, .zero _ => (wa, 0)
  | .fin s1 m1 e1, .fin s2 m2 e2 => fSum s1 m1 e1 s2 m2 e2

def fAdd (a b : Word) : Word × FlagSet := fAddV (fDecode a) (fDecode b) a b

/-- The sign bit inverted. -/
def fFlip (w : Word) : Word := w ^^^ 0x80000000

def fSub (a b : Word) : Word × FlagSet := fAddV (fDecode a) (fDecode (fFlip b)) a (fFlip b)

def fMul (a b : Word) : Word × FlagSet :=
  let x := fDecode a
  let y := fDecode b
  let s := fSign a != fSign b
  match x, y with
  | .nan _, _ | _, .nan _ => (qNaN, if anySig x y then fFI else 0)
  | .inf _, .zero _ | .zero _, .inf _ => (qNaN, fFI)
  | .inf _, _ | _, .inf _ => (fInf s, 0)
  | .zero _, _ | _, .zero _ => (fZero s, 0)
  | .fin _ m1 e1, .fin _ m2 e2 => fRound s (m1 * m2) (e1 + e2) false

def fDiv (a b : Word) : Word × FlagSet :=
  let x := fDecode a
  let y := fDecode b
  let s := fSign a != fSign b
  match x, y with
  | .nan _, _ | _, .nan _ => (qNaN, if anySig x y then fFI else 0)
  | .inf _, .inf _ | .zero _, .zero _ => (qNaN, fFI)
  | .inf _, _ => (fInf s, 0)
  | _, .inf _ => (fZero s, 0)
  | .zero _, _ => (fZero s, 0)
  | .fin _ _ _, .zero _ => (fInf s, fFZ)
  | .fin _ m1 e1, .fin _ m2 e2 =>
    fRound s (m1 * 2 ^ 60 / m2) (e1 - e2 - 60) (decide (m1 * 2 ^ 60 % m2 ≠ 0))

/-- The order of two values that are not NaN: a key that rises with the value, zeros of both signs apart by `zs`. -/
def fKey (zs : Bool) (v : FVal) : Int :=
  match v with
  | .nan _ => 0
  | .inf n => if n then -(2 ^ 300) else 2 ^ 300
  | .zero n => if zs && n then -1 else 0
  | .fin n m e => (if n then -2 else 2) * ((m * 2 ^ (e + 149).toNat : Nat) : Int)

/-- An operand as a result: a subnormal is read as zero, a NaN delivers 0x7FC0_0000 (R71). -/
def fDeliver (w : Word) : Word :=
  match fDecode w with
  | .nan _ => qNaN
  | .zero n => fZero n
  | _ => w

/-- FMIN and FMAX: the other operand where exactly one is NaN; FI where a NaN is signalling (R71). -/
def fPick (takeB : Int → Int → Bool) (a b : Word) : Word × FlagSet :=
  let x := fDecode a
  let y := fDecode b
  let fl := if anySig x y then fFI else 0
  match x, y with
  | .nan _, .nan _ => (qNaN, fl)
  | .nan _, _ => (fDeliver b, fl)
  | _, .nan _ => (fDeliver a, fl)
  | _, _ => (fDeliver (if takeB (fKey true x) (fKey true y) then b else a), fl)

def fMin (a b : Word) : Word × FlagSet := fPick (fun x y => decide (y < x)) a b
def fMax (a b : Word) : Word × FlagSet := fPick (fun x y => decide (x < y)) a b

/-- FABS and FNEG are quiet; on a NaN they deliver 0x7FC0_0000 (R71). -/
def fAbs (b : Word) : Word × FlagSet :=
  match fDecode b with
  | .nan _ => (qNaN, 0)
  | _ => (fDeliver b &&& 0x7FFFFFFF, 0)

def fNeg (b : Word) : Word × FlagSet :=
  match fDecode b with
  | .nan _ => (qNaN, 0)
  | _ => (fFlip (fDeliver b), 0)

/-- The integer nearest to `m` times two to the power `e`, ties to even, or the one towards zero. -/
def fToInt (nearest : Bool) (m : Nat) (e : Int) : Nat :=
  if 0 ≤ e then m * 2 ^ e.toNat
  else
    let d := 2 ^ (-e).toNat
    let q := m / d
    let r := m % d
    if nearest && (decide (d < 2 * r) || (decide (2 * r = d) && decide (q % 2 = 1))) then q + 1 else q

/-- FTOI and FTOIZ: out-of-range values saturate, a NaN delivers 0, FI in both cases (R71). -/
def fToI (nearest : Bool) (b : Word) : Word × FlagSet :=
  match fDecode b with
  | .nan _ => (0, fFI)
  | .inf n => (if n then 0x80000000 else 0x7FFFFFFF, fFI)
  | .zero _ => (0, 0)
  | .fin n m e =>
    let v : Int := (if n then -1 else 1) * ((fToInt nearest m e : Nat) : Int)
    if 0x7FFFFFFF < v then (0x7FFFFFFF, fFI) else if v < -0x80000000 then (0x80000000, fFI) else (wrap v, 0)

/-- ITOF: a signed integer to binary32; it sets no flag (R71). -/
def iToF (b : Word) : Word × FlagSet :=
  if b = 0 then (0, 0) else ((fRound (decide (b.toInt < 0)) b.toInt.natAbs 0 false).1, 0)

/-- A floating relation and its FI (R69): `rel` over the keys, `nanRes` when an operand is NaN; `sigOnly` says that only
a signalling NaN sets FI. -/
def fRel (rel : Int → Int → Bool) (nanRes sigOnly : Bool) (a b : Word) : Bool × FlagSet :=
  let x := fDecode a
  let y := fDecode b
  match x, y with
  | .nan _, _ | _, .nan _ => (nanRes, if !sigOnly || anySig x y then fFI else 0)
  | _, _ => (rel (fKey false x) (fKey false y), 0)

def fEq := fRel (fun x y => decide (x = y)) false true
def fNe := fRel (fun x y => decide (x ≠ y)) true true
def fLt := fRel (fun x y => decide (x < y)) false false
def fLe := fRel (fun x y => decide (x ≤ y)) false false
def fGt := fRel (fun x y => decide (y < x)) false false
def fGe := fRel (fun x y => decide (y ≤ x)) false false
def fUn := fRel (fun _ _ => false) true true

end Sys2Proof.Machine
end

