-- ==== Sys2Proof/Machine/Operands.lean ====
section
/-! DEFINITION. The operand forms of the logic engine (R56, R66, R67) and what one instruction of a bundle reads,
writes and traps on, always from the state before the bundle (R49). -/

namespace Sys2Proof.Machine

/-- The working state of a lane. -/
def lane (s : State) (l : Nat) : LaneSt := mget (fun _ => {}) s.le.lanes l

/-- Accumulator `i` of a lane. -/
def accOf (x : LaneSt) (i : Nat) : DWord := mget (fun _ => ⟨0, 0⟩) x.acc i

/-- The effect of an instruction that does nothing and costs 1 cycle. -/
def effNop (c : At) : LaneEff := {
  lane := c.lane, writes := [], traps := [], ctrl := none, isCtl := false, reads := [], indirect := false, targets := [],
  stores := [], cycles := 1, viols := [], memFaults := [] }

/-- An illegal instruction: trap ILLEGAL (R54, R86). -/
def effIllegal (c : At) : LaneEff := { effNop c with traps := [4] }

/-- A control instruction that does `e`: it counts for R52 whatever it does, also where it is illegal. -/
def effCtl (e : LaneEff) : LaneEff := { e with isCtl := true }

/-- What an LE read of word `a` delivers: a refused read delivers value 0 with tag MEMORY (R298). -/
def leRead (s : State) (a : Nat) : DWord := if winAllows s 0 a false then readWord s a else ⟨0, tagMEMORY⟩

/-- The violation that an LE read of word `a` is. -/
def readViol (s : State) (a : Nat) : List (BitVec 21 × Bool) :=
  if winAllows s 0 a false then [] else [(BitVec.ofNat 21 a, false)]

/-- The violation that an LE write of word `a` is; writes to I and S are ignored, not checked (R297). -/
def writeViol (s : State) (a : Nat) : List (BitVec 21 × Bool) :=
  if inI a || inS a || winAllows s 0 a true then [] else [(BitVec.ofNat 21 a, true)]

/-- The memory faults that an LE read of word `a` finds. -/
def leReadFaults (s : State) (a : Nat) : List (Nat × Nat) := if winAllows s 0 a false then readFaults s a else []

/-- Where a W-group operand lies (R66). `refused` carries the tag of a pointer of class bad or not present (R67). -/
inductive Place where
  | mem (a : Nat)
  | acc (l i : Nat)
  | refused (t : Tag)
deriving DecidableEq, Repr

/-- The word that a pointer names: its bits [20:0] (R66, R67). -/
def ptrTarget (p : DWord) : Nat := p.val.toNat % 2097152

/-- The operand's place under its addressing mode (R66, R67). -/
def opdPlace (s : State) (c : At) (m : BitVec 2) (w : BitVec 21) : Place :=
  match m.toNat with
  | 0 => .mem w.toNat
  | 1 => .mem ((w.toNat + (accOf (lane s c.lane.toNat) 7).val.toNat) % 2097152)
  | 2 =>
    let p := leRead s w.toNat
    if 2 ≤ tagClass p.tag then .refused p.tag else .mem (ptrTarget p)
  | _ => .acc (w.toNat / 8 % 4) (w.toNat % 8)

/-- In register mode address bits [20:5] must be zero (R66). -/
def opdIllegal (m : BitVec 2) (w : BitVec 21) : Bool := decide (m = 3 ∧ 32 ≤ w.toNat)

/-- The accesses that finding the operand's place makes: the pointer word of an indirect operand. -/
def opdBase (s : State) (c : At) (m : BitVec 2) (w : BitVec 21) : LaneEff :=
  if m = 2 then { effNop c with
    reads := [w.toNat], indirect := true, viols := readViol s w.toNat, memFaults := leReadFaults s w.toNat }
  else effNop c

/-- The address whose bank the access to the operand takes: also of a refused target (R91). -/
def opdBankAddr (s : State) (c : At) (m : BitVec 2) (w : BitVec 21) : List Nat :=
  match m.toNat with
  | 0 => [w.toNat]
  | 1 => [(w.toNat + (accOf (lane s c.lane.toNat) 7).val.toNat) % 2097152]
  | 2 => [ptrTarget (leRead s w.toNat)]
  | _ => []

/-- The operand's value. -/
def opdVal (s : State) (c : At) (m : BitVec 2) (w : BitVec 21) : DWord :=
  match opdPlace s c m w with
  | .mem a => leRead s a
  | .acc l i => accOf (lane s l) i
  | .refused t => ⟨0, t⟩

/-- The accesses, violations, memory faults and BAD_POINTER trap of loading the operand. -/
def opdLoad (s : State) (c : At) (m : BitVec 2) (w : BitVec 21) : LaneEff :=
  let e := opdBase s c m w
  let k := opdBankAddr s c m w
  let e1 := if m = 2 then { e with targets := k } else { e with reads := e.reads ++ k }
  match opdPlace s c m w with
  | .mem a => { e1 with viols := e1.viols ++ readViol s a, memFaults := e1.memFaults ++ leReadFaults s a }
  | .acc _ _ => e1
  | .refused _ => { e1 with traps := [3] }

/-- An instruction that reads its operand: `f` gives the writes from the lane's state and the operand. -/
def wLoad (s : State) (c : At) (m : BitVec 2) (w : BitVec 21) (cyc : Nat) (f : LaneSt → DWord → List LeWrite) :
    LaneEff :=
  if opdIllegal m w then effIllegal c
  else { opdLoad s c m w with cycles := cyc, writes := f (lane s c.lane.toNat) (opdVal s c m w) }

/-- The write of a store to the operand: the bits of `v` under `mask`, and the tag. -/
def storeWrite (s : State) (p : Place) (mask v : Word) (t : Tag) : List LeWrite :=
  match p with
  | .mem a => if writeViol s a = [] then [.mem (BitVec.ofNat 21 a) mask v t] else []
  | .acc l i => [.acc (BitVec.ofNat 2 l) (BitVec.ofNat 3 i) mask v t]
  | .refused _ => []

/-- An instruction that writes its operand. -/
def wStore (s : State) (c : At) (m : BitVec 2) (w : BitVec 21) (mask v : Word) (t : Tag) : LaneEff :=
  if opdIllegal m w then effIllegal c
  else
    let p := opdPlace s c m w
    let e := opdBase s c m w
    { e with
      stores := opdBankAddr s c m w
      viols := e.viols ++ (match p with | .mem a => writeViol s a | _ => [])
      traps := (match p with | .refused _ => [3] | _ => [])
      writes := storeWrite s p mask v t }

/-! ### Writes of one lane -/

/-- The lane's accumulator takes a word. -/
def wrAcc (c : At) (a : BitVec 3) (d : DWord) : LeWrite := .acc c.lane a 0xFFFFFFFF d.val d.tag
/-- The lane's RLO takes a bit with its tag. -/
def wrRlo (c : At) (b : Bool) (t : Tag) : LeWrite := .rlo c.lane ⟨b, t⟩
/-- The lane's sticky flags take the set bits. -/
def wrFlags (c : At) (f : FlagSet) : LeWrite := .flags c.lane f 0

/-- A W-group operation over A and op: A takes the value, with the tag that `tg` forms, and the flags are set (R68). -/
def wArith (s : State) (c : At) (a : BitVec 3) (m : BitVec 2) (w : BitVec 21) (cyc : Nat) (tg : Tag → Tag → Tag)
    (f : Word → Word → Word × FlagSet) : LaneEff :=
  wLoad s c m w cyc (fun x v =>
    let A := accOf x a.toNat
    let r := f A.val v.val
    [wrAcc c a ⟨r.1, tg A.tag v.tag⟩, wrFlags c r.2])

/-- A compare: RLO takes the relation of A and op with tag comb(A, op); A keeps its value (R69). -/
def wCmp (s : State) (c : At) (a : BitVec 3) (m : BitVec 2) (w : BitVec 21) (f : Word → Word → Bool × FlagSet) :
    LaneEff :=
  wLoad s c m w 1 (fun x v =>
    let A := accOf x a.toNat
    let r := f A.val v.val
    [wrRlo c r.1 (tag2 A.tag v.tag), wrFlags c r.2])

/-- The tag of the second operand. -/
def tagOp (_ t : Tag) : Tag := t

/-! ### Bit operands (R56) -/

/-- The addressed bit with its tag: bits 32-35 are the tag bits, with tag GOOD. -/
def bitOf (d : DWord) (b : Nat) : Bool × Tag :=
  if b < 32 then (d.val.getLsbD b, d.tag) else (d.tag.getLsbD (b - 32), tagGOOD)

/-- A bit instruction that combines the addressed bit with RLO: `f` gives the new RLO from the old one and the bit.
With `st`, a tag not of class good makes the contribution 0 with tag GOOD and records STRICT (R57, R60). -/
def bitLoad (s : State) (c : At) (n st : Bool) (w : BitVec 21) (b : BitVec 6) (f : Rlo → Bool → Tag → Rlo) : LaneEff :=
  if 36 ≤ b.toNat then effIllegal c
  else
    let v := bitOf (leRead s w.toNat) b.toNat
    let strict := st && decide (tagClass v.2 ≠ 0)
    let r := (lane s c.lane.toNat).rlo
    let r' := if strict then f r false tagGOOD else f r (v.1 != n) v.2
    { effNop c with
      reads := [w.toNat], viols := readViol s w.toNat, memFaults := leReadFaults s w.toNat
      traps := if strict then [1] else []
      writes := [.rlo c.lane r'] }

/-- A bit store (R57, R61): bit `b` of word `w` takes `v` with the RLO tag where `doit`; with `st` an RLO tag not of class
good suppresses the write and records STRICT. -/
def bitStore (s : State) (c : At) (st doit v : Bool) (w : BitVec 21) (b : BitVec 6) : LaneEff :=
  if 32 ≤ b.toNat then effIllegal c
  else
    let r := (lane s c.lane.toNat).rlo
    let strict := st && decide (tagClass r.tag ≠ 0)
    let go := doit && !strict
    { effNop c with
      stores := [w.toNat]
      viols := if go then writeViol s w.toNat else []
      traps := if strict then [1] else []
      writes := if go then storeWrite s (.mem w.toNat) (1#32 <<< b.toNat)
        (if v then 1#32 <<< b.toNat else 0) r.tag else [] }

/-- A trigger store (R59, R61): `rising` for TRGR. The history bit takes the input. -/
def bitTrigger (s : State) (c : At) (st rising : Bool) (w : BitVec 21) (b : BitVec 6) : LaneEff :=
  if 32 ≤ b.toNat then effIllegal c
  else
    let r := (lane s c.lane.toNat).rlo
    let d := leRead s w.toNat
    let h := d.val.getLsbD b.toNat
    let strict := st && decide (tagClass r.tag ≠ 0)
    let out := if rising then r.bit && !h else !r.bit && h
    { effNop c with
      reads := [w.toNat], stores := [w.toNat]
      viols := readViol s w.toNat ++ (if strict then [] else writeViol s w.toNat)
      memFaults := leReadFaults s w.toNat
      traps := if strict then [1] else []
      writes := if strict then [.rlo c.lane ⟨false, tagGOOD⟩]
        else storeWrite s (.mem w.toNat) (1#32 <<< b.toNat) (if r.bit then 1#32 <<< b.toNat else 0) r.tag ++
          [.rlo c.lane ⟨out, tag2 r.tag d.tag⟩] }

end Sys2Proof.Machine
end

