-- ==== Sys2Proof/Machine/LeCore.lean ====
section
/-! DEFINITION. The bundle and the scan of the logic engine: issue, cost (R90-R93), retire (R49-R52), traps (R86-R88),
the seal of the Q image (R19), and the abort of a scan (R87). -/

namespace Sys2Proof.Machine

/-! ### Task watchdogs (R301) -/

/-- The watchdog of class `k`. -/
def twd (s : State) (k : Nat) : TwdSt := mget (fun _ => {}) s.wd.twd k
/-- TWD_CFGk.EN. -/
def twdEn (s : State) (k : Nat) : Bool := fbit (force s (aWD + 4 * k)) 0

/-- The watchdog of class `k` expires with a reason; its source fires once until the next correct serve. -/
def twdExpire (k reason : Nat) (s : State) : State :=
  let was := s.wd.expired.getLsbD k
  let s1 := { s with wd := { s.wd with
    expired := s.wd.expired ||| (1#8 <<< k)
    keyErr := if reason = 0x1B then s.wd.keyErr ||| (1#8 <<< k) else s.wd.keyErr
    nTask := if was then s.wd.nTask else satN 0xFFFF (s.wd.nTask + 1) } }
  containedFault (480 + k) reason (fireIf (!was) (480 + k) (wdCopied s1))

/-- A WDSRV for class `k` retires (R84, R301). -/
def twdServe (k : Nat) (key : BitVec 16) (s : State) : State :=
  if !twdEn s k then s
  else if key = 0xC35A then
    { s with wd := { s.wd with
      twd := mput (fun _ => {}) s.wd.twd k { twd s k with count := 0, served := true }
      expired := s.wd.expired &&& ~~~(1#8 <<< k) } }
  else twdExpire k 0x1B s

/-- A class-k cycle starts in RUN: the first one begins the count, and each later one judges the cycle that has ended
(R301). -/
def twdCycle (k : Nat) (s : State) : State :=
  let w := twd s k
  let n := if w.started && !w.served then satN 255 (w.count + 1) else w.count
  if twdEn s k then
    { s with wd := { s.wd with
      twd := mput (fun _ => {}) s.wd.twd k { count := n, started := true, served := false } } }
  else s

/-- The listed class-cycle starts are judged, and none is left over from an overrunning scan (R302). -/
def twdJudge (ks : Byte) (s : State) : State :=
  ((List.range 8).filter (fun k => ks.getLsbD k)).foldl (fun a k => twdCycle k a)
    { s with wd := { s.wd with twdDue := 0 } }

/-! ### The cost of a bundle (R90-R93) -/

/-- The key of the line access to the block at address `a` (R91). -/
def lineKey (a : Nat) : Nat := 0x200000 + a

/-- The bank of an access (R90). -/
def bankOf (k : Nat) : Nat :=
  if 0x200000 ≤ k then (k - 0x200000) / 8 % 16 else if 0x1E0000 ≤ k then k / 8 % 16 else k % 16

/-- Bank `b` is reserved in LE cycle `t` (R92). -/
def reserved (b t : Nat) : Bool := b % 8 = t % 8

/-- The accesses of a phase, with equal ones and words inside an accessed line counted once (R91). -/
def mergeAcc (l : List Nat) : List Nat :=
  let key := fun a => if a < 0x200000 ∧ lineKey (a / 8 * 8) ∈ l then lineKey (a / 8 * 8) else a
  (l.map key).foldl (fun r k => addNew k r) []

/-- The accesses that cannot be served in the first cycle of a phase, in order, with the banks used so far. -/
def phaseRest (t : Nat) : List Nat → List Nat → List Nat
  | _, [] => []
  | used, k :: l =>
    if bankOf k ∈ used ∨ reserved (bankOf k) t then k :: phaseRest t used l
    else phaseRest t (bankOf k :: used) l

/-- The last cycle of a phase that begins in cycle `t` (R93). -/
def phaseEnd (l : List Nat) (t : Nat) : Nat :=
  (phaseRest t [] (mergeAcc l)).foldl (fun u k => if reserved (bankOf k) (u + 1) then u + 2 else u + 1) t

/-- The retire cycle of a bundle that starts in cycle `c`, and its stall cycles on conflicting accesses (R93). -/
def bundleCost (c : Nat) (l : List LaneEff) : Nat × Nat :=
  let t1 := phaseEnd (l.flatMap (·.reads)) c
  let ind := l.any (·.indirect)
  let t2 := if ind then phaseEnd (l.flatMap (·.targets)) (t1 + 1) else t1
  let n := l.foldl (fun m e => max m e.cycles) 1
  let e := t2 + n - 1
  let tw := phaseEnd (l.flatMap (·.stores)) e
  (tw, (t1 - c) + (if ind then t2 - (t1 + 1) else 0) + (tw - e))

/-! ### Writing the results (R49, R51) -/

/-- A lane takes a new working state. -/
def lanePut (s : State) (l : Nat) (x : LaneSt) : State :=
  { s with le := { s.le with lanes := mput (fun _ => {}) s.le.lanes l x } }

/-- An accumulator takes the bits of `v` under `mask`, and the tag. -/
def accWrite (x : LaneSt) (i : Nat) (mask v : Word) (t : Tag) : LaneSt :=
  { x with acc := mput (fun _ => ⟨0, 0⟩) x.acc i ⟨((accOf x i).val &&& ~~~mask) ||| (v &&& mask), t⟩ }

/-- One result is written; `stamp` is the station time of the retire (R84). -/
def applyWrite (stamp : Nat) (s : State) (x : LeWrite) : State :=
  match x with
  | .mem a mask v t => if mask = 0 then writeTag a.toNat t s else writeBits a.toNat mask v t s
  | .acc l i mask v t => lanePut s l.toNat (accWrite (lane s l.toNat) i.toNat mask v t)
  | .rlo l r => lanePut s l.toNat { lane s l.toNat with rlo := r }
  | .stack l st => lanePut s l.toNat { lane s l.toNat with stack := st }
  | .flags l st cl => lanePut s l.toNat { lane s l.toNat with flags := ((lane s l.toNat).flags &&& ~~~cl) ||| st }
  | .sys _ _ => s
  | .raise j =>
    if s.le.raised.getLsbD j.toNat then s
    else fire (504 + j.toNat) stamp { s with le := { s.le with raised := s.le.raised ||| (1#32 <<< j.toNat) } }
  | .wdsrv k key => twdServe k.toNat key s

/-- The value that the highest lane of the bundle writes to a system register (R51). -/
def lastSys (l : List LeWrite) (idx : Nat) : Option Word :=
  l.foldl (fun r x => match x with | .sys i v => if i.toNat = idx then some v else r | _ => r) none

/-- The system register writes of a bundle (R85). SLUICE_GO counts only if it was armed before the bundle. -/
def applySys (l : List LeWrite) (s : State) : State :=
  let lo := (lastSys l 0x08).getD 0
  let hi := (lastSys l 0x09).getD 0
  { s with le := { s.le with
    poolbase := match lastSys l 0x06 with | some v => v.truncate 6 | none => s.le.poolbase
    rfxRst := s.le.rfxRst ||| (hi ++ lo)
    sluiceArmed := s.le.sluiceArmed || decide (lastSys l 0x10 = some 0xC35A)
    goMask := match lastSys l 0x11 with | some v => if s.le.sluiceArmed then s.le.goMask ||| v else s.le.goMask
                                        | none => s.le.goMask } }

/-! ### Traps (R86, R88) -/

/-- The trap ends the scan (R86). -/
def trapAborts (r : BitVec 6) : Bool := decide (4 ≤ r.toNat)

/-- The traps of a bundle with their lanes, in lane order; two control instructions give ILLEGAL in the lowest lane that
holds one (R52, R88). DESIGN CHOICE (log 79): among traps of equal effect in one lane, which the spec does not order, an
instruction's own trap (the CALL_STACK of a CALL or RET) stands before the ILLEGAL of two control instructions. -/
def bundleTraps (l : List LaneEff) : List (BitVec 2 × BitVec 6) :=
  let own := l.flatMap (fun e => e.traps.map (fun r => (e.lane, r)))
  let ctrls := l.filter (·.isCtl)
  match ctrls with
  | e :: _ :: _ => own ++ [(e.lane, 4)]
  | _ => own

/-- The trap of a bundle that LE_TRAP takes: one that aborts before a contained one, then the lowest lane (R88). -/
def firstTrap (l : List (BitVec 2 × BitVec 6)) : Option (BitVec 2 × BitVec 6) :=
  l.foldl (fun b x => match b with
    | none => some x
    | some y =>
      if (trapAborts x.2 && !trapAborts y.2) || (trapAborts x.2 = trapAborts y.2 && decide (x.1.toNat < y.1.toNat))
      then some x else b) none

/-- The traps of a bundle are captured, recorded as contained faults, and fire source 477 once per scan. -/
def recordTraps (l : List (BitVec 2 × BitVec 6)) (s : State) : State :=
  match firstTrap l with
  | none => s
  | some t =>
    let take := !s.le.trapValid
    let s1 := { s with le := { s.le with
      trapBundle := if take then s.le.pc else s.le.trapBundle
      trapLane := if take then t.1 else s.le.trapLane
      trapReason := if take then t.2.truncate 4 else s.le.trapReason
      trapTick := if take then BitVec.ofNat 32 s.tick.num else s.le.trapTick
      trapOvf := s.le.trapOvf || !take || decide (1 < l.length)
      trapValid := true, trapFired := true } }
    let s2 := fireIf (!s.le.trapFired) 477 s1
    l.foldl (fun a x => containedFault 477 x.2.toNat a) s2

/-! ### Epochs (R203) -/

/-- The order of blocks within an epoch: Q, then T, then M, each rising (R204). -/
def blockKey (b : Nat) : Nat := if b < 512 then b else if 0x1E0000 / 64 ≤ b then b - 16384 else b + 32768

/-- Inserts a block in the order of R204. -/
def blockInsert (b : Nat) : List Nat → List Nat
  | [] => [b]
  | x :: l => if blockKey b ≤ blockKey x then b :: x :: l else x :: blockInsert b l

/-- Harvest sends: an ACTIVE module in RUN with a partner in SHADOW (R21). -/
def harvestSends (s : State) : Bool :=
  decide (s.pair.role = .active) && inRun s && decide (s.pair.partnerState = some .shadow)

/-- Both lanes are down. -/
def lanesDown (s : State) : Bool := !s.pair.lane0.up && !s.pair.lane1.up

/-- Time in ns that one block occupies the link with the lanes in force (R206). -/
def blockNs (s : State) : Nat := if s.pair.lane0.up && s.pair.lane1.up then 1360 else 2720

/-- HV_BUDGET (R206). -/
def hvBudget (s : State) : Nat := if lanesDown s then 0 else (1000 * s.tick.period - 5000) / blockNs s

/-- Block `i` of a sweep: the blocks of Q, then T, then M (R204, R209). -/
def sweepBlock (i : Nat) : Nat := if i < 128 then 128 + i else if i < 2176 then 0x7800 + (i - 128) else 0x200 + (i - 2176)

/-- The number of sweep blocks of an epoch with `n` dirty blocks: the room that the budget leaves, once the block table and the
program have been sent (R209). -/
def sweepRoom (s : State) (n : Nat) : Nat :=
  if s.pair.resync && s.pair.progDone then min (hvBudget s - n) (18048 - s.pair.swept) else 0

/-- The epoch that closes at this seal (R203, R204, R209): the state at the seal under the number of the scan's tick, with the
force changes that have taken effect by then. -/
def newEpoch (s : State) : ShipEpoch :=
  let n := s.pair.dirty.length
  let k := sweepRoom s n
  { hdr := {
      seq := s.pair.nextSeq, tick := BitVec.ofNat 64 s.le.scanTick, tbase := s.le.scanTbase, runid := s.tick.runid
      progId := s.le.progId, budget := (force s (aLE + 0x24)).truncate 26, blocks := n + k
      sweep := s.pair.resync && decide (s.pair.swept < 18048)
      sweepLast := decide (0 < k) && decide (s.pair.swept + k = 18048) }
    edits := s.pair.editsOut
    forces := (s.pair.forcesOut.filter (fun p => decide (p.1 ≤ s.le.scanTick))).map (·.2)
    blocks := s.pair.dirty.foldr blockInsert []
    sweep := (List.range k).map (fun i => sweepBlock (s.pair.swept + i)) }

/-- The dirty-block map closes at a seal and forms an epoch, unless one is still shipping (R203, R209). -/
def epochClose (s : State) : State :=
  if harvestSends s ∧ s.pair.ship.isNone ∧ s.pair.closed.isNone ∧ s.prot.frozen.getLsbD 2 = false then
    let s1 := if 12288 < s.pair.dirty.length then startResync s else s
    { s1 with pair := { s1.pair with
      closed := some (newEpoch s1), closedTick := s.le.scanTick, preimg := []
      dirty := [], editsOut := [], forcesOut := s.pair.forcesOut.filter (fun p => decide (s.le.scanTick < p.1))
      nextSeq := s.pair.nextSeq + 1 } }
  else s

/-- A change of the block table joins the next epoch (R123). -/
def editOut (e : EditMsg) (s : State) : State :=
  if harvestSends s then { s with pair := { s.pair with editsOut := s.pair.editsOut ++ [e] } } else s

/-- A job of low priority for a partner in SHADOW (R122). -/
def partnerLow (l : List LinkJob) (s : State) : State :=
  if s.pair.role = .active ∧ s.pair.partnerState = some .shadow then l.foldl (fun a j => sendLow j a) s else s

/-! ### The end of a scan (R19, R44, R87, R101, R102) -/

/-- One more consecutive overrun or abort; LIMIT of them form a fatal chain (R44, R87). -/
def overrunCount (s : State) : State :=
  let n := s.le.overConsec + 1
  let s1 := unhealthy { s with le := { s.le with overConsec := satN 15 n } }
  if fld (force s (aLE + 0x1C)) 24 4 ≤ n then fatalFault 473 0x20 s1 else s1

/-- A count of LE cycles as its registers hold it, in bits [25:0] (R101). DESIGN CHOICE (log 105): a scan of 2^26 cycles or more, for
which the spec names no value, wraps. -/
def cyc26 (n : Nat) : Nat := n % 67108864

/-- The bin of a scan of `n` cycles (R102). DEDUCED (log 80): the slice is that of the tick in which the scan started, also
in the long tick of R14, whose slice R14 gives; and a scan that has overrun counts in bin 31. -/
def scanBin (s : State) (n : Nat) : Nat :=
  if s.le.overran || decide (s.le.slice = 0) then 31 else min 31 (32 * n / s.le.slice)

/-- The long-term histogram takes a scan: a bin rises with every 1,024 scans of its remainder (R325, R326). -/
def logScan (bin : Nat) (s : State) : State :=
  let rem := mget (fun _ => 0) s.btn.scanRem bin + 1
  { s with btn := { s.btn with
    scanRem := mput (fun _ => 0) s.btn.scanRem bin (if rem = 1024 then 0 else rem)
    scanHist := if rem = 1024 then
      mput (fun _ => 0) s.btn.scanHist bin (satN 0xFFFFFFFF (mget (fun _ => 0) s.btn.scanHist bin + 1))
      else s.btn.scanHist } }

/-- A completed scan of `n` cycles is sealed (R19): its Q image waits for the next commit with the requests that travel
with it, the counters of R101 and R102 follow, source 472 fires, and the epoch closes. -/
def sealScan (n : Nat) (s : State) : State :=
  let bin := scanBin s n
  let s1 := { s with
    le := { s.le with
      running := false, bundle := [], issued := false, sealedReady := true
      sealedQ := s.mem.words.filter (fun p => inQ p.1)
      sealedGo := s.le.goMask, sealedRst := s.le.rfxRst, sealedTick := s.tick.num
      cyclesLast := n, cyclesMax := max s.le.cyclesMax (cyc26 n), lsFrom := s.time.cyc, bankStalls := satN 0xFFFFFF s.le.stalls
      hist := mput (fun _ => 0) s.le.hist bin (satN 0xFFFFFFFF (mget (fun _ => 0) s.le.hist bin + 1))
      overConsec := if s.le.overran then s.le.overConsec else 0
      prevOverran := s.le.overran, overran := false, firstScan := false, afterTakeover := false, newVersion := false }
    tick := { s.tick with scanDone := true }
    nv := { s.nv with atSeal := some (mapWords s) } }
  twdJudge s1.wd.twdDue (fire 472 s.time.ns (epochClose (logScan bin s1)))

/-- An aborting trap ends the scan (R87): the next commit does not take place, the count of R44 rises, and the epoch is
shipped as usual; a scan that had overrun counts in the log's load (R325). The next scan starts in the following tick, so an overrun no longer holds it back (log 19). -/
def abortScan (s : State) : State :=
  let s1 := { s with
    le := { s.le with running := false, bundle := [], issued := false, sealedReady := false, overTick := none
                      lsFrom := s.time.cyc
                      prevOverran := s.le.overran, overran := false, firstScan := false, afterTakeover := false
                      newVersion := false }
    tick := { s.tick with scanDone := true, skipCommit := true } }
  let s2 := epochClose (if s.le.overran then logScan 31 s1 else s1)
  twdJudge s2.wd.twdDue (overrunCount s2)

/-! ### Retire (R49-R52) -/

/-- The lane effects of a bundle in lane order. -/
def byLane (l : List LaneEff) : List LaneEff :=
  (List.range 4).flatMap (fun i => l.filter (fun e => e.lane.toNat = i))

/-- The control effect of a bundle, after its other results (R52, R81). DESIGN CHOICE (log 104): the bundle after address 0x3_FFFF, which
the spec does not name, is bundle 0, also as the return address of a CALL there. -/
def applyCtrl (e : LaneEff) (n : Nat) (s : State) : State :=
  let go := fun (t : BitVec 18) (sl : BitVec 2) (a : State) =>
    { a with le := { a.le with pc := t, slot := sl, bundle := [], issued := false } }
  match e.ctrl with
  | some (.jump t sl) => go t sl s
  | some (.call t sl p) =>
    go t sl { s with le := { s.le with callStack := ⟨s.le.pc + 1, p⟩ :: s.le.callStack } }
  | some .ret =>
    match s.le.callStack with
    | x :: r => go x.ret 0 { s with le := { s.le with callStack := r, poolbase := x.poolbase } }
    | [] => go (s.le.pc + 1) 0 s
  | some (.loop l a7 taken t sl) =>
    let s1 := lanePut s l.toNat (accWrite (lane s l.toNat) 7 0xFFFFFFFF a7.val a7.tag)
    if taken then go t sl s1 else go (s.le.pc + 1) 0 s1
  | some .ends => sealScan n s
  | _ => go (s.le.pc + 1) 0 s

/-- The bundle retires: faults and traps are recorded; an aborting trap ends the scan without the bundle's results, also where the
reaction to one of those faults has ended RUN (R87, R284); otherwise its results are written, every violation freezes the LE and is
counted (R298), and the control effect follows. -/
def retire (s : State) : State :=
  let l := byLane s.le.bundle
  let traps := bundleTraps l
  let abort := traps.any (fun t => trapAborts t.2)
  let cost := bundleCost s.le.scanCyc l
  let viols := (l.flatMap (·.viols)).filter (fun v => !abort || !v.2)
  let s1 := recordTraps traps (recordReadFaults (l.flatMap (·.memFaults)) s)
  let frozen := fun (a : State) => viols.foldl (fun x v => freezeMaster 0 (v.1.zeroExtend 32) v.2 x) a
  if abort then abortScan (frozen s1)
  else if !s1.le.running then s1
  else
    let ws := l.flatMap (·.writes)
    let stamp := s.time.ns + (cost.1 - s.le.scanCyc) * 1000 / s.le.mhz
    let s2 := frozen (applySys ws (ws.foldl (applyWrite stamp) s1))
    if !viols.isEmpty || !s2.le.running then s2
    else
      let s3 := { s2 with le := { s2.le with scanCyc := cost.1 + 1, stalls := s2.le.stalls + cost.2 } }
      let ctrl := (l.find? (fun e => e.ctrl.isSome)).getD { effNop ⟨0, true⟩ with ctrl := none }
      applyCtrl ctrl (cost.1 + 1) s3

/-- An instruction of the bundle in execution: its effect joins the bundle, and with the last executing instruction
the bundle retires. While no scan runs, nothing happens. -/
def leIssue (c : At) (e : LaneEff) (s : State) : State :=
  if s.le.running then
    let s1 := { s with le := { s.le with bundle := s.le.bundle ++ [e] } }
    if c.last then retire s1 else s1
  else s

end Sys2Proof.Machine
end

