-- ==== Sys2Proof/Machine/Edit.lean ====
section
/-! DEFINITION. Online edits: the commands of EDIT_CMD, the swap at its tick and the migration table (04). -/

namespace Sys2Proof.Machine

/-! ### Ranges, entries, protection (R109, R110) -/

/-- The live entry of a block. -/
def liveOf (s : State) (k : Nat) : BlockEntry := mget (fun _ => default) s.edit.live k
/-- The previous entry of a block. -/
def prevOf (s : State) (k : Nat) : BlockEntry := mget (fun _ => default) s.edit.prev k

/-- Two ranges, each a start and a length, share an element. -/
def overlap (a n b m : Nat) : Bool := decide (0 < n) && decide (0 < m) && decide (a < b + m) && decide (b < a + n)

/-- The entries that protect their ranges: live and previous. -/
def heldEntries (s : State) : List BlockEntry := s.edit.live.map (·.2) ++ s.edit.prev.map (·.2)

/-- A bundle or pool page of the range is protected (R110). -/
def rangeHeld (s : State) (r : DlRange) : Bool :=
  let b := r.base.toNat
  if r.pool then (heldEntries s).any (fun e => overlap b r.len e.poolFirst.toNat e.poolCount.toNat)
  else (heldEntries s).any (fun e => overlap b r.len e.pbase.toNat e.len.toNat) ||
    ((s.edit.phase = .committed || s.edit.phase = .undoPending) &&
      (overlap b r.len s.edit.migFwd.base.toNat s.edit.migFwd.entries.toNat ||
       overlap b r.len s.edit.migBack.base.toNat s.edit.migBack.entries.toNat))

/-- The range named by EDIT_DL_BASE and EDIT_DL_LEN. -/
def regRange (s : State) : DlRange :=
  let b := force s (aLE + 0x48)
  { base := b.truncate 18, len := fld (force s (aLE + 0x4C)) 0 19, pool := fbit b 31, ack := false }

/-- The range lies within the program store or the Rake pool. -/
def rangeOk (r : DlRange) : Bool :=
  decide (1 ≤ r.len) && decide (r.base.toNat + r.len ≤ if r.pool then 64 else 262144)

/-- The bundle or page lies in a downloaded range. -/
def downloaded (s : State) (pool : Bool) (x : Nat) : Bool :=
  s.edit.ranges.any (fun r => r.pool = pool && decide (r.base.toNat ≤ x) && decide (x < r.base.toNat + r.len))

/-- Codes of EDIT_STATE.CODE. -/
def ecOK : Byte := 0x00
def ecLIVE : Byte := 0x01
def ecMISALIGNED : Byte := 0x02
def ecTOOMANY : Byte := 0x03
def ecMIGLARGE : Byte := 0x04
def ecMIGLONG : Byte := 0x05
def ecPARTNER : Byte := 0x06
def ecTICK : Byte := 0x07
def ecSTATE : Byte := 0x08
def ecENTRY : Byte := 0x09
def ecCHECK : Byte := 0x0A
def ecBUDGET : Byte := 0x0B

/-- A refused command changes nothing but the code; event 475 fires (R111, R116). -/
def editRefuse (code : Byte) (s : State) : State := fire 475 s.time.ns { s with edit := { s.edit with code := code } }

/-- Every downloaded range has been acknowledged (R122). -/
def allAcked (l : List DlRange) : Bool := l.all (·.ack)

/-- The command is refused in SHADOW (R123), while BUSY, and from an update's decision point to its end (R364). -/
def editShut (s : State) : Bool := decide (s.pair.mstate = .shadow) || s.edit.busy || s.upd.decided

/-- OPEN (R111). A range that lies outside the store is refused with BAD_ENTRY (log 34). -/
def execEditOpen (s : State) : Out :=
  svcRow 4 (aLE + 0x40) true s <|
  let r := regRange s
  if editShut s || !(s.edit.phase = .idle || s.edit.phase = .staged) then .next (editRefuse ecSTATE s)
  else if !rangeOk r then .next (editRefuse ecENTRY s)
  else if rangeHeld s r then .next (editRefuse ecLIVE s)
  else .next { s with edit := { s.edit with
    phase := .opened, openRange := some r, partnerAck := false, code := ecOK } }

/-- CLOSE: the CRC of the range is compared with EDIT_DL_CRC (R111, R112); a partner in SHADOW is to check the range too, and
has not acknowledged it yet (R122). -/
def execEditClose (s : State) : Out :=
  svcRow 4 (aLE + 0x40) true s <|
  match s.edit.openRange with
  | some r =>
    if editShut s || s.edit.phase ≠ .opened then .next (editRefuse ecSTATE s)
    else if crc32c (rangeWords s r) ≠ force s (aLE + 0x50) then .next (editRefuse ecCHECK s)
    else .next (partnerLow (rangeJobs s r) { s with edit := { s.edit with
      phase := .staged, openRange := none, ranges := s.edit.ranges ++ [r], partnerAck := false, code := ecOK } })
  | none => .next (editRefuse ecSTATE s)

/-- The entry in EDIT_ENT_A and EDIT_ENT_B. -/
def regEntry (s : State) : Nat × BlockEntry :=
  let a := force s (aLE + 0x54)
  let b := force s (aLE + 0x58)
  (fld b 0 10, {
    pbase := a.truncate 18, len := BitVec.ofNat 9 (fld a 18 9), classes := BitVec.ofNat 8 (fld b 10 8)
    poolFirst := BitVec.ofNat 6 (fld b 18 6), poolCount := BitVec.ofNat 7 (fld b 24 7) })

/-- STAGE refuses the entry (R113). -/
def badEntry (s : State) (k : Nat) (e : BlockEntry) : Bool :=
  let n := e.len.toNat
  let l := liveOf s k
  decide (256 < n)
  || (List.range n).any (fun i => !downloaded s false (e.pbase.toNat + i))
  || s.edit.stagedSet.any (fun p => decide (p.1 ≠ k) && overlap e.pbase.toNat n p.2.pbase.toNat p.2.len.toNat)
  || (List.range e.poolCount.toNat).any (fun i =>
      let pg := e.poolFirst.toNat + i
      !downloaded s true pg && !(decide (l.poolFirst.toNat ≤ pg) && decide (pg < l.poolFirst.toNat + l.poolCount.toNat)))
  || (decide (k = 0) && decide (n = 0))
  || (decide (e.classes = 0) && decide (n ≠ 0))

/-- STAGE (R111, R113). DESIGN CHOICE (log 84): the spec sets no limit here for the number of staged entries, and none is refused
for it; EDIT_STATE.STAGED shows at most 127 of them. -/
def execEditStage (s : State) : Out :=
  svcRow 4 (aLE + 0x40) true s <|
  let p := regEntry s
  if editShut s || !(s.edit.phase = .idle || s.edit.phase = .staged) then .next (editRefuse ecSTATE s)
  else if badEntry s p.1 p.2 then .next (editRefuse ecENTRY s)
  else .next (partnerLow [.frame (.cpMsg (.editStage p.1 p.2))] { s with edit := { s.edit with
    phase := .staged, stagedSet := s.edit.stagedSet.filter (fun q => decide (q.1 ≠ p.1)) ++ [p], code := ecOK } })

/-! ### Migration tables (R119, R120) -/

/-- Operations of a migration entry. -/
inductive MigOp where
  | fill | copy | itof | ftoiz | sx16 | zx16
deriving DecidableEq, Repr

/-- A migration entry. -/
structure MigEntry where
  op : MigOp
  tag : Tag
  count : Nat
  src : Nat
  dst : Nat
  value : Word
deriving DecidableEq, Repr

/-- A word of the program store. -/
def progWord (s : State) (a : Nat) : BitVec 36 := mget (fun _ => 0) s.mem.prog a

/-- Every word of the range lies in M, L or T. -/
def migArea (a n : Nat) : Bool :=
  (decide (0x8000 ≤ a) && decide (a + n ≤ 0x100000)) || (decide (0x100000 ≤ a) && decide (a + n ≤ 0x1E0000)) ||
  (decide (0x1E0000 ≤ a) && decide (a + n ≤ 0x200000)) ||
  (decide (0x8000 ≤ a) && decide (a + n ≤ 0x200000))

/-- The entry in bundle `b`; `none` where it is malformed (R119). -/
def migEntry (s : State) (b : Nat) : Option MigEntry :=
  let w := fun i => progWord s (4 * b + i)
  let w0 : Word := (w 0).truncate 32
  let op := match fld w0 0 4 with
    | 1 => some MigOp.fill | 2 => some .copy | 3 => some .itof | 4 => some .ftoiz | 5 => some .sx16 | 6 => some .zx16
    | _ => none
  let tag : Tag := BitVec.ofNat 4 (fld w0 4 4)
  let n := fld w0 16 15
  let src := ((w 1).truncate 21).toNat
  let dst := ((w 2).truncate 21).toNat
  match op with
  | none => none
  | some op =>
    if (List.range 4).any (fun i => decide (4294967296 ≤ (w i).toNat)) || fbit w0 31 || decide (fld w0 8 8 ≠ 0)
      || decide (n < 1) || decide (16384 < n) || (decide (op = .fill) && tagReserved tag) || !migArea dst n
      || (decide (op ≠ .fill) && !migArea src n)
    then none
    else some { op := op, tag := tag, count := n, src := src, dst := dst, value := (w 3).truncate 32 }

/-- The entries of a table. -/
def migTable (s : State) (m : MigRef) : List (Option MigEntry) :=
  (List.range m.entries.toNat).map (fun i => migEntry s (m.base.toNat + i))

/-- A migration table is refused with MIGRATE_TOO_LARGE (R115). DESIGN CHOICE (log 107): a table that names bundles outside every
downloaded range, for which R115 gives no refusal, is taken as those bundles stand. -/
def migTooLarge (s : State) (m : MigRef) : Bool :=
  let t := migTable s m
  decide (1024 < m.entries.toNat) || t.any (·.isNone)
    || decide (16384 < t.foldl (fun n e => n + (e.map (·.count)).getD 0) 0)

/-- The LE cycles that a table takes (R120). -/
def migCycles (s : State) (m : MigRef) : Nat :=
  (migTable s m).foldl (fun n e => n + (e.map (·.count)).getD 0 + 16) 0

/-- What an entry writes for one word: FILL its value and tag; the others convert the word and copy its tag. -/
def migConv (e : MigEntry) (d : DWord) : DWord :=
  match e.op with
  | .fill => ⟨e.value, e.tag⟩
  | .copy => d
  | .itof => ⟨(iToF d.val).1, d.tag⟩
  | .ftoiz => ⟨(fToI false d.val).1, d.tag⟩
  | .sx16 => ⟨sx16 d.val, d.tag⟩
  | .zx16 => ⟨zx16 d.val, d.tag⟩

/-- One word of an entry is read and written; the read records the faults of R24, and an access that the windows refuse stops the
engine (R298). -/
def migStep (e : MigEntry) (s : State) (i : Nat) : State :=
  let put := engAct (e.dst + i) true (writeWord (e.dst + i) (migConv e (readWord s (e.src + i))))
  if e.op = .fill then put s
  else engAct (e.src + i) false (fun a => put (recordReadFaults (readFaults a (e.src + i)) a)) s

/-- One entry is applied, word by word in ascending order. -/
def migApplyEntry (s : State) (e : MigEntry) : State := (List.range e.count).foldl (migStep e) s

/-- A table is applied in table order (R119); reading its bundles may find errors of the program store (R284). -/
def migRun (m : MigRef) (s : State) : State :=
  let ks := (List.range (4 * m.entries.toNat)).map (fun i => progKey (4 * m.base.toNat + i))
  ((migTable s m).filterMap id).foldl migApplyEntry (recordReadFaults (ks.flatMap (codeFault s)) s)

/-- The table of the pending swap is applied. DESIGN CHOICE (log 112): where a refused access has frozen the engine, the table waits
for its release and is then applied from its first entry. -/
def migApply (s : State) : State :=
  let s1 := migRun s.edit.mig s
  if frozen s1 2 then s1
  else { s1 with edit := { s1.edit with
    migDone := true, migSeal := if 0 < s.edit.mig.entries.toNat then some s.le.sealedTick else s.edit.migSeal } }

/-- A swap is pending. -/
def swapPending (s : State) : Bool := s.edit.phase = .pending || s.edit.phase = .undoPending

/-- The pending swap falls at or after the tick of an update's activation that has been decided, which supersedes it (R118). -/
def swapMoot (s : State) : Bool :=
  s.upd.decided && decide (s.upd.phase = .armed) && decide (s.upd.actTick ≤ s.edit.target)

/-- MIGRATION_APPLY: after the seal of the last scan before the swap, while no scan runs and the copy engine is not frozen
(R120, R299). -/
def migDue (s : State) : Bool :=
  swapPending s && !swapMoot s && !s.edit.migDone && !s.le.running && !s.prot.frozen.getLsbD 2
    && decide (s.edit.target ≤ s.tick.num + 1) && (s.tick.scanDone || !inRun s || decide (s.edit.target ≤ s.tick.num))

def execMigrationApply (s : State) : Out := if migDue s then .next (settle (migApply s)) else .next s

/-! ### COMMIT, UNDO and the swap (R115-R118) -/

/-- EDIT_TICK. -/
def regTick (s : State) : Nat := (force s (aLE + 0x64)).toNat + 4294967296 * (force s (aLE + 0x68)).toNat

/-- A migration reference register. -/
def regMig (s : State) (o : Nat) : MigRef :=
  let w := force s (aLE + o)
  { base := w.truncate 18, entries := BitVec.ofNat 11 (fld w 18 11) }

/-- The highest class set in a class map. -/
def highClass (c : Byte) : Nat := ((List.range 8).reverse.find? (fun k => c.getLsbD k)).getD 0

/-- The checks of R115 in their order, after the state: the blocks that change with their new entries, the budget after the
swap, and the table to be applied. -/
def swapCheck (s : State) (chg : List (Nat × BlockEntry)) (budget : Nat) (m : MigRef) : Byte :=
  let t := regTick s
  let k := chg.foldl (fun n p => max n (max (highClass p.2.classes) (highClass (liveOf s p.1).classes))) 0
  if !(s.pair.mstate = .ready || s.pair.mstate = .run) then ecSTATE
  else if 64 < chg.length then ecTOOMANY
  else if t < s.tick.num + 2 ∨ s.tick.num + 1000000 < t then ecTICK
  else if t % 2 ^ k ≠ 0 then ecMISALIGNED
  else if sliceFloor s < budget then ecBUDGET
  else if migTooLarge s m then ecMIGLARGE
  else if sliceFloor s < migCycles s m + fld (force s (aLE + 0x24)) 0 26 then ecMIGLONG
  else if s.pair.role = .active ∧ s.pair.partnerState = some .shadow ∧ s.edit.partnerAck = false then ecPARTNER
  else ecOK

/-- The swap becomes pending at its target tick; a partner in SHADOW is told (R124, log 85). -/
def swapArm (phase : EditPhase) (budget : BitVec 26) (id : Word) (m : MigRef) (s : State) : State :=
  partnerLow [.frame (.cpMsg (.editPend true))] { s with edit := { s.edit with
    phase := phase, target := regTick s, newBudget := budget, newId := id, mig := m, migDone := false, code := ecOK } }

/-- COMMIT (R111, R115). -/
def execEditCommit (s : State) : Out :=
  svcRow 4 (aLE + 0x40) true s <|
  let budget : BitVec 26 := (force s (aLE + 0x6C)).truncate 26
  let m := regMig s 0x5C
  let code := swapCheck s s.edit.stagedSet budget.toNat m
  if editShut s || s.edit.phase ≠ .staged then .next (editRefuse ecSTATE s)
  else if code ≠ ecOK then .next (editRefuse code s)
  else
    let s1 := swapArm .pending budget (force s (aLE + 0x70)) m s
    .next { s1 with edit := { s1.edit with migFwd := m, migBack := regMig s 0x60 } }

/-- UNDO (R111, R115). -/
def execEditUndo (s : State) : Out :=
  svcRow 4 (aLE + 0x40) true s <|
  let m := regMig s 0x60
  let code := swapCheck s (s.edit.changed.map (fun k => (k, prevOf s k))) s.edit.oldBudget.toNat m
  if editShut s || s.edit.phase ≠ .committed then .next (editRefuse ecSTATE s)
  else if code ≠ ecOK then .next (editRefuse code s)
  else .next (swapArm .undoPending s.edit.oldBudget s.edit.oldId m s)

/-- ACCEPT: previous entries, their ranges and the migration tables are released (R111). DESIGN CHOICE (log 84): the recorded
downloaded ranges go too. -/
def execEditAccept (s : State) : Out :=
  svcRow 4 (aLE + 0x40) true s <|
  if editShut s || s.edit.phase ≠ .committed then .next (editRefuse ecSTATE s)
  else .next (editOut .accept { s with
    edit := { s.edit with
      phase := .idle, prev := [], changed := [], ranges := [], stagedSet := [], migFwd := default, migBack := default
      code := ecOK } })

/-- DISCARD (R111). -/
def execEditDiscard (s : State) : Out :=
  svcRow 4 (aLE + 0x40) true s <|
  if editShut s then .next (editRefuse ecSTATE s)
  else if s.edit.phase = .undoPending then
    .next (partnerLow [.frame (.cpMsg (.editPend false))] { s with edit := { s.edit with phase := .committed, code := ecOK } })
  else if s.edit.phase = .opened ∨ s.edit.phase = .staged ∨ s.edit.phase = .pending then
    .next (editOut .discard { s with
      edit := { s.edit with
        phase := .idle, stagedSet := [], ranges := [], openRange := none, code := ecOK } })
  else .next (editRefuse ecSTATE s)

/-- The edit state after a swap, whose live entries are `chg`, and whose previous entries `prv` (R116); `budget` and `id` are what
a swap back restores. -/
def swapTable (undo : Bool) (chg prv : List (Nat × BlockEntry)) (budget : BitVec 26) (id : Word) (e : EditSt) : EditSt :=
  { e with
    live := mputs (fun _ => default) e.live chg, prev := mputs (fun _ => default) e.prev prv
    phase := if undo then .staged else .committed, changed := if undo then [] else chg.map (·.1)
    oldBudget := budget, oldId := id }

/-- The blocks that change at the pending swap with their new live entries (R116). -/
def swapChanges (s : State) : List (Nat × BlockEntry) :=
  if s.edit.phase = .undoPending then s.edit.changed.map (fun k => (k, prevOf s k)) else s.edit.stagedSet

/-- The previous entries after the pending swap: a commit keeps the old live entries, an undo releases them (R109, R116). A deleted
block keeps its staged entry with LEN 0 as its live entry, word for word: DESIGN CHOICE (log 84). -/
def swapPrev (s : State) : List (Nat × BlockEntry) :=
  if s.edit.phase = .undoPending then s.edit.changed.map (fun k => (k, (default : BlockEntry)))
  else s.edit.stagedSet.map (fun p => (p.1, liveOf s p.1))

/-- The swap lands (R116): entries move, LE_BUDGET and LE_PROG_ID follow, EDIT_LANDED records the tick, source 474 fires, and the
changes join the epoch (R123). M and T now stand under the new identity, unless the module is in READY and no migration has written
them (R125, R348). -/
def swapLand (s : State) : State :=
  let undo := decide (s.edit.phase = .undoPending)
  let s0 := regPut s (aLE + 0x24) (s.edit.newBudget.zeroExtend 32)
  let s1 := { s0 with
    edit := { swapTable undo (swapChanges s) (swapPrev s) ((force s (aLE + 0x24)).truncate 26) s.le.progId s0.edit with
      landed := BitVec.ofNat 32 s.tick.num }
    le := { s0.le with
      progId := s.edit.newId, newVersion := true
      dataId := if inRun s || decide (0 < s.edit.mig.entries.toNat) then s.edit.newId else s0.le.dataId } }
  fire 474 s.time.ns (editOut (.changes undo (BitVec.ofNat 32 s.tick.num) (swapChanges s) (swapPrev s)) s1)

/-- The swap is due: its tick has begun and no scan runs (R43, R116, R117). DESIGN CHOICE (log 109): a swap whose migration waits for a
frozen copy engine (R299) waits with it. -/
def swapDue (s : State) : Bool :=
  swapPending s && !swapMoot s && !s.le.running && decide (s.edit.target ≤ s.tick.num)
    && (s.edit.migDone || decide (s.edit.mig.entries = 0) || !s.prot.frozen.getLsbD 2)

/-- The swap with the migration that must precede it; it waits where that stops short. -/
def swapNow (s : State) : State :=
  if s.edit.migDone || decide (s.edit.mig.entries = 0) then swapLand s
  else
    let s1 := migApply s
    if s1.edit.migDone then swapLand s1 else settle s1

/-- EDIT_SWAP (R43, R116). -/
def execEditSwap (s : State) : Out := if swapDue s then .next (swapNow s) else .next s

end Sys2Proof.Machine
end

