-- ==== Sys2Proof/Machine/Nv.lean ====
section
/-! DEFINITION. The record store: sectors, records, winners, the write queue and its governor, two-copy writing, mount,
persistent words and the CP flash (12). -/

namespace Sys2Proof.Machine

/-! ### Sectors and records (R308-R311) -/

/-- A sector of the data flash. -/
def sec (s : State) (i : Nat) : Sector := mget (fun _ => {}) s.nv.sectors i

/-- A sector takes a new state. -/
def secPut (s : State) (i : Nat) (x : Sector) : State :=
  { s with nv := { s.nv with sectors := mput (fun _ => {}) s.nv.sectors i x } }

/-- The sector is RECLAIMED. -/
def secDead (x : Sector) : Bool := !x.retired && !x.erased && !secLive x

/-- The sectors in ERASED. -/
def erasedSecs (s : State) : List Nat := (List.range 128).filter (fun i => (sec s i).erased && !(sec s i).retired)

/-- The sectors in CLOSED. -/
def closedSecs (s : State) : List Nat :=
  (List.range 128).filter (fun i => secLive (sec s i) && decide (s.nv.head ≠ some i) && decide (s.nv.twinHead ≠ some i))

/-- The number of a sector of the list with the lowest OPEN_SEQ. -/
def oldestSec (s : State) (l : List Nat) : Option Nat :=
  l.foldl (fun b i => match b with
    | none => some i
    | some j => if (sec s i).openSeq < (sec s j).openSeq then some i else b) none

/-- The number of a sector of the list with the highest OPEN_SEQ. -/
def newestSec (s : State) (l : List Nat) : Option Nat :=
  l.foldl (fun b i => match b with
    | none => some i
    | some j => if (sec s j).openSeq < (sec s i).openSeq then some i else b) none

/-- The winner of an entry (R311). -/
def winner (s : State) (key : BitVec 16) (fmt : BitVec 4) : Option Rec :=
  ((validRecs s).filter (fun r => r.key = key && r.fmt = fmt)).foldl (fun b r => match b with
    | none => some r
    | some x => if x.seq < r.seq then some r else b) none

/-- A sector is marked worn, with a notice (R378). -/
def wornMark (s : State) (i : Nat) : State :=
  gradNotice (!s.grd.wornSec.contains i) 6 (wordOf i) { s with grd := { s.grd with wornSec := addNew i s.grd.wornSec } }

/-- Sector `i` is blank after its erase, which is counted; the 95,000th marks it worn (R308, R378). -/
def secErased (i erases : Nat) (s : State) : State :=
  let s1 := secPut s i { erased := true, erases := erases }
  if 95000 ≤ erases then wornMark s1 i else s1

/-- An erase in progress is cut short: the sector keeps nothing that is known, and the next mount erases it (R308, R319). -/
def eraseCut (s : State) : State :=
  match s.nv.reclaiming with
  | some i =>
    let s1 := secPut s i { sec s i with reclaimed := true, role := 0, slots := [] }
    { s1 with nv := { s1.nv with reclaiming := none, eraseTries := 0 } }
  | none => s

/-! ### Opening and reclaiming (R316) -/

/-- The ERASED sector that opens next: the first one after the newest opened sector, in cyclic order (log 35). -/
def nextErased (s : State) : Option Nat :=
  let from_ := (s.nv.head.getD 127)
  (((List.range 128).map (fun i => (from_ + 1 + i) % 128)).find? (fun i => (sec s i).erased && !(sec s i).retired))

/-- A sector opens in a role; a head opens only while another sector is ERASED, unless the supply is being lost (R319). -/
def openSec (role : Nat) (holdup : Bool) (s : State) : State :=
  if 2 ≤ (erasedSecs s).length ∨ holdup = true then
    match nextErased s with
    | some i =>
      let s1 := secPut s i {
        erased := false, erases := (sec s i).erases, openSeq := s.nv.nextSeq, role := BitVec.ofNat 2 role }
      { s1 with nv := { s1.nv with
        head := if role = 1 then some i else s1.nv.head
        twinHead := if role = 2 then some i else s1.nv.twinHead } }
    | none => s
  else s

/-- A sector has no free slot. -/
def secFull (x : Sector) : Bool := decide (127 ≤ x.slots.length)

/-- The head has a free slot. -/
def headFree (s : State) : Bool := match s.nv.head with | some i => !secFull (sec s i) | none => false

/-- A slot of the head is programmed; a full head gives way to a new one first. -/
def headAppend (holdup : Bool) (x : Slot) (s : State) : State :=
  let s1 := if headFree s then s else openSec 1 holdup s
  match s1.nv.head with
  | some i => if secFull (sec s1 i) then s1 else secPut s1 i { sec s1 i with slots := (sec s1 i).slots ++ [x] }
  | none => s1

/-- A slot of the twin head is programmed. -/
def twinAppend (x : Slot) (s : State) : State :=
  match s.nv.twinHead with
  | some i => if secFull (sec s i) then s else secPut s i { sec s i with slots := (sec s i).slots ++ [x] }
  | none => s

/-- The winners that a sector holds and that reclaim keeps (NV_FMT_KEEP). -/
def keptWinners (s : State) (i : Nat) : List Rec :=
  ((sec s i).slots.filterMap id).filter (fun r =>
    fbit (force s (aNV + 0x60)) r.fmt.toNat && decide ((winner s r.key r.fmt).map (·.seq) = some r.seq))

/-- The oldest CLOSED sector is reclaimed: its kept winners are copied to the head with MOVED set, RECLAIMED is
programmed, and its erase starts. A sector that the Graduation monitor marked worn is retired instead (R316). Copies that fill the head
go on in the next ERASED sector, which the erase replaces; an opening keeps that from happening (log 97). -/
def reclaim (s : State) : State :=
  match oldestSec s (closedSecs s) with
  | some i =>
    let s1 := (keptWinners s i).foldl (fun a r => headAppend true (some { r with moved := true }) a) s
    if i ∈ s.grd.wornSec then secPut s1 i { sec s1 i with reclaimed := true, retired := true }
    else
      let s2 := secPut s1 i { sec s1 i with reclaimed := true }
      { s2 with nv := { s2.nv with reclaiming := some i, eraseTries := 0 } }
  | none => s

/-- A sector may open now: no reclaim is in progress, and another sector is ERASED. -/
def mayOpen (s : State) : Bool := s.nv.reclaiming.isNone && decide (2 ≤ (erasedSecs s).length)

/-- A new head opens and the oldest CLOSED sector is reclaimed. -/
def openHead (s : State) : State := if mayOpen s then reclaim (openSec 1 false s) else s

/-- The copies of the next reclaim have room in the head. -/
def copiesFit (s : State) : Bool :=
  let room := match s.nv.head with | some i => 127 - (sec s i).slots.length | none => 0
  match oldestSec s (closedSecs s) with
  | some i => decide ((keptWinners s i).length ≤ room)
  | none => true

/-- A new twin head opens and the oldest CLOSED sector is reclaimed, once the head has room for the copies (log 97). -/
def openTwin (s : State) : State :=
  if mayOpen s then (if copiesFit s then reclaim (openSec 2 false s) else openHead s) else s

/-! ### Two-copy writing (R317) -/

/-- A two-copy mode is in force. -/
def twoCopy (s : State) : Bool := s.nv.startup || s.nv.recovery || s.nv.test

/-- The twin head follows the modes: it opens with the first, as soon as a sector may open, and closes with the last. -/
def twinFollow (s : State) : State :=
  if twoCopy s then (if s.nv.twinHead.isNone then openTwin s else s)
  else { s with nv := { s.nv with twinHead := none } }

/-- A head without a free slot gives way to a new one, with its reclaim. -/
def headReady (s : State) : State := if headFree s then s else openHead s

/-- A twin head without a free slot gives way to a new one, with its reclaim. -/
def twinReady (s : State) : State :=
  match s.nv.twinHead with
  | some i => if secFull (sec s i) then openTwin s else s
  | none => s

/-- The twin head has a free slot. -/
def twinFree (s : State) : Bool := match s.nv.twinHead with | some i => !secFull (sec s i) | none => false

/-! ### Writing and reading (R311-R315) -/

/-- The record as a slot holds it. -/
def mkRec (r : NvReq) (twin : Bool) : Rec := {
  key := r.key, fmt := r.fmt, twin := twin, moved := false, len := r.data.length, seq := r.seq, data := r.data }

/-- The data bytes of NV_DATA0-4. -/
def nvBytes (s : State) (n : Nat) : List Byte :=
  (List.range n).map (fun i => BitVec.ofNat 8 (fld (force s (aNV + 0x0C + 4 * (i / 4))) (8 * (i % 4)) 8))

/-- NV_RESULT.CODE takes a value. -/
def nvCode (c : Nat) (s : State) : State := { s with nv := { s.nv with code := BitVec.ofNat 4 c } }

/-- NV_CMD WRITE: queued, or refused with the first code that applies (R311, R313, R314, R318). The keys from 0x8000 on are the controller's
own or reserved; what the OEM partition asks for comes through a service call. -/
def execNvWrite (s : State) : Out :=
  cpRow (aNV + 0x20) true s <|
  let w := force s (aNV + 8)
  let key : BitVec 16 := w.truncate 16
  let fmt : BitVec 4 := BitVec.ofNat 4 (fld w 16 4)
  let len := fld w 24 5
  let has := s.nv.queue.any (fun q => q.key = key && q.fmt = fmt)
  let known := decide ((key, fmt) ∈ entriesDue s)
  if !s.nv.mounted then .next (nvCode 7 s)
  else if !keyOk key || decide (0x8000 ≤ key.toNat) then .next (nvCode 4 s)
  else if 20 < len then .next (nvCode 5 s)
  else if !known && decide (2048 ≤ (entriesDue s).length) then .next (nvCode 3 s)
  else if !has && decide (64 ≤ s.nv.queue.length) then .next (nvCode 2 s)
  else .next (nvCode 1 (nvEnqueue { key := key, fmt := fmt, crit := fbit w 20, data := nvBytes s len, seq := 0 } s))

/-- NV_CMD READ returns the winner of an entry (R311). -/
def execNvRead (s : State) : Out :=
  cpRow (aNV + 0x20) true s <|
  let w := force s (aNV + 8)
  if !s.nv.mounted then .next (nvCode 7 s)
  else match winner s (w.truncate 16) (BitVec.ofNat 4 (fld w 16 4)) with
    | some r => .next (nvCode 0 { s with nv := { s.nv with
        rlen := BitVec.ofNat 5 r.len, rfmt := r.fmt, rtwin := r.twin, rseq := r.seq, rdata := r.data } })
    | none => .next (nvCode 6 s)

/-- A queued record starts programming once the governor's level is at least 1; a full head first gives way to a new one, and moved copies
that wait for a slot go first (R315, R316). -/
def execNvDrain (s : State) : Out :=
  match s.nv.queue with
  | r :: rest =>
    if s.nv.mounted && s.nv.cur.isNone && s.nv.moving.isEmpty && decide (16 ≤ s.nv.level) then
      if headFree s then .next { s with nv := { s.nv with queue := rest, cur := some (r, false) } }
      else .next (openHead s)
    else .next s
  | [] => .next s

/-- The histograms and extremes of the log, in the order of R325. -/
def logHists (s : State) : List (SMap Nat) :=
  [s.btn.scanHist, s.btn.supplyHist, s.btn.tempHist, s.btn.fieldHist, s.btn.surgeHist, s.btn.curMax, s.btn.curMin,
    s.btn.tecMax, s.btn.recMax, s.btn.busoff, s.btn.laneErr, s.btn.laneRetx]

/-- Notice slots whose record has the key `k`. -/
def keySlots (k : Nat) : List Nat := if 0x40 ≤ k ∧ k < 0xC0 then [2 * (k - 0x40), 2 * (k - 0x40) + 1] else []

/-- The counts of the log beside its histograms. -/
def logCounts (s : State) : List Nat := [s.btn.takeovers, s.btn.resyncs, s.btn.overruns, s.btn.clears] ++ s.btn.wdCopy

/-- A record of the log is in the store: 0x0020 the stamps and counts, 0x0021 histograms and extremes, 0x0040-0x00BF notices (log 31). -/
def logSaved (k : Nat) (s : State) : State :=
  { s with btn := { s.btn with
    savedSerial := if k = 0x20 ∨ keySlots k ≠ [] then s.btn.serial else s.btn.savedSerial
    savedEver := if k = 0x20 ∨ keySlots k ≠ [] then s.btn.ever else s.btn.savedEver
    savedMin := if k = 0x20 then s.btn.opMin else s.btn.savedMin
    savedPc := if k = 0x20 then s.btn.pcycle else s.btn.savedPc
    savedCounts := if k = 0x20 then logCounts s else s.btn.savedCounts
    savedHist := if k = 0x21 then logHists s else s.btn.savedHist
    savedRing := (keySlots k).foldl (fun m r => mput (fun _ => none) m r (mget (fun _ => none) s.btn.ring r)) s.btn.savedRing
    dirty := s.btn.dirty.filter (fun r => !(keySlots k).contains r) } }

/-- The record of stamps and counts differs from what the store holds. -/
def stampsDiffer (s : State) : Bool :=
  decide (s.btn.savedMin ≠ s.btn.opMin) || decide (s.btn.savedPc ≠ s.btn.pcycle) || decide (s.btn.savedSerial ≠ s.btn.serial)
    || decide (s.btn.savedEver ≠ s.btn.ever) || decide (s.btn.savedCounts ≠ logCounts s)

/-- The record of stamps and counts, and the record of histograms and extremes (log 31). -/
def stampRec (s : State) : NvReq := { key := 0x0020, fmt := ownFmt s, crit := false, data := [], seq := 0 }
def histRec (s : State) : NvReq := { key := 0x0021, fmt := ownFmt s, crit := false, data := [], seq := 0 }

/-- A record is queued, in programming, or waiting for the queue. -/
def nvBusy (s : State) : Bool := !s.nv.queue.isEmpty || !s.nv.waiting.isEmpty || s.nv.cur.isSome

/-- The log's round ends once its records are in the store (R331). -/
def roundDone (s : State) : State :=
  if s.btn.busy && !nvBusy s then { s with btn := { s.btn with busy := false, lastRound := s.btn.opMin } } else s

/-- A record that found the queue full joins it as soon as it has room. -/
def nvAdmit (s : State) : State :=
  match s.nv.waiting with
  | r :: l => if s.nv.queue.length < 64 then nvEnqueue r { s with nv := { s.nv with waiting := l } } else s
  | [] => s

/-- A weak record is copied into the head as a moved copy (R378). -/
def moveNext (s : State) : State :=
  match s.nv.moving with
  | r :: l =>
    let s1 := headReady s
    if headFree s1 then headAppend false (some { r with moved := true }) { s1 with nv := { s1.nv with moving := l } } else s1
  | [] => s

/-- An entry of the old format whose record the new firmware has still to write anew (R367). -/
def carryNext (s : State) : Option Rec :=
  (validRecs s).find? (fun r => decide (r.fmt = s.upd.fmtOld) && decide (r.key.toNat ≤ 0x7FFF) && decide (r.key ≠ 0x0010)
    && !(entriesDue s).contains (r.key, s.upd.fmtNew) && !s.nv.waiting.any (fun q => decide (q.key = r.key) && decide (q.fmt = s.upd.fmtNew)))

/-- In PROBATION of a set with a format of its own, an entry that the new format lacks is written anew in it; the old record stays as it
was left (R367). -/
def nvCarry (s : State) : State :=
  if s.upd.phase = .probation ∧ s.nv.mounted ∧ s.upd.fmtNew ≠ s.upd.fmtOld then
    match carryNext s with
    | some r => match winner s r.key r.fmt with
      | some w => nvEnqueue { key := w.key, fmt := s.upd.fmtNew, crit := within w.key.toNat 0x100 0x1FF || decide (w.key = 0x30), data := w.data, seq := 0 } s
      | none => s
    | none => s
  else s

/-- What the controller keeps up by itself: the round's end, records that wait, moved copies, the twin head, and two ERASED sectors. -/
def nvKeep (s : State) : State :=
  let s1 := twinFollow (moveNext (nvAdmit (roundDone s)))
  if s1.nv.mounted && s1.nv.reclaiming.isNone && decide ((erasedSecs s1).length < 2) then reclaim s1 else s1

/-- A record has been programmed, in the slot that was free for it; without one it waits until a sector opens. A failed verify leaves a torn
slot, and the record is written again; a critical record is then written to the twin head in a two-copy mode; otherwise it is reported OK
(R314, R317). -/
def execNvProgramDone (ok : Bool) (s : State) : Out :=
  match s.nv.cur with
  | none => .next s
  | some (r, twin) =>
    let s0 := if twin then twinReady s else headReady s
    let put := fun (x : Slot) => if twin then twinAppend x s0 else headAppend false x s0
    if !(if twin then twinFree s0 else headFree s0) then .next s0
    else if ok then
      let s1 := put (some (mkRec r twin))
      let again := !twin && r.crit && twoCopy s1
      let s2 := { s1 with nv := { s1.nv with
        level := s1.nv.level - 16
        cur := if again then some (r, true) else none
        code := if again then s1.nv.code else 0
        rseq := if again then s1.nv.rseq else r.seq } }
      .next (if again then s2 else fire 488 s2.time.ns (logSaved r.key.toNat s2))
    else
      let s1 := put none
      .next { s1 with nv := { s1.nv with recCyc := s1.time.cyc } }

/-- A sector erase completes: blank, repeated once, or the sector is retired (R316). -/
def execNvEraseDone (blank : Bool) (s : State) : Out :=
  match s.nv.reclaiming with
  | none => .next s
  | some i =>
    let x := sec s i
    let n := x.erases + s.nv.eraseTries + 1
    let done := fun (a : State) => { a with nv := { a.nv with reclaiming := none, eraseTries := 0 } }
    if blank then .next (done (secErased i n s))
    else if s.nv.eraseTries = 0 then .next { s with nv := { s.nv with eraseTries := 1 } }
    else .next (done (secPut s i { x with erases := n, role := 0, slots := [], retired := true }))

/-! ### Mount (R318, R333) -/

/-- The power-cycle count, saturating (R327). -/
def satPc (n : Nat) : BitVec 24 := BitVec.ofNat 24 (satN 0xFFFFFF n)

/-- The highest ERASES of any valid header, for a sector whose own count is lost (R308). -/
def maxErases (s : State) : Nat := s.nv.sectors.foldl (fun m p => if p.2.role = 0 then m else max m p.2.erases) 0

/-- The torn slots of the live sectors. -/
def tornSlots (s : State) : Nat :=
  s.nv.sectors.foldl (fun n p => if secLive p.2 then n + (p.2.slots.filter (·.isNone)).length else n) 0

/-- The marked sectors are erased. -/
def eraseMarked (s : State) : State :=
  ((List.range 128).filter (fun i => secDead (sec s i))).foldl (fun a i =>
    let e := if (sec a i).role = 0 then maxErases a else (sec a i).erases
    secErased i (e + 1) a) s

/-- The newest live sector that was opened in a role. -/
def newestIn (s : State) (role : BitVec 2) : Option Nat :=
  newestSec s ((List.range 128).filter (fun i => secLive (sec s i) && (sec s i).role = role))

/-- The backup domain had lost power before this start, so that its stamps come from the store (R333). -/
def stampsLost (s : State) : Bool := s.sys.backupLost && decide (s.sys.cause = 1)

/-- The stamps are restored from the store. -/
def restoreStamps (s : State) : State :=
  { s with btn := { s.btn with
    opMin := s.btn.savedMin, pcycle := satPc (s.btn.savedPc.toNat + 1), backupLost := true } }

/-- The ring, the histograms and extremes and the counts stand as the store holds them; the copies of the counts of R306 follow these where
the backup domain has kept them (R325, R333). -/
def restoreRing (s : State) : State :=
  let b := s.btn
  let h := fun (i : Nat) => b.savedHist.getD i []
  let n := fun (i : Nat) => b.savedCounts.getD i 0
  let s1 := { s with btn := { b with
    ring := b.savedRing, serial := b.savedSerial, ever := b.savedEver, dirty := []
    scanHist := h 0, supplyHist := h 1, tempHist := h 2, fieldHist := h 3, surgeHist := h 4, curMax := h 5, curMin := h 6
    tecMax := h 7, recMax := h 8, busoff := h 9, laneErr := h 10, laneRetx := h 11
    takeovers := n 0, resyncs := n 1, overruns := n 2, clears := n 3, wdCopy := b.savedCounts.drop 4 } }
  if stampsLost s then s1 else wdCopied s1

/-- The log is restored (R333): notices that waited enter the ring in their order, and the number of those dropped joins
the BACKUP_LOST or RESET notice. -/
def restoreLog (s : State) : State :=
  let lost := wordOf s.btn.earlyLost
  let bl := stampsLost s
  let upd := fun (n : Notice) => if n.kind = 0x04 ∧ bl = false then { n with detail := n.detail + lost } else n
  let s0 := if bl then restoreStamps (restoreRing s) else { restoreRing s with btn := { (restoreRing s).btn with backupLost := false } }
  let s1 := s.btn.early.foldl (fun a n => ringPut (upd n) a)
    { s0 with btn := { s0.btn with restored := true, early := [], earlyLost := 0 } }
  noticeIf bl 0x0F noSrc 0 lost s1

/-- The sector in reclaim is erased at once, as the mount does. -/
def eraseNow (s : State) : State :=
  match s.nv.reclaiming with
  | some i =>
    let a := secErased i ((sec s i).erases + 1) s
    { a with nv := { a.nv with reclaiming := none } }
  | none => s

/-- The mount reclaims until two sectors are ERASED (R318), at most `n` times. -/
def mountReclaim : Nat → State → State
  | 0, s => s
  | n + 1, s => if 2 ≤ (erasedSecs s).length ∨ closedSecs s = [] then s else mountReclaim n (eraseNow (reclaim s))

/-- The data-flash mount completes (R318): sectors are classified and marked ones erased, NV_NEXT_SEQ follows the highest
valid SEQ, START-UP and, after torn slots, RECOVERY begin, and the log is restored (R333). -/
def execMountDone (s : State) : Out :=
  if s.nv.mounted || !s.sys.powered then .next s
  else
    let torn := tornSlots s
    let s1 := eraseMarked s
    let top := (validRecs s1).foldl (fun m r => max m (r.seq + 1)) 0
    let s2 := { s1 with nv := { s1.nv with
      head := newestIn s1 1, twinHead := none, nextSeq := top, mounted := true, startup := true
      recovery := decide (0 < torn), startCyc := s.time.cyc, recCyc := s.time.cyc, torn := satN 0xFFFF torn
      cur := none, waiting := [], moving := [], reclaiming := none, eraseTries := 0 } }
    let s3 := twinFollow (mountReclaim 128 s2)
    let s4 := restoreLog (noticeIf (decide (0 < torn)) 0x0A noSrc 0 (wordOf torn) s3)
    .next (fire 488 s4.time.ns s4)

/-- START-UP ends 60 s after mount (R317). -/
def execStartupEnd (s : State) : Out :=
  if s.nv.startup && decide (s.nv.startCyc + cycUs 60000000 ≤ s.time.cyc) then
    .next (twinFollow { s with nv := { s.nv with startup := false } })
  else .next s

/-- RECOVERY ends after 10 min without a torn slot or a failed verify (R317). -/
def execRecoveryEnd (s : State) : Out :=
  if s.nv.recovery && decide (s.nv.recCyc + cycUs 600000000 ≤ s.time.cyc) then
    .next (twinFollow { s with nv := { s.nv with recovery := false } })
  else .next s

/-- NV_CTRL write: mode TEST begins or ends (R317). -/
def execNvTest (v : Word) (s : State) : Out :=
  cpRow (aNV) true s <|
  let s1 := regPut s aNV (v &&& 1)
  .next (twinFollow { s1 with nv := { s1.nv with test := fbit v 0 } })

/-! ### Persistent M words (R320, R321) -/

/-- The number of records of the persistent map. -/
def pmapRecs (s : State) : Nat := (s.nv.pmap.length + 3) / 4

/-- The five bytes of a persistent word. -/
def persistBytes (d : DWord) : List Byte :=
  [d.val.truncate 8, (d.val >>> 8).truncate 8, (d.val >>> 16).truncate 8, (d.val >>> 24).truncate 8,
   d.tag.zeroExtend 8]

/-- The record `i` of the map that holds the words `ws`, which stand in map order. -/
def mapRec (ws : List DWord) (i : Nat) : NvReq := {
  key := BitVec.ofNat 16 (0x8000 + i), fmt := 0, crit := false, seq := 0
  data := ((ws.drop (4 * i)).take 4).flatMap persistBytes }

/-- The record `i` of the map as the words stand. -/
def persistRec (s : State) (i : Nat) : NvReq := mapRec (mapWords s) i

/-- The record that names the map (key 0x0010). -/
def pmapRec (s : State) : NvReq := {
  key := 0x0010, fmt := 0, crit := false, seq := 0
  data := (bytesLE s.nv.pmapCrc).map (BitVec.ofNat 8) }

/-- The record differs from its entry's winner. -/
def recDiffers (s : State) (r : NvReq) : Bool := decide ((winner s r.key r.fmt).map (·.data) ≠ some r.data)

/-- The records of a round from record `i` on whose words differ from the store. -/
def roundRecs (s : State) (i : Nat) : List Nat :=
  ((List.range (pmapRecs s)).filter (fun j => decide (i ≤ j) && recDiffers s (persistRec s j)))

/-- The governor holds the queue (R315). -/
def govHolds (s : State) : Bool := decide (s.nv.level < 16)

/-- Records of a round are queued in map order; those that the governor holds back are counted, and the next round goes on with the
first of them (R321). -/
def roundQueue : List Nat → State → State
  | [], s => s
  | j :: l, s =>
    if govHolds s then
      { s with nv := { s.nv with nextRec := j, deferred := satN 0xFFFF (s.nv.deferred + l.length + 1) } }
    else roundQueue l (nvEnqueue (persistRec s j) s)

/-- A persistence round is due: NV_PCFG.PERIOD seconds after the last (R321). -/
def roundDue (s : State) : Bool :=
  let cfg := force s (aNV + 0x64)
  s.nv.mounted && fbit cfg 12 && decide (s.nv.roundCyc + cycUs (1000000 * fld cfg 0 12) ≤ s.time.cyc)

/-- A persistence round takes the mapped words as they stand; the copy engine's reads record the faults of R24 (R321). -/
def roundTake (s : State) : State :=
  let l := roundRecs s s.nv.nextRec
  let s0 := recordReadFaults ((s.nv.pmap.drop (4 * s.nv.nextRec)).flatMap (fun a => readFaults s a.toNat)) s
  let s1 := if recDiffers s (pmapRec s) then nvEnqueue (pmapRec s) s0 else s0
  roundQueue l { s1 with nv := { s1.nv with roundCyc := s.time.cyc, roundAcc := none, nextRec := 0 } }

/-- A persistent word as five payload bytes hold it. -/
def persistWord (b : List Byte) : DWord :=
  ⟨wordOf ((b.getD 0 0).toNat + 256 * (b.getD 1 0).toNat + 65536 * (b.getD 2 0).toNat + 16777216 * (b.getD 3 0).toNat),
   (b.getD 4 0).truncate 4⟩

/-- The persistent words of the store, by word address. -/
def persistWords (s : State) : List (Nat × DWord) :=
  (List.range s.nv.pmap.length).filterMap (fun i =>
    match winner s (BitVec.ofNat 16 (0x8000 + i / 4)) 0 with
    | some r => some ((s.nv.pmap.getD i 0).toNat, persistWord (r.data.drop (5 * (i % 4))))
    | none => none)

/-- The store's records belong to the running map. -/
def pmapMatches (s : State) : Bool :=
  decide ((winner s 0x0010 0).map (·.data) = some ((bytesLE s.nv.pmapCrc).map (BitVec.ofNat 8)))

/-! ### CP flash (R323, R324) -/

/-- CP flash sectors are erased: counted, and the 9,000th erase of one raises CP_FLASH_WEAR (R378, R379). -/
def flWear (l : List Nat) (s : State) : State :=
  l.foldl (fun a k =>
    let n := mget (fun _ => 0) a.nv.flErases k + 1
    gradNotice (decide (n = 9000)) 7 (wordOf (65536 * (k / 64) + k % 64))
      { a with nv := { a.nv with flErases := mput (fun _ => 0) a.nv.flErases k n } }) s

/-- A sector of a bank is erased or programmed by command: the firmware in the vendor base's area or the OEM partition is no longer the one
that was signed (R260, R280, log 115). -/
def flTouch (bank sector : Nat) (s : State) : State :=
  bankVerdict (BitVec.ofNat 1 bank) (if sector < 32 then some false else none)
    (if 32 ≤ sector ∧ sector < 60 then some false else none) s

/-- NV_FL_CMD write: ignored without its key, refused on the bank that the instruction came from (`from_`: 0 bank A,
1 bank B, 2 SRAM, 3 boot ROM), and otherwise started. -/
def flStart (erase : Bool) (v : Word) (from_ : BitVec 2) (s : State) : State :=
  let bank := fld v 0 1
  let addr := fld (force s (aNV + 0x80)) 0 22 + 0x400000 * bank
  if fld v 16 16 ≠ 0xC35A then s
  else if from_.toNat = bank then fire 488 s.time.ns { s with nv := { s.nv with flOwn := true } }
  else if s.nv.flBusy.isSome then s
  else if erase then
    flTouch bank (addr / 65536 % 64) <| flWear [addr / 65536] { s with
      nv := { s.nv with
        flBusy := some (BitVec.ofNat 1 bank, true, addr / 65536)
        flOpen := s.nv.flOpen.filter (fun p => !(p.1 && decide (p.2 = addr / 65536)) && !(!p.1 && decide (p.2 / 2048 = addr / 65536)))
        flash := s.nv.flash.filter (fun p => decide (p.1 / 16384 ≠ addr / 65536)) } }
  else
    flTouch bank (addr / 65536 % 64) { s with nv := { s.nv with
      flBusy := some (BitVec.ofNat 1 bank, false, addr / 32)
      flash := mputs (fun _ => 0xFFFFFFFF) s.nv.flash
        ((List.range 8).map (fun i => (addr / 32 * 8 + i, force s (aNV + 0xA0 + 4 * i)))) } }

/-- A line program starts (R323). -/
def execFlProgram (v : Word) (from_ : BitVec 2) (s : State) : Out :=
  cpRow (aNV + 0x84) true s <| .next (flStart false v from_ s)

/-- A sector erase starts (R323). -/
def execFlErase (v : Word) (from_ : BitVec 2) (s : State) : Out :=
  cpRow (aNV + 0x84) true s <| .next (flStart true v from_ s)

/-- A CP flash operation completes; what did not verify holds nothing known (R323). -/
def execFlDone (ok : Bool) (s : State) : Out :=
  match s.nv.flBusy with
  | some (_, er, i) =>
    .next (fire 488 s.time.ns { s with nv := { s.nv with
      flBusy := none, flDone := true, flVerify := s.nv.flVerify || !ok
      flOpen := if ok then s.nv.flOpen else addNew (er, i) s.nv.flOpen } })
  | none => .next s

end Sys2Proof.Machine
end

