-- ==== Sys2Proof/Machine/Latch.lean ====
section
/-! DEFINITION. The input latch: channel words, node words, the system image and the forces on them (01, 09, 10, 18). -/

namespace Sys2Proof.Machine

/-! ### Forces (R20, R265) -/

/-- The force entries that act: entry number, word address, value, in ascending order. -/
def forceEnts (s : State) : List (Nat × Nat × Word) :=
  (s.regs.force.filter (fun p => decide (aLE + 0x400 ≤ p.1 ∧ p.1 < aLE + 0xC00 ∧ p.1 % 8 = 0) && fbit p.2 15)).map
    (fun p => ((p.1 - (aLE + 0x400)) / 8, fld p.2 0 14, force s (p.1 + 4)))

/-- An I or Q word of a present unit (R5, R265). -/
def presentWord (s : State) (a : Nat) : Bool :=
  let o := a % 0x2000
  if o < 0x100 then decide (o < nCh s)
  else if o < 0x108 then decide (32 * (o - 0x100) < nCh s)
  else if 0x400 ≤ o ∧ o < 0xD00 then decide ((o - 0x400) / 16 < nNodes s)
  else if 0xE00 ≤ o ∧ o < 0xE90 then decide (o - 0xE00 < nNodes s)
  else false

/-- The forced bit of channel `n` in the area at `base` (0 for I, 0x2000 for Q): the highest-numbered entry that names its
word or its packed word stands. -/
def forceBit (s : State) (base n : Nat) : Option Bool :=
  (forceEnts s).foldl (fun r e =>
    if e.2.1 = base + n then some (fbit e.2.2 0)
    else if e.2.1 = base + 0x100 + n / 32 then some (fbit e.2.2 (n % 32)) else r) none

/-- The forced value of another word. -/
def forceVal (s : State) (a : Nat) : Option Word :=
  if presentWord s a then (forceEnts s).foldl (fun r e => if e.2.1 = a then some e.2.2 else r) none else none

/-- A word with its force. -/
def forced (s : State) (a : Nat) (w : DWord) : DWord :=
  match forceVal s a with
  | some v => ⟨v, tagFORCED⟩
  | none => w

/-! ### Channel words (R29-R31, R42, R265) -/

/-- The latch `n` has been read by a scan, or lies before one that has. -/
def consumedBy (s : State) (n : Nat) : Bool :=
  match s.img.consumed with
  | some c => decide (n ≤ c)
  | none => false

/-- Channel `n` at the latch of the current tick: edges of consumed latches leave the list; under a force, and at its
removal, the changes of the reported STATE take the place of the channel's own edges. -/
def latchChan (s : State) (n : Nat) : ChanSt :=
  let c := ch s n
  let t := s.tick.num
  let us := s.tick.t0 / 1000
  let kept := c.edges.filter (fun e => !consumedBy s e.1)
  let f := forceBit s 0 n
  let st := f.getD (chState s n)
  let gated := f.isSome || c.repForced
  let old := kept.filter (fun e => decide (e.1 < t))
  let own := kept.filter (fun e => decide (t ≤ e.1))
  let turn := decide (st ≠ c.rep)
  { c with
    edges := if gated then (if turn then old ++ [(t, st)] else old) else kept
    rep := st, repForced := f.isSome
    repTs := if gated then (if turn then some us else c.repTs) else if own.isEmpty then c.repTs else c.lastTs }

/-- The I word of channel `n`, of which `c` is the state at the latch. -/
def chanWord (s : State) (n : Nat) (c : ChanSt) : DWord :=
  let rise := c.edges.any (·.2)
  let fall := c.edges.any (fun e => !e.2)
  let age := match c.repTs with
    | some ts => min 0xFFFFFF (s.tick.t0 / 1000 - ts)
    | none => 0xFFFFFF
  let tag := chCondTag s n
  if n < nCh s then
    ⟨wordOf (b2n c.rep + 2 * b2n c.raw + 4 * b2n rise + 8 * b2n fall + 16 * min 15 c.edges.length + 256 * age),
     if c.repForced && decide (tag ≠ tagUNCONF) then tagFORCED else tag⟩
  else ⟨0, tagABSENT⟩

/-! ### Node words (R36, R246, R249, R250) -/

/-- The node is in the schedule. -/
def nodeSched (s : State) (k : Nat) : Bool := fbit (nodeCfg s k 0) 0

/-- The node is due in tick `n` (R246). -/
def nodeDue (s : State) (k n : Nat) : Bool :=
  let w := nodeCfg s k 0
  decide (n % 2 ^ fld w 1 3 = fld w 4 7)

/-- The node's bus is OFF (R229). -/
def nodeOff (s : State) (k : Nat) : Bool := decide (fld (canCfg s (k / 36) 0) 0 2 = 0)

/-- An event of node `k`, with the schedule source of its bus. -/
def nodeEvent (bit k : Nat) (s : State) : State :=
  fireIf (fbit (canCfg s (k / 36) 0x1C) 3) (403 + 4 * (k / 36)) (fireIf (fbit (nodeCfg s k 8) bit) (256 + k) s)

/-- STATE of the status word. -/
def phaseCode (p : NodePhase) : Nat := match p with | .ok => 1 | .lost => 2 | .rejoining => 3

/-- Node `k` at the latch of the current tick: the newest frame that passed the cut-off is latched, and a due tick without
one is missing; LOSS_N missing frames make the node LOST. -/
def latchNode (s : State) (k : Nat) : State :=
  let x := nd s k
  if !nodeSched s k then
    ndPut s k { x with
      phase := .ok, status := 0, miss := 0, consec := 0, goodRun := 0, rx := [], hasLast := false, last := []
      lastTag := 0, corrAt := [], waiting := false, prevRejoin := false }
  else
    let n := s.tick.num
    let cut : Int := (s.tick.t0 : Int) - 5000
    let pass := x.rx.filter (fun f => decide (f.eof < cut))
    let due := decide (0 < n) && nodeDue s k (n - 1)
    let got := pass.any (fun f => decide (f.tick + 1 = n))
    let missing := due && !got
    let miss := if due then (if got then 0 else min 255 (x.miss + 1)) else x.miss
    let lose := missing && decide (x.phase ≠ .lost) && decide (fld (nodeCfg s k 0) 24 8 ≤ miss)
    let phase := if lose then .lost else x.phase
    let corr := x.corrAt.filter (fun c => !consumedBy s c)
    let f := pass.getLast?
    let late := f.any (·.late)
    let st := wordOf (phaseCode phase + 4 * b2n due + 8 * b2n f.isSome + 16 * b2n (f.any (·.edge)) + 32 * b2n late
      + 64 * b2n (f.any (·.pushed)) + 128 * b2n (corr.any (fun c => decide (c ≤ n))) + 256 * miss
      + 65536 * (x.consec % 4))
    let s1 := ndPut s k { x with
      phase := phase, status := st, miss := miss
      missedTotal := if missing then satN 0xFFFF (x.missedTotal + 1) else x.missedTotal
      losses := if lose then satN 255 (x.losses + 1) else x.losses
      goodRun := if missing then 0 else x.goodRun
      rx := x.rx.filter (fun f => !decide (f.eof < cut))
      hasLast := x.hasLast || f.isSome
      last := match f with | some f => f.data | none => x.last
      lastTag := if f.isSome then (if late then tagLATE else tagGOOD) else x.lastTag
      corrAt := corr }
    if lose then nodeEvent 28 k s1 else s1

/-- The tag of the node's input words after its latch (R36). -/
def nodeTag (s : State) (k : Nat) : Tag :=
  let x := nd s k
  if x.phase ≠ .ok then tagCOMMSLOST
  else if fbit x.status 3 then x.lastTag
  else if fbit x.status 2 then tagSTALE
  else if x.hasLast then x.lastTag
  else tagSTALE

/-- Word `j` of a payload, least significant byte first. -/
def payloadWord (l : List Byte) (j : Nat) : Word :=
  wordOf ((l.getD (4 * j) 0).toNat + 256 * (l.getD (4 * j + 1) 0).toNat + 65536 * (l.getD (4 * j + 2) 0).toNat
    + 16777216 * (l.getD (4 * j + 3) 0).toNat)

/-- Input word `j` of node `k`. -/
def nodeWord (s : State) (k j : Nat) : DWord :=
  if nNodes s ≤ k then ⟨0, tagABSENT⟩
  else if !nodeSched s k || nodeOff s k then forced s (0x400 + 16 * k + j) unconfWord
  else
    let x := nd s k
    forced s (0x400 + 16 * k + j) ⟨if x.hasLast then payloadWord x.last j else 0, nodeTag s k⟩

/-- Status word of node `k` (R250). -/
def nodeStatWord (s : State) (k : Nat) : DWord :=
  if nNodes s ≤ k then ⟨0, tagABSENT⟩
  else if nodeSched s k then forced s (0xE00 + k) ⟨(nd s k).status, tagGOOD⟩
  else forced s (0xE00 + k) unconfWord

/-! ### The system image (R37, R225) -/

/-- The scan flags of word 0x4006. -/
def scanFlags (s : State) : Word :=
  wordOf (b2n s.le.firstScan + 2 * b2n s.le.afterTakeover + 4 * b2n s.le.newVersion + 8 * b2n s.le.prevOverran
    + 16 * s.le.overConsec)

/-- The partner words (R225). -/
def pairWord (s : State) (j : Nat) : DWord :=
  let p := s.pair
  let tag := if !hasTwin s then tagABSENT else if p.role = .solo then tagUNCONF else tagGOOD
  let v := match j with
    | 0 => ((p.partnerState.map stateCode).getD 0) + 16 * roleCode p.partnerRole + 64 * b2n (partnerAlive s)
        + 128 * b2n p.lane0.up + 256 * b2n p.lane1.up + 512 * b2n p.tokenIn + 1024 * b2n p.refSeen
        + 2048 * b2n (pairCurrent s) + 4096 * b2n p.resync + 8192 * b2n (foreignDrive s) + 16384 * b2n p.takeoverNc
        + 32768 * b2n p.r220
    | 1 => p.lag
    | 2 => p.epochTick
    | 3 => p.epochBlocks
    | 4 => p.swept
    | _ => p.giveSrc.toNat + 1024 * p.giveReason.toNat + 65536 * p.giveKind.toNat
  ⟨if tag = tagGOOD then wordOf v else 0, tag⟩

/-- The summary of group `g`. -/
def groupWord (c : Nat → DWord) (g : Nat) : DWord :=
  let t := fun i => (c (8 * g + i)).tag
  ⟨bits32 (fun i => decide (i < 8) && decide (tagClass (t i) ≠ 0) && decide (t i ≠ tagABSENT)),
   tagWorst ((List.range 8).map t)⟩

/-- Node summary word `w`. -/
def nodeSumWord (s : State) (x : Nat → DWord) (w : Nat) : DWord :=
  ⟨bits32 (fun i =>
     let k := 32 * w + i
     decide (k < nNodes s) && (List.range 16).any (fun j => decide (tagClass (x (16 * k + j)).tag ≠ 0))),
   if 32 * w < nNodes s then tagGOOD else tagABSENT⟩

/-- Routed-event word `w` (R408, R409). -/
def eventWord (s : State) (w : Nat) : DWord :=
  ⟨bits32 (fun i => s.img.fired.any (fun p => decide (p.1.toNat = 32 * w + i) && decide (p.2 ≤ s.tick.num))),
   if (List.range 32).any (fun i => srcPresent s (32 * w + i)) then tagGOOD else tagABSENT⟩

/-- Word 0x4000 + `o` of the system image, of which the channel and node words are given. -/
def sysWord (s : State) (c x : Nat → DWord) (o : Nat) : DWord :=
  let good := fun (n : Nat) => (⟨wordOf n, tagGOOD⟩ : DWord)
  if o = 0 then good s.tick.num
  else if o = 1 then good (s.tick.num / 4294967296)
  else if o = 2 then good s.tick.t0
  else if o = 3 then good (s.tick.t0 / 4294967296)
  else if o = 4 then good s.tick.period
  else if o = 5 then good (stateCode s.pair.mstate + 16 * roleCode s.pair.role)
  else if o = 6 then ⟨scanFlags s, tagGOOD⟩
  else if o = 7 then good (s.le.cyclesLast % 67108864)
  else if 0x10 ≤ o ∧ o < 0x30 then groupWord c (o - 0x10)
  else if 0x30 ≤ o ∧ o < 0x35 then nodeSumWord s x (o - 0x30)
  else if 0x40 ≤ o ∧ o < 0x51 then eventWord s (o - 0x40)
  else if 0x80 ≤ o ∧ o < 0x86 then pairWord s (o - 0x80)
  else if 0x86 ≤ o ∧ o < 0x100 ∧ hasTwin s = false then ⟨0, tagABSENT⟩
  else unconfWord

/-- The image of the current tick, from the channels and nodes as latched. -/
def mkImage (s : State) : Image :=
  let chan := mtab (fun _ => unconfWord) 256 (fun n => chanWord s n (ch s n))
  let nodeIn := mtab (fun _ => unconfWord) 2304 (fun i => nodeWord s (i / 16) (i % 16))
  { chan := chan, nodeIn := nodeIn
    nodeStat := mtab (fun _ => unconfWord) 144 (nodeStatWord s)
    sys := mtab (fun _ => unconfWord) 256
      (sysWord s (mget (fun _ => unconfWord) chan) (mget (fun _ => unconfWord) nodeIn)) }

/-- Condition sources whose condition holds are routed again after each latch (R408). -/
def condSources (s : State) : List Nat :=
  ((List.range (nBus s)).filter (fun b => fbit (canCfg s b 0x1C) 0 && !(bu s b).fifo.isEmpty)).map (fun b => 400 + 4 * b)
  ++ ((List.range 2).filter (fun e => decide (0 < mget (fun _ => 0) s.cp.ethRing e))).map (fun e => 416 + 4 * e)
  ++ ((List.range 4).filter (fun u =>
    decide (128 ≤ (mget (fun _ => ({} : UartSt)) s.cp.uart u).rx.length))).map (fun u => 424 + 2 * u)

/-- The tick belongs to the overrun of the scan of the tick before: no exchange, no commit and no scan take place in it
(R41). -/
def heldOver (s : State) : Bool :=
  match s.le.overTick with
  | some n => decide (n + 1 = s.tick.num)
  | none => false

/-- The input latch (R17, R41, R42): in the tick after that of a scan which has overrun, and while one runs, the idle buffer is
filled and the buffers are not exchanged. -/
def inputLatch (s : State) : State :=
  let s1 := (List.range (nNodes s)).foldl latchNode s
  let s2 := { s1 with
    chan := mtab (fun _ => ({} : ChanSt)) (nCh s) (latchChan s1)
    img := { s1.img with fired := s1.img.fired.filter (fun p => !consumedBy s1 p.2) } }
  let im := mkImage s2
  let again := (condSources s2).filter (imgRouted s2)
  { s2 with img := { s2.img with
    cur := if s2.le.running || heldOver s2 then s2.img.cur else im
    idle := if s2.le.running || heldOver s2 then im else s2.img.cur
    fired := again.foldl (fun l n => addNew (BitVec.ofNat 10 n, s2.tick.num + 1) l) s2.img.fired
    lastLatch := s2.tick.num } }

end Sys2Proof.Machine
end

