-- ==== Sys2Proof/Machine/Sluice.lean ====
section
/-! DEFINITION. The Sluice sequencer: keyed starts and releases, the steps of a group's sequence, and the hard-off timer
(R170-R190). -/

namespace Sys2Proof.Machine

/-- The step word in progress; past step 31, and in a single END, it is END (R172, R177). -/
def stepWord (q : SlcGrp) : Word := if q.step < 32 then q.table.getD q.step 0 else 0

/-- OP of a step word. -/
def stepOp (w : Word) : Nat := fld w 0 4

/-- A step is malformed (R172, R175); only a stored step has a parity (R177, R190). -/
def stepBad (s : State) (g : Nat) : Bool :=
  let q := sg s g
  let w := stepWord q
  let chn := fld w 4 8
  (decide (q.step < q.table.length) && mget (fun _ => false) s.slc.parityBad (32 * g + q.step)) ||
  (match stepOp w with
    | 0 => decide (w ≠ 0)
    | 1 | 2 | 3 => decide (w &&& ~~~0xFFF ≠ 0) || decide (fld w 4 8 = 0)
    | 4 => decide (w &&& ~~~0xFFFF007F ≠ 0) || decide (fld w 16 16 = 0)
    | 5 => decide (w &&& ~~~0xFFFF000F ≠ 0) || decide (fld w 16 16 = 0)
    | 6 => decide (w &&& ~~~0xFFF7DFFF ≠ 0) || decide (fld w 20 12 = 0) || decide (fld w 14 5 ≤ q.step)
        || decide (nCh s ≤ chn) || decide (chMode s chn = 0) || decide (chMode s chn = 4)
    | _ => true)

/-- The group runs and the step in progress is due to take effect. -/
def stepDue (s : State) (g : Nat) : Bool :=
  let q := sg s g
  decide (g < nGroups s) && !s.sys.inReset && decide (q.phase = .running) && !q.began && decide (q.stepCyc ≤ s.time.cyc)

/-- The step in progress is a well-formed step `op` that is due. -/
def stepIs (s : State) (g op : Nat) : Bool := stepDue s g && !stepBad s g && decide (stepOp (stepWord (sg s g)) = op)

/-- A step `op` has taken effect and is in progress. -/
def stepRuns (s : State) (g op : Nat) : Bool :=
  let q := sg s g
  decide (g < nGroups s) && !s.sys.inReset && decide (q.phase = .running) && q.began && decide (stepOp (stepWord q) = op)

/-- The next step starts at cycle `cyc`. -/
def nextStep (q : SlcGrp) (step cyc : Nat) : SlcGrp := { q with step := step, stepCyc := cyc, began := false }

/-- MASK of a step word. -/
def stepMask (q : SlcGrp) : Byte := BitVec.ofNat 8 (fld (stepWord q) 4 8)

/-- SLC_KEY write: 0xC35A arms one write; any other write disarms (R180). Bit 31 clears MISS. -/
def execSlcKey (v : Word) (s : State) : Out :=
  cpRow (aSLC + 4) true s <|
  .next { s with slc := { s.slc with armed := decide (fld v 0 16 = 0xC35A), miss := s.slc.miss && !fbit v 31 } }

/-- SLC_START write (R180). -/
def execSlcStart (v : Word) (s : State) : Out :=
  cpRow (aSLC + 8) true s <|
  if s.slc.armed then .next (settle (slcTriggerMask 4 v { s with slc := { s.slc with armed := false } }))
  else .next { s with slc := { s.slc with miss := true } }

/-- The groups of a mask that may be released when the release is written (R182). -/
def releasable (s : State) (v : Word) : Word :=
  bits32 (fun g => v.getLsbD g && decide ((sg s g).phase = .rested) && decide (s.pair.mstate ≠ .safe))

/-- SLC_RELEASE write: the release waits for the next T0 + 2 µs (R180, R182). -/
def execSlcRelease (v : Word) (s : State) : Out :=
  cpRow (aSLC + 0xC) true s <|
  if s.slc.armed then
    .next { s with slc := { s.slc with armed := false, relPending := s.slc.relPending ||| releasable s v } }
  else .next { s with slc := { s.slc with miss := true } }

/-- A pending release takes effect at T0 + 2 µs, if its conditions still hold (R182). -/
def releaseGroups (s : State) : State :=
  let m := releasable s s.slc.relPending
  let s1 := { s with slc := { s.slc with relPending := 0 } }
  ((List.range (nGroups s)).filter (fun g => m.getLsbD g)).foldl
    (fun a g => sgPut a g { sg a g with phase := .idle, held := 0, cmd := 0, table := [] }) s1

/-- A SETCH, CLRCH or HOLD step: its effect, then the next step 1 µs later (R171, R172). -/
def execStep1 (op : Nat) (f : SlcGrp → SlcGrp) (g : Nat) (s : State) : Out :=
  let q := sg s g
  if stepIs s g op then .next (settle (sgPut s g (nextStep (f q) (q.step + 1) (q.stepCyc + 200)))) else .next s

/-- SETCH: the named channels' sequence commands become ON (R171). -/
def execSetch (g : BitVec 5) (s : State) : Out :=
  execStep1 1 (fun q => { q with cmd := q.cmd ||| stepMask q }) g.toNat s

/-- CLRCH: the named channels' sequence commands become OFF (R171). -/
def execClrch (g : BitVec 5) (s : State) : Out :=
  execStep1 2 (fun q => { q with cmd := q.cmd &&& ~~~stepMask q }) g.toNat s

/-- HOLD: the named channels are marked held (R171, R174). -/
def execSlcHold (g : BitVec 5) (s : State) : Out :=
  execStep1 3 (fun q => { q with held := q.held ||| stepMask q }) g.toNat s

/-- The channel bit of a PULSE step. -/
def pulseBit (q : SlcGrp) : Byte := 1#8 <<< fld (stepWord q) 4 3

/-- PULSE: its channel's sequence command becomes ON (R176). -/
def execPulse (g : BitVec 5) (s : State) : Out :=
  let k := g.toNat
  let q := sg s k
  if stepIs s k 4 then .next (settle (sgPut s k { q with cmd := q.cmd ||| pulseBit q, began := true })) else .next s

/-- Cycles of 1 ms and of 100 ms. -/
def cycMs (ms : Nat) : Nat := 200000 * ms

/-- At WIDTH the pulsed command returns OFF and the next step starts (R176). -/
def execPulseEnd (g : BitVec 5) (s : State) : Out :=
  let k := g.toNat
  let q := sg s k
  let t := q.stepCyc + cycMs (fld (stepWord q) 16 16)
  if stepRuns s k 4 && decide (t ≤ s.time.cyc) then
    .next (settle (sgPut s k (nextStep { q with cmd := q.cmd &&& ~~~pulseBit q } (q.step + 1) t)))
  else .next s

/-- WAIT begins (R171). -/
def execSlcWait (g : BitVec 5) (s : State) : Out :=
  if stepIs s g.toNat 5 then .next (sgPut s g.toNat { sg s g.toNat with began := true }) else .next s

/-- A WAIT's time elapses (R172). -/
def execWaitEnd (g : BitVec 5) (s : State) : Out :=
  let k := g.toNat
  let q := sg s k
  let t := q.stepCyc + cycMs (fld (stepWord q) 16 16)
  if stepRuns s k 5 && decide (t ≤ s.time.cyc) then .next (sgPut s k (nextStep q (q.step + 1) t)) else .next s

/-- WAITIN begins (R175). -/
def execWaitin (g : BitVec 5) (s : State) : Out :=
  if stepIs s g.toNat 6 then .next (sgPut s g.toNat { sg s g.toNat with began := true }) else .next s

/-- The channel's debounced state equals STATE, and its tag is not of class bad or not present (R175). -/
def waitinHolds (s : State) (g : Nat) : Bool :=
  let w := stepWord (sg s g)
  let n := fld w 4 8
  decide (tagClass (chCondTag s n) < 2) && decide (chState s n = fbit w 12)

/-- The cycle in which a WAITIN's TIMEOUT has elapsed. -/
def waitinEnd (q : SlcGrp) : Nat := q.stepCyc + cycMs (100 * fld (stepWord q) 20 12)

/-- WAITIN satisfied within its TIMEOUT: the next step starts at the end of the microsecond (R172, R175). -/
def execWaitinSatisfied (g : BitVec 5) (s : State) : Out :=
  let k := g.toNat
  let q := sg s k
  if stepRuns s k 6 && waitinHolds s k && decide (s.time.cyc < waitinEnd q) then
    .next (sgPut s k (nextStep q (q.step + 1) (q.stepCyc + ((s.time.cyc - q.stepCyc) / 200 + 1) * 200)))
  else .next s

/-- WAITIN not satisfied within TIMEOUT: the sequence continues at TSTEP (R175). -/
def execWaitinTimeout (g : BitVec 5) (s : State) : Out :=
  let k := g.toNat
  let q := sg s k
  let t := waitinEnd q
  if stepRuns s k 6 && decide (t ≤ s.time.cyc) then
    .next (sgPut s k { nextStep q (fld (stepWord q) 14 5) t with timeout := true })
  else .next s

/-- END: unheld channels take sequence command OFF and the group is RESTED; a malformed step acts as END and sets
BAD_STEP (R172, R174). With no group RUNNING an old active may release its outputs (R185). -/
def execSlcEnd (g : BitVec 5) (s : State) : Out :=
  let k := g.toNat
  let q := sg s k
  if stepDue s k && (stepBad s k || decide (stepOp (stepWord q) = 0)) then
    let s1 := sgPut s k { q with
      phase := .rested, cmd := q.cmd &&& q.held, badStep := stepBad s k }
    .next (settle (releaseCheck (fireIf (fbit (force s (aSLC + 0x100 + 4 * k)) 1) (440 + k) s1)))
  else .next s

/-- The heartbeat has stopped for at least `ms` ms: the clock monitor stops it on CLOCK_FAIL, and it stops with the logic supply.
Time does not pass in the model without the supply; there the command tells that the period has passed (R186, log 50). -/
def heartStopped (s : State) (ms : Nat) : Bool :=
  !s.sys.powered || (match s.wd.clkFailCyc with
    | some t => decide (t + cycMs ms ≤ s.time.cyc)
    | none => false)

/-- A group's hard-off timer expires, 35-65 ms after the last heartbeat, and latches its outputs off while L+ is present (R186). -/
def execHardOff (g : BitVec 5) (s : State) : Out :=
  if g.toNat < nGroups s ∧ (gr s g.toNat).lost = false ∧ heartStopped s 35 = true then
    .next (settle (grPut s g.toNat { gr s g.toNat with hardOff := true }))
  else .next s

/-- After 65 ms every timer that has its L+ has expired (R186). -/
def hardOffAll (s : State) : State :=
  if heartStopped s 65 then
    { s with grp := mtab (fun _ => ({} : GrpSt)) (nGroups s) (fun g =>
      { gr s g with hardOff := (gr s g).hardOff || !(gr s g).lost }) }
  else s

end Sys2Proof.Machine
end

