-- ==== Sys2Proof/Machine/Tick.lean ====
section
/-! DEFINITION. The tick: its boundary, the entry to RUN, the output commit, the start of the scan, overruns and missed
commits (01, 14). -/

namespace Sys2Proof.Machine

/-! ### Loading station time (R14, R233, R234) -/

/-- A time in µs moved by an offset in ns. -/
def shiftUs (d : Int) (t : Nat) : Nat := ((t : Int) + d / 1000).toNat

/-- A channel's running times follow a step of station time, and no earlier edge has a timestamp in the new base. -/
def rebaseChan (d : Int) (c : ChanSt) : ChanSt :=
  { c with
    rawTs := shiftUs d c.rawTs, filtTs := shiftUs d c.filtTs, fullUntil := shiftUs d c.fullUntil
    confirm := c.confirm.map (fun p => (p.1, shiftUs d p.2)), lastTs := none, repTs := none }

/-- The times of a bus follow a step of station time. -/
def rebaseBus (d : Int) (x : BusSt) : BusSt :=
  let mv := fun (n : Nat) => ((n : Int) + d).toNat
  { x with
    busyTo := mv x.busyTo, spans := x.spans.map (fun p => (mv p.1, mv p.2))
    cur := x.cur.map (fun c => { c with sof := mv c.sof, fin := mv c.fin })
    tx := x.tx.map (fun p => (p.1, { p.2 with reqNs := mv p.2.reqNs })) }

/-- Station time is stepped by `d` ns: a set from source `src` (1 CP, 2 TOD, 3 PARTNER) takes effect. -/
def loadTime (d : Int) (src : BitVec 2) (s : State) : State :=
  let mv := fun (n : Nat) => ((n : Int) + d).toNat
  let s1 := { s with
    time := { s.time with
      ns := mv s.time.ns, valid := true, ppsSec := none, setSrc := src, sets := satN 15 (s.time.sets + 1), pending := none }
    chan := mtab (fun _ => ({} : ChanSt)) (nCh s) (fun n => rebaseChan d (ch s n))
    node := mtab (fun _ => ({} : NodeSt)) (nNodes s) (fun k =>
      { nd s k with rx := (nd s k).rx.map (fun f => { f with eof := f.eof + d }) })
    bus := mtab (fun _ => ({} : BusSt)) (nBus s) (fun b => rebaseBus d (bu s b))
    tick := { s.tick with t0 := mv s.tick.t0 }
    pair := { s.pair with takeoverAt := s.pair.takeoverAt.map mv } }
  fire 489 s1.time.ns s1

/-- The first multiple of `p` at or after `t`. -/
def ceilTo (t p : Nat) : Nat := (t + p - 1) / p * p

/-! ### Entering RUN (R76, R99, R302, R346, R348) -/

/-- A program is held: PROG_ID is 0 with no program (R340). -/
def hasProg (s : State) : Bool := decide (s.le.progId ≠ 0)

/-- LE_BUDGET passes the check of R99, against PERIOD_US as written. -/
def budgetOk (s : State) : Bool := decide (fld (force s (aLE + 0x24)) 0 26 ≤ sliceFloor s)

/-- The causes that allow a warm start, or a stop and run without a reset (R348). -/
def warmCause (s : State) : Bool :=
  s.le.ran || decide (s.sys.cause = 5) || decide (s.sys.cause = 6) || decide (s.sys.cause = 7)

/-- A start from READY is warm (R348): never from the writes of a scan that was not committed. -/
def isWarm (s : State) : Bool :=
  s.sys.startWarm && warmCause s && decide (s.le.progId = s.le.dataId) && !s.le.uncommitted

/-- The RUNID words of the timer blocks that hold one. -/
def runidWords (s : State) : List Nat :=
  (s.mem.words.filter (fun p => decide (0x1E0000 ≤ p.1) && decide (p.1 < 0x1F0000) && decide (p.1 % 8 = 4))).map (·.1)

/-- The copy engine clears the RUNID of every timer block (R76), unless it is frozen or its windows refuse it one (R298). -/
def clearRunids (s : State) : State :=
  if frozen s 2 then s
  else match engHit s (runidWords s) true with
  | some x => accessRefused 2 (engAddr x) true s
  | none => { s with mem := { s.mem with
    words := (s.mem.words.map (fun p =>
      if 0x1E0000 ≤ p.1 ∧ p.1 < 0x1F0000 ∧ p.1 % 8 = 4 then (p.1, (⟨p.2.val &&& 0xFFFF, p.2.tag⟩ : DWord)) else p)).filter
        (fun p => decide (p.2 ≠ goodZero)) } }

/-- A word of the initial contents is written. -/
def initWord (s : State) (p : Nat × DWord) : State :=
  if keptWord p.1 then { s with mem := { s.mem with words := mput (fun _ => goodZero) s.mem.words p.1 p.2 } }
  else if inL p.1 then { s with mem := { s.mem with lwords := mput (fun _ => none) s.mem.lwords p.1 (some p.2) } }
  else s

/-- A cold start: M and T take their initial values, and the persistent words are loaded if the store's records belong to
the running map (R321, R348). -/
def coldMemory (s : State) : State :=
  let s1 := s.sys.initMem.foldl initWord { s with mem := { s.mem with
    words := s.mem.words.filter (fun p => inQ p.1), upset := s.mem.upset.filter (fun p => !(inM p.1 || inT p.1)) } }
  if s.nv.pmap.isEmpty then s1
  else if pmapMatches s then (persistWords s).foldl initWord s1
  else notice 0x05 noSrc 3 0 s1

/-- RUN is entered: by a cold or warm start from READY, or by a takeover, which keeps M, T and RUNID. -/
def runState (s : State) : State :=
  { s with
    pair := { s.pair with mstate := .run }
    tick := { s.tick with missed := 0, commitMissed := false, skipCommit := false }
    wd := { s.wd with twd := [], twdDue := 0 }
    chan := mtab (fun _ => ({} : ChanSt)) (nCh s) (fun n => { ch s n with rearmPrev := true })
    mem := { s.mem with lwords := [], lgen := s.mem.lgen + 1 }
    nv := { s.nv with atSeal := some (mapWords s) }
    le := { s.le with
      firstScan := true, runPending := false, ran := true, dataId := s.le.progId, running := false
      sealedReady := false, bundle := [], issued := false, overran := false, prevOverran := false, overConsec := 0
      goMask := 0, rfxRst := 0, overTick := none, budgetOver := false } }

/-- R99 refuses an entry to RUN: OVER is set, and a notice is written. -/
def budgetRefuse (s : State) : State :=
  notice 0x05 noSrc 1 0 { s with le := { s.le with budgetOver := true, runPending := false, result := 4 } }

/-- A start from READY; `cold` where R220 asks for a cold start (R220, R348). DESIGN CHOICE (log 103): a standby whose backup domain has lost power, and
which has taken RUNID from the active, restarts it at 1 at its next entry to RUN from READY. -/
def enterRun (cold : Bool) (s : State) : State :=
  if !budgetOk s then budgetRefuse s
  else
    let warm := isWarm s && !cold
    let fresh := s.tick.runidFresh || decide (s.tick.runid = 0xFFFF) || decide (s.tick.runid = 0)
    let differs := s.sys.startWarm && warmCause s && !cold && decide (s.le.progId ≠ s.le.dataId)
    let s1 := if fresh then clearRunids s else s
    let s2 := if warm then s1 else coldMemory s1
    let s3 := runState (unhealthy <| noticeIf differs 0x05 noSrc 2 0 s2)
    { s3 with
      tick := { s3.tick with runid := if fresh then 1 else s.tick.runid + 1, runidFresh := false, entryTick := true }
      le := { s3.le with warm := warm, uncommitted := false }
      chan := mtab (fun _ => ({} : ChanSt)) (nCh s3) (fun n => { ch s3 n with cmd := false })
      pair := { s3.pair with tokenOut := decide (s.pair.role = .active), r220 := cold } }

/-- The module enters RUN at this boundary: a SOLO module with AUTO_RUN at tick 1, a pending RUN, or an ACTIVE module
whose role has been taken (R346, R350). -/
def runDue (s : State) : Bool :=
  decide (s.pair.mstate = .ready) && hasProg s && !s.sys.fatalHold &&
    ((decide (s.pair.role = .solo) && (s.le.runPending || (s.le.autoRun && decide (s.tick.num = 1) && !s.le.ran))) ||
     decide (s.pair.role = .active))

/-! ### The boundary (R17) -/

/-- A field of channel `n` among those of R162, or the mode that it runs in (R144), differs between the settings in force before and
now. -/
def chanChanged (old : State) (s : State) (n : Nat) : Bool :=
  [0, 4, 8].any (fun o => decide (force old (aCH n + o) ≠ force s (aCH n + o))) || decide (chMode old n ≠ chMode s n)

/-- Channel `n` begins to settle: its settings have changed, its group's front ends are reloaded, or it starts configured at tick 0
(R145, R162). -/
def settleBegins (old : State) (first : Bool) (s : State) (n : Nat) : Bool :=
  chanChanged old s n || ((gr s (n / 8)).reload && !(gr s (n / 8)).lost) || (first && decide (chModeReg s n ≠ 0))

/-- The changed channels begin to settle (R162); a channel that is configured anew has no edge yet for AGE (R29). -/
def settleNew (old : State) (first : Bool) (s : State) (n : Nat) : State :=
  let s1 := settleStart n (if first then chPulsed s n else decide (fbit (force old (aCH n + 8)) 0 ≠ chPulsed s n)) s
  if first || decide (chModeReg old n ≠ chModeReg s n) then chPut s1 n { ch s1 n with lastTs := none, repTs := none } else s1

/-- Settling at a boundary: changed channels begin to settle, the others count down; the front end of a channel that the new
configuration leaves UNCONFIGURED goes there with tick 0 (R145, R162). -/
def settleAll (old : State) (first : Bool) (s : State) : State :=
  (List.range (nCh s)).foldl (fun a n =>
    if settleBegins old first a n then settleNew old first a n
    else if first then chPut a n (feTake a n (ch a n))
    else if 0 < (ch a n).settleLeft then chPut a n { ch a n with settleLeft := (ch a n).settleLeft - 1 }
    else a) s

/-- The front ends of reloaded groups are served (R145). -/
def reloadDone (s : State) : State :=
  (List.range (nGroups s)).foldl (fun a g =>
    if (gr a g).reload then grPut a g { gr a g with reload := false } else a) s

/-- CURRENT of a standby: in SHADOW, with no full resync in progress and a lag within LAG_MAX (R208). -/
def currentFollow (s : State) : State :=
  let c := decide (s.pair.mstate = .shadow) && !s.pair.resync && decide (s.pair.lag ≤ fld (force s aPAIR) 5 8)
  if s.pair.role = .standby ∧ c ≠ s.pair.current then unhealthy { s with pair := { s.pair with current := c } } else s

/-- The Harvest lag of a standby, measured at a latch (R208). -/
def lagFollow (s : State) : State :=
  if s.pair.role = .standby ∧ s.pair.mstate = .shadow then
    currentFollow { s with pair := { s.pair with
      lag := if s.pair.applied then satN 0xFFFF (s.tick.num - s.pair.epochTick) else 0xFFFF } }
  else s

/-- The class cycles that start in tick `n` (R38). -/
def classStarts (n : Nat) : Byte := (List.range 8).foldl (fun b k => if n % 2 ^ k = 0 then b ||| (1#8 <<< k) else b) 0

/-- The beginning of the tick: a pending set of station time, the period, the number, TBASE and the flags of the phases. A written
period takes effect at a boundary on a whole second (R15). DESIGN CHOICE (log 101): where the long tick of R14 spans a whole second of
the new time, on which no boundary falls, a period that waits goes on waiting for the next whole second that is a boundary. -/
def tickStep (s : State) : State :=
  let first := !s.tick.on
  let old := s.tick.period
  let s1 := match s.time.pending with
    | some (d, src) => loadTime d src s
    | none => s
  let t0 := if s.time.pending.isSome then s1.time.ns else s.tick.next
  let want := fld (written s (aLE + 8)) 0 17
  let p := if t0 % 1000000000 = 0 then want else old
  let num := if first then 0 else s.tick.num + 1
  let next := if s.time.pending.isSome then ceilTo (t0 + 1000 * p) (1000 * p) else t0 + 1000 * p
  { s1 with
    bus := mtab (fun _ => ({} : BusSt)) (nBus s) (fun b =>
      { bu s1 b with spans := (bu s1 b).spans.filter (fun p => decide (s1.tick.t0 ≤ p.2)) })
    tick := { s1.tick with
    lastT0 := s1.tick.t0
    on := true, goAt := none, num := num, t0 := t0, next := next, period := p
    prevPeriod := if p = old then s.tick.prevPeriod else old, periodTick := if p = old then s.tick.periodTick else num
    tbase := if first then s.tick.tbase else s.tick.tbase + wordOf old
    commitDone := false, scanDone := false, evalDone := false, refDone := 0, freeDone := 0
    entryTick := false } }

/-- The latches of equations that are not enabled are clear (R138). -/
def rfxMask (s : State) : State :=
  let en : BitVec 64 := force s (aRFX + 4) ++ force s aRFX
  { s with rfx := { s.rfx with latch := s.rfx.latch &&& en } }

/-- Settings have taken effect at a boundary: equations, settling channels, reloaded front ends and the discipline of station time
follow; `old` is the state before. -/
def settingsTurn (old : State) (first : Bool) (s : State) : State :=
  reloadDone (settleAll old first { rfxMask s with
    time := { s.time with
      disc := if s.pair.mstate = .shadow then 2 else BitVec.ofNat 2 (fld (force s (aTIME + 0x1C)) 0 2) } })

/-- Settings have taken effect between two boundaries: as at a boundary, but no channel counts down. -/
def settleChanged (old : State) (first : Bool) (s : State) : State :=
  (List.range (nCh s)).foldl (fun a n => if settleBegins old first a n then settleNew old first a n else a) (rfxMask s)

/-- What the boundary changes in the logic engine's control: the clock and the core voltage in their window (R100, R372),
new DERATED limits (R376), a pending clear, monitor requests, and a stop whose groups still rest in a module still in RUN (R182,
R350). -/
def leBoundary (s : State) : State :=
  let stop := s.le.stopReady && inRun s && !anyRunning s
  { s with
    pair := { s.pair with mstate := if stop then .ready else s.pair.mstate, tokenOut := s.pair.tokenOut && !stop }
    slc := { s.slc with grp := if stop then [] else s.slc.grp }
    wd := { s.wd with twd := if stop then [] else s.wd.twd, twdDue := if stop then 0 else s.wd.twdDue }
    le := { s.le with
      mhz := if s.le.running then s.le.mhz else s.grd.clockPend.getD s.le.mhz
      hist := if s.le.histClr then [] else s.le.hist
      cyclesMax := if s.le.histClr then 0 else s.le.cyclesMax
      histClr := false, lsFrom := s.time.cyc, stopReady := false, stopping := s.le.stopping && inRun s && !stop }
    grd := { s.grd with
      code := if s.le.running then s.grd.code else s.grd.codePend.getD s.grd.code
      clockPend := if s.le.running then s.grd.clockPend else none
      codePend := if s.le.running then s.grd.codePend else none }
    grp := mtab (fun _ => ({} : GrpSt)) (nGroups s) (fun g => { gr s g with derated := (gr s g).deratedNew })
    mon := { s.mon with
      snapBusy := s.mon.snapBusy || s.mon.snapReq, writeBusy := s.mon.writeBusy || s.mon.writeReq
      snapAccTick := if s.mon.snapReq && !s.mon.snapBusy then s.tick.num else s.mon.snapAccTick
      writeAccTick := if s.mon.writeReq && !s.mon.writeBusy then s.tick.num else s.mon.writeAccTick
      snapReq := false, writeReq := false }
    nv := { s.nv with roundAcc := if roundDue s then (if s.nv.roundAcc.isSome then s.nv.roundAcc else some s.tick.num) else none } }

/-- Harvest begins shipping the closed epoch (R17, R203). -/
def shipStart (s : State) : State :=
  if harvestSends s ∧ s.pair.ship.isNone ∧ s.pair.closed.isSome then
    { s with pair := { s.pair with ship := s.pair.closed, closed := none } }
  else s

/-- The task watchdogs at a boundary: while an overrunning scan runs, the class cycles wait for its end (R302). -/
def twdBoundary (s : State) : State :=
  if !inRun s then { s with wd := { s.wd with twd := [], twdDue := 0 } }
  else if s.le.running then { s with wd := { s.wd with twdDue := s.wd.twdDue ||| classStarts s.tick.num } }
  else twdJudge (classStarts s.tick.num) s

/-- An UNDECIDED module listens from tick 0 for PAIR_CFG.LISTEN × 10 ms (R195, R346). -/
def listenStart (s : State) : State :=
  if s.pair.role = .undecided then
    { s with pair := { s.pair with listenUntil := some (s.time.cyc + cycMs (10 * fld (force s aPAIR) 16 7)) } }
  else s

/-! ### The output commit (R17-R20, R33-R35, R178, R179) -/

/-- The committed Q word `a` as every reader is given it (R24). -/
def sealedWord (s : State) (a : Nat) : DWord :=
  let w := mget (fun _ => goodZero) s.le.commQ a
  if mget (fun _ => 0) s.mem.upset a = 2 || tagReserved w.tag then ⟨0, tagMEMORY⟩ else w

/-- The faults of R24 that the commit's reads record. -/
def commitFaults (s : State) : List (Nat × Nat) :=
  let bad := (s.mem.upset.filter (fun p => qWord p.1)).map (fun p => (p.1, if p.2 = 2 then 0x10 else 8))
  bad ++ (s.le.commQ.filter (fun p => tagReserved p.2.tag && decide (upsetOf s p.1 ≠ 2))).map (fun p => (p.1, 0x11))

/-- Channel `n` takes its committed command: forced, CMD, or its fail action; and REARM on a rise (R33, R34, R158). The Q
word of a channel that is no output is ignored (R33), and REARM has no effect under a sequence (R173). -/
def commitOut (s : State) (n : Nat) : State :=
  let w := sealedWord s (0x2000 + n)
  let good := decide (tagClass w.tag < 2)
  let c := ch s n
  let hold := fbit (chCfg s n 0x10) 0
  let cmd := match forceBit s 0x2000 n with
    | some b => b
    | none => if good then fbit w.val 0 else hold && c.cmd
  let re := (good || (forceBit s 0x2000 n).isSome) && fbit w.val 1
  let s1 := chPut s n { c with cmd := cmd, rearmPrev := re }
  if re && !c.rearmPrev && decide ((sg s (n / 8)).phase = .idle) then rearm n false s1 else s1

/-- The commit of channel `n`. -/
def commitChan (s : State) (n : Nat) : State :=
  if isOut s n then commitOut s n else chPut s n { ch s n with cmd := false }

/-- Q words of absent units read back with tag ABSENT after the commit (R5). -/
def absentBack (s : State) : State :=
  let l := ((List.range 256).filter (fun n => decide (nCh s ≤ n))).map (fun n => 0x2000 + n)
    ++ ((List.range 144).filter (fun k => decide (nNodes s ≤ k))).flatMap (fun k =>
      (0x2E00 + k) :: (List.range 16).map (fun j => 0x2400 + 16 * k + j))
  { s with mem := { s.mem with
    words := l.foldl (fun m a => mput (fun _ => goodZero) m a
      { mget (fun _ => goodZero) m a with tag := tagABSENT }) s.mem.words } }

/-- The Q word of a node as the bus schedule takes it, with its force (R20, R251). -/
def busWord (s : State) (a : Nat) : DWord := forced s a (sealedWord s a)

/-- The control word of node `k`; a bad or not-present tag makes it 0 (R251). -/
def ctlWord (s : State) (k : Nat) : Word :=
  let w := busWord s (0x2E00 + k)
  if tagClass w.tag < 2 then w.val else 0

/-- The control words are taken at a commit: OUT_OFF, and REJOIN on a rise between commits (R249, R251). -/
def commitNode (s : State) (k : Nat) : State :=
  if !nodeSched s k then s
  else
    let w := ctlWord s k
    let x := nd s k
    let back := fbit w 1 && !x.prevRejoin && decide (x.phase = .rejoining)
    let s1 := ndPut s k { x with
      outOff := fbit w 0, prevRejoin := fbit w 1, phase := if back then .ok else x.phase }
    if back then nodeEvent 29 k s1 else s1

/-- Bytes of a data length code (R228). -/
def dlcBytes (d : Nat) : Nat :=
  match d with
  | 9 => 12 | 10 => 16 | 11 => 20 | 12 => 24 | 13 => 32 | 14 => 48 | 15 => 64 | n => n

/-- The bytes of a word, least significant first. -/
def wordBytes (w : Word) : List Byte := (bytesLE w).map (BitVec.ofNat 8)

/-- The output frame of node `k` in this tick, if one is sent (R246, R251): an FD frame where NODE_CFG.OUT_FD asks for one and the bus
permits it, else a Classical CAN frame of at most 8 bytes (R228, log 91). -/
def outFrame (s : State) (k : Nat) : Option SchedFrame :=
  let cfg := nodeCfg s k 0
  let can := canCfg s (k / 36) 0
  let fd := fbit cfg 14 && fbit can 2
  let m := dlcBytes (fld cfg 20 4)
  let n := if fd then m else min 8 m
  let ws := (List.range ((n + 3) / 4)).map (fun j => busWord s (0x2400 + 16 * k + j))
  let bad := decide (2 ≤ tagClass (tagWorst (ws.map (·.tag))))
  let id := nodeCfg s k 0x10
  if nodeSched s k && nodeDue s k s.tick.num && decide (0 < n) && !(nd s k).outOff && (!bad || fbit cfg 11) then
    some { kind := 1, id := id.truncate 29, ide := fbit id 29, fdf := fd, brs := fd && fbit can 3, node := k
           data := (ws.flatMap (fun w => wordBytes w.val)).take n }
  else none

/-- The schedule of bus `b` waits: for a bus-off recovery, and after it for the next T0 + 10 µs (R231). -/
def busHeld (s : State) (b : Nat) : Bool := decide ((bu s b).state = 2) || decide ((bu s b).holdTick = some s.tick.num)

/-- The module is the reference master of bus `b` (R241). -/
def refMaster (s : State) (b : Nat) : Bool :=
  inRun s && (decide (s.pair.role = .solo) || decide (s.pair.role = .active)) &&
    decide (fld (canCfg s b 0) 0 2 = 1) && fbit (canCfg s b 0) 5 && !busHeld s b &&
    (match (bu s b).lowerHeard with | some n => decide (n + 2 < s.tick.num) | none => true)

/-- Scheduled frames of kind `k` that are still pending are superseded (R230). -/
def supersede (k : BitVec 2) (b : Nat) (s : State) : State :=
  let n := ((bu s b).sched.filter (fun f => f.kind = k)).length
  let s1 := buPut s b { bu s b with
    sched := (bu s b).sched.filter (fun f => decide (f.kind ≠ k)), superseded := satN 0xFFFF ((bu s b).superseded + n) }
  fireIf (decide (0 < n) && fbit (canCfg s b 0x1C) 4) (403 + 4 * b) s1

/-- The output frames of the tick are loaded on bus `b`, in slot order (R242). -/
def loadOutputs (s : State) (b : Nat) : State :=
  let s1 := supersede 1 b s
  let ks := (List.range 36).map (fun i => 36 * b + i)
  let fs := ks.filterMap (outFrame s1)
  if refMaster s1 b then buPut s1 b { bu s1 b with sched := (bu s1 b).sched ++ fs } else s1

/-- A commit reaches the output stages and the bus schedules. -/
def commitNow (s : State) : State :=
  let s0 := { s with le := { s.le with commQ := s.le.sealedQ } }
  let s1 := recordReadFaults (commitFaults s0) s0
  let s2 := (List.range (nCh s)).foldl commitChan s1
  let s3 := (List.range (nNodes s)).foldl commitNode s2
  absentBack { s3 with tick := { s3.tick with missed := 0, commitMissed := false } }

/-- The requests that travelled with the image, at their instant: reflex resets, the end of actions, and then sequences, from the
outputs just set (R132, R135, R179). -/
def commitRequests (s : State) : State :=
  let go := s.le.sealedGo
  let s1 := rfxReset s.le.sealedRst { s with le := { s.le with sealedReady := false, sealedGo := 0, sealedRst := 0 } }
  let s2 := rfxEndActions (rfxEval s1)
  if go = 0 then s2 else slcTriggerMask 5 go s2

/-- OUTPUT_COMMIT is due. -/
def commitDue (s : State) : Bool := tickRuns s && !s.tick.commitDone && decide (s.tick.t0 + 2000 ≤ s.time.ns)

/-- A commit takes place at this T0 + 2 µs. -/
def commitTakes (s : State) : Bool :=
  inRun s && s.le.sealedReady && !s.le.running && !heldOver s && !s.tick.skipCommit && decide (s.le.sealedTick ≠ s.tick.num)

/-- CP re-arms take effect (R158). -/
def cpRearms (s : State) : State :=
  (List.range (nCh s)).foldl (fun a n => if (ch a n).rearmReq then rearm n true a else a) s

/-- The count of missed commits: not in the entry tick from READY (R21, R178). -/
def commitMiss (s : State) : State :=
  if inRun s && !s.tick.entryTick then
    unhealthy { s with tick := { s.tick with missed := s.tick.missed + 1, commitMissed := true } }
  else s

/-- A takeover's first commit asserts TOKEN_OUT and sends TAKEN (R212). -/
def takeoverCommit (s : State) : State :=
  if s.pair.role = .active ∧ inRun s ∧ s.pair.tokenOut = false ∧ s.pair.immediateCommit = false then
    sendFrame (.taken (BitVec.ofNat 64 s.tick.num)) { s with pair := { s.pair with tokenOut := true } }
  else s

/-- OUTPUT_COMMIT (R17): the sealed image, or the missed commit; then re-arms, releases, the end of reflex actions and the
output frames. -/
def execOutputCommit (s : State) : Out :=
  if !commitDue s then .next s
  else
    let takes := commitTakes s
    let s1 := if takes then commitRequests (takeoverCommit (commitNow s)) else commitMiss s
    let s2 := { s1 with
      tick := { s1.tick with commitDone := true, skipCommit := false }
      pair := { s1.pair with immediateCommit := false } }
    let s3 := releaseGroups (cpRearms (rfxEndActions (rfxEval s2)))
    .next (settle ((List.range (nBus s)).foldl loadOutputs s3))

/-- REFRESH_TIMEOUT (R178). -/
def execRefreshTimeout (s : State) : Out :=
  if inRun s && decide (fld (force s aSLC) 0 8 ≤ s.tick.missed) && s.tick.commitDone then
    .next (settle (fatalFault 538 0x23 { s with tick := { s.tick with missed := 0 } }))
  else .next s

/-! ### The scan -/

/-- A scan starts in this tick: RUN, with the log restored (R333), at T0 + 3 µs, with no scan running and none run in this tick, and not in the tick after
an overrun, whose latch was not exchanged (R17, R41). -/
def scanDue (s : State) : Bool :=
  tickRuns s && inRun s && s.btn.restored && !s.le.running && !heldOver s && !s.tick.scanDone && s.tick.commitDone
    && decide (s.tick.t0 + 3000 ≤ s.time.ns) && !s.prot.frozen.getLsbD 0

/-- A fresh working state (R48): the scan begins at slot 0 of bundle 0 of block 0. -/
def scanFresh (s : State) : State :=
  { s with
    le := { s.le with
      running := true, lanes := [], pc := 0, slot := 0, callStack := [], poolbase := 0, sluiceArmed := false, goMask := 0
      rfxRst := 0, raised := 0, trapFired := false, scanCyc := 0, stalls := 0, bundle := [], issued := false
      startCyc := s.time.cyc, scanTick := s.tick.num, overran := false
      slice := ((s.tick.next - s.tick.t0) / 1000 - 12) * s.le.mhz, scanTbase := s.tick.tbase, overTick := none }
    img := { s.img with consumed := some s.img.lastLatch } }

/-- SCAN_START (R17, R48): an overdue swap lands first (R43); a deleted or empty root is an ILLEGAL trap (R108). -/
def execScanStart (s : State) : Out :=
  if !scanDue s then .next s
  else
    let s0 := if swapDue s then swapNow s else s
    let s1 := scanFresh s0
    if (liveOf s1 0).len = 0 then .next (abortScan (recordTraps [(0, 4)] s1)) else .next s1

/-- OVERRUN (R41, R44). -/
def execOverrun (s : State) : Out :=
  if s.le.running && !s.le.overran && decide (s.le.scanTick = s.tick.num) && decide (s.tick.next ≤ s.time.ns + 9000) then
    let s1 := { s with
      le := { s.le with overran := true, overTick := some s.le.scanTick, overTotal := satN 0xFFFF (s.le.overTotal + 1) }
      btn := { s.btn with overruns := satN 0xFFFFFFFF (s.btn.overruns + 1) } }
    .next (settle (overrunCount (containedFault 473 0x18 (fire 473 s.time.ns s1))))
  else .next s

/-- SCAN_HIST_CFG.CLR write: the histogram and SCAN_CYCLES_MAX clear at the next boundary (R101). -/
def execScanHistClr (v : Word) (s : State) : Out :=
  cpRow (aLE + 0x20) true s <|
  .next { s with le := { s.le with histClr := s.le.histClr || fbit v 0 } }

/-- COUNT_LO read latches the high word (R16). -/
def execCountLo (s : State) : Out :=
  cpRow (aLE + 0xC) false s <|
  .next (readOut (lo32 s.tick.num) { s with tick := { s.tick with countHi := hi32 s.tick.num } })

end Sys2Proof.Machine
end

