-- ==== Sys2Proof/Machine/Monitor.lean ====
section
/-! DEFINITION. The online monitor, the CP's windows on the logic engine's memories, the lockstep self-test and the scrubber
(03, 10). -/

namespace Sys2Proof.Machine

/-! ### Monitor requests (R105, R264) -/

/-- MON_CMD.SNAP: accepted at the next tick boundary (R264). -/
def execMonSnap (s : State) : Out :=
  cpRow (aLE + 0x98) true s <| .next { s with mon := { s.mon with snapReq := true } }

/-- MON_CMD.WRITE: accepted at the next tick boundary (R264). -/
def execMonWrite (s : State) : Out :=
  cpRow (aLE + 0x98) true s <| .next { s with mon := { s.mon with writeReq := true } }

/-- A migration table falls due, or was applied, at this seal, so that monitor requests wait for the next one (R120, R264). -/
def migAtSeal (s : State) : Bool :=
  decide (s.edit.migSeal = some s.le.sealedTick) || (swapPending s && !swapMoot s && !s.edit.migDone
    && decide (s.edit.target ≤ s.tick.num + 1) && decide (0 < s.edit.mig.entries.toNat))

/-- The seal of the scan that has just ended serves a request accepted in tick `acc`: the scan of that tick only if it left at
least 10 % of its slice unused, and has not overrun (R14, R105). -/
def sealServes (s : State) (acc : Nat) : Bool :=
  s.le.sealedReady && !s.le.running && decide (s.le.sealedTick = s.tick.num) && !s.prot.frozen.getLsbD 2 && !migAtSeal s
    && decide (acc ≤ s.le.scanTick)
    && (decide (s.le.scanTick ≠ acc) || (!s.le.prevOverran && decide (10 * s.le.cyclesLast ≤ 9 * s.le.slice)))

/-- A pending snapshot is taken at this seal. -/
def snapServes (s : State) : Bool := s.mon.snapBusy && sealServes s s.mon.snapAccTick

/-- The words of the snapshot (R264). -/
def snapLen (s : State) : Nat := min 1024 (fld (force s (aLE + 0x94)) 0 11)

/-- The first `n` words of the snapshot are copied into the buffer; what it holds beyond them stays (R264). -/
def snapCopy (n : Nat) (s : State) : State :=
  let a := fld (force s (aLE + 0x90)) 0 21
  recordReadFaults ((List.range n).flatMap (fun i => readFaults s (a + i))) { s with mon := { s.mon with
    buf := mputs (fun _ => goodZero) s.mon.buf ((List.range n).map (fun i => (i, readWord s (a + i)))) } }

/-- SNAPSHOT (R105, R264); a word that the windows refuse to the copy engine stops it, and the request waits (R298, R299). -/
def execSnapshot (s : State) : Out :=
  let a := fld (force s (aLE + 0x90)) 0 21
  if !snapServes s then .next s
  else match engHit s ((List.range (snapLen s)).map (fun i => a + i)) false with
    | some x => .next (settle (accessRefused 2 (engAddr x) false (snapCopy (x - a) s)))
    | none =>
      let s1 := snapCopy (snapLen s) s
      .next { s1 with mon := { s1.mon with snapBusy := false, snapDone := true, snapTick := wordOf s.le.scanTick } }

/-- Word `j` of entry `i` of the write list. -/
def wlWord (s : State) (i j : Nat) : Word := mget (fun _ => 0) s.mon.wlist (4 * i + j)

/-- An entry targets I, S, the reserved area, or a reserved tag code (R264). -/
def wlBad (s : State) (i : Nat) : Bool :=
  let a := fld (wlWord s i 0) 0 21
  inI a || inS a || decide (0x5000 ≤ a ∧ a < 0x8000) || tagReserved ((wlWord s i 2).truncate 4)

/-- One entry of the write list is applied, or skipped and counted. -/
def wlApply (s : State) (i : Nat) : State :=
  if !fbit (wlWord s i 0) 31 then s
  else if wlBad s i then { s with mon := { s.mon with skipped := satN 255 (s.mon.skipped + 1) } }
  else engAct (fld (wlWord s i 0) 0 21) true (writeWord (fld (wlWord s i 0) 0 21) ⟨wlWord s i 1, (wlWord s i 2).truncate 4⟩) s

/-- WRITE_LIST: after the snapshot, at the same seal (R264); a list that a refused access stops waits (R298, R299). -/
def execWriteList (s : State) : Out :=
  if s.mon.writeBusy && !snapServes s && sealServes s s.mon.writeAccTick then
    let s1 := (List.range 64).foldl wlApply { s with mon := { s.mon with skipped := 0 } }
    .next (if frozen s1 2 then settle s1 else { s1 with mon := { s1.mon with writeBusy := false, writeDone := true } })
  else .next s

/-- PERSIST_ROUND: at a scan seal, as for a snapshot; a module that runs no scan takes the words as they stand (R105, R321, log 98). -/
def execPersistRound (s : State) : Out :=
  let may := if inRun s then (match s.nv.roundAcc with | some t => sealServes s t | none => false)
    else !s.le.running && !s.prot.frozen.getLsbD 2
  if !(roundDue s && may) then .next s
  else match engHit s (s.nv.pmap.map (·.toNat)) false with
    | some x => .next (settle (accessRefused 2 (engAddr x) false s))
    | none => .next (roundTake s)

/-! ### The data window (R11, R262, R263) -/

/-- CP address of a word of the data window. -/
def winAddr (a : BitVec 21) (hi : Bool) : Nat := 0x31000000 + 8 * a.toNat + (if hi then 4 else 0)

/-- A low-word write is held; a low word that is already held, and did not meet its high word, is discarded with DROP (R262,
log 25). -/
def execDataWindowLowWrite (a : BitVec 21) (v : Word) (s : State) : Out :=
  if !cpMay s (winAddr a false) true then .next (cpRefused s (winAddr a false) true)
  else .next { s with mon := { s.mon with
    held := some (a, v)
    drop := s.mon.drop || s.mon.held.isSome } }

/-- A high-word write: both halves, or the tag alone; a reserved tag code writes nothing (R262, R263). -/
def execDataWindowHighWrite (a : BitVec 21) (v : Word) (s : State) : Out :=
  let t : Tag := v.truncate 4
  let s1 := { s with mon := { s.mon with
    held := none, drop := s.mon.drop || (match s.mon.held with | some p => decide (p.1 ≠ a) | none => false)
    tagErr := s.mon.tagErr || tagReserved t } }
  if !cpMay s (winAddr a true) true then .next (cpRefused s (winAddr a true) true)
  else if tagReserved t then .next s1
  else match s.mon.held with
    | some p => .next (if p.1 = a then writeWord a.toNat ⟨p.2, t⟩ s1 else writeTag a.toNat t s1)
    | none => .next (writeTag a.toNat t s1)

/-- CP address of the low word of a program word. -/
def progAddr (i : BitVec 20) : Nat := 0x30000000 + 8 * i.toNat

/-- A low-word read of the program store window latches bits [35:32] of the same word; a refused read returns zero (R262, R298). -/
def progLowRead (i : BitVec 20) (s : State) : State :=
  if !cpMay s (progAddr i) false then
    readOut 0 (cpRefused { s with mon := { s.mon with progLatch := 0, progLatchAddr := some i } } (progAddr i) false)
  else
    let w := mget (fun _ => (0 : BitVec 36)) s.mem.prog i.toNat
    readOut (w.truncate 32) (recordReadFaults (codeFault s (progKey i.toNat))
      { s with mon := { s.mon with progLatch := w.extractLsb' 32 4, progLatchAddr := some i } })

/-- A low-word read of the data window delivers the value and latches the tag of the same word; a refused read returns zero and
latches MEMORY (R24, R262, R298). -/
def dataLowRead (a : BitVec 21) (s : State) : State :=
  if !cpMay s (winAddr a false) false then
    readOut 0 (cpRefused { s with mon := { s.mon with tagLatch := tagMEMORY, latchAddr := some a } } (winAddr a false) false)
  else
    let w := readWord s a.toNat
    readOut w.val (recordReadFaults (readFaults s a.toNat) { s with mon := { s.mon with tagLatch := w.tag, latchAddr := some a } })

/-- DATA_WINDOW_LOW_READ; the program store window behaves in the same way (R262). -/
def execDataWindowLowRead (w : LeWord) (s : State) : Out :=
  match w with
  | .data a => .next (dataLowRead a s)
  | .prog i => .next (progLowRead i s)

/-! ### The program store windows (R11, R110, R114, R122) -/

/-- Program words and pool entries that an open range admits. -/
def inOpen (s : State) (pool : Bool) (x : Nat) : Bool :=
  match s.edit.openRange with
  | some r => r.pool = pool && decide (r.base.toNat ≤ x) && decide (x < r.base.toNat + r.len)
  | none => false

/-- What is written into the open range is forwarded to a partner in SHADOW (R122): bundle or page `x`. -/
def forwardProg (pool : Bool) (x : Nat) (s : State) : State := partnerLow [.range x 1 pool] s

/-- A write to word `i` of the program store window, `hi` its high half (R11, R110, R114, R262). -/
def progWinWrite (i : Nat) (hi : Bool) (v : Word) (s : State) : State :=
  let key : BitVec 20 := BitVec.ofNat 20 i
  let other := match s.mon.heldProg with | some p => decide (p.1 ≠ key) | none => false
  if !hi then { s with mon := { s.mon with heldProg := some (key, v), drop := s.mon.drop || s.mon.heldProg.isSome } }
  else
    let s1 := { s with mon := { s.mon with heldProg := none, drop := s.mon.drop || other } }
    let old := mget (fun _ => (0 : BitVec 36)) s.mem.prog i
    let lo : Word := match s.mon.heldProg with | some p => if p.1 = key then p.2 else old.truncate 32 | none => old.truncate 32
    if inOpen s false (i / 4) then
      forwardProg false (i / 4) { s1 with mem := { s1.mem with
        prog := mput (fun _ => 0) s.mem.prog i ((v.truncate 4 : BitVec 4) ++ lo)
        upset := mput (fun _ => 0) s.mem.upset (progKey i) 0 } }
    else s1

/-- A write to entry `i` of the Rake pool window: the mask or the pattern word (R65). -/
def poolWinWrite (i : Nat) (hi : Bool) (v : Word) (s : State) : State :=
  let e := mget (fun _ => ((0 : Word), (0 : Word))) s.mem.pool i
  if inOpen s true (i / 64) then
    forwardProg true (i / 64) { s with mem := { s.mem with
      pool := mput (fun _ => (0, 0)) s.mem.pool i (if hi then (e.1, v) else (v, e.2))
      upset := mput (fun _ => 0) s.mem.upset (poolKey i) 0 } }
  else s

/-! ### Lockstep (R103, R104) -/

/-- LOCKSTEP_MISMATCH: a fatal fault; the scan in which it occurs is never committed. The comparison runs in each LE cycle, also
two cycles after the end of a scan, so that the scan just sealed is dropped too (R103, log 54). -/
def execLockstepMismatch (s : State) : Out :=
  if s.sys.powered && !s.sys.inReset && decide (s.pair.mstate ≠ .init) && decide (s.pair.mstate ≠ .sleep) then
    .next (settle (fatalFault 476 0x21 (fire 476 s.time.ns (stopScan s))))
  else .next s

/-- A pass starts at the tick boundary of a whole second, in its fabric cycle, if no pass is in progress (R104). -/
def execSelfTestPassStart (s : State) : Out :=
  if tickRuns s && !s.le.lsActive && decide (s.tick.t0 % 1000000000 = 0) && decide (s.time.ns ≤ s.tick.t0 + 5) then
    .next { s with le := { s.le with lsActive := true, lsStep := 0, lsStart := s.tick.t0 / 1000000000 } }
  else .next s

/-- A self-test step runs: steps of 1 µs run back to back while the logic engine is idle, from the end of the scan (in a tick
without one, from its T0) until T0 + P - 8 µs, so that in each tick whose scan has ended by T0 + P - 9 µs one step fits (R104). -/
def lsStepRuns (s : State) : Bool :=
  tickRuns s && s.le.lsActive && !s.le.running && (s.tick.scanDone || !inRun s || heldOver s)
    && decide (s.time.ns + 5 * (s.le.lsFrom + 200 - s.time.cyc) + 8000 ≤ s.tick.next)

/-- The step that runs has taken its 1 µs. -/
def lsStepDue (s : State) : Bool := lsStepRuns s && decide (s.le.lsFrom + 200 ≤ s.time.cyc)

/-- LOCKSTEP_SELF_TEST: the end of a step of the pass; a step that fails, at any time while it runs, is a fatal lockstep fault
(R104). -/
def execLockstepSelfTest (pass : Bool) (s : State) : Out :=
  if pass then
    if lsStepDue s then
      let done := decide (999 ≤ s.le.lsStep)
      .next { s with le := { s.le with
        lsStep := s.le.lsStep + 1, lsActive := !done, lsFrom := s.time.cyc
        lsPasses := if done then satN 0xFFFF (s.le.lsPasses + 1) else s.le.lsPasses
        lsPeriod := if done then satN 255 (s.le.lsStart - s.le.lsPrevStart.getD s.le.lsStart) else s.le.lsPeriod
        lsPrevStart := if done then some s.le.lsStart else s.le.lsPrevStart } }
    else .next s
  else if lsStepRuns s then
    .next (settle (fatalFault 476 0x21 (fire 476 s.time.ns { s with le := { s.le with lsActive := false } })))
  else .next s

/-- DB_PROG: a double-bit error in the program store or the Rake pool (R284). -/
def execDbProg (s : State) : Out := .next (settle (fatalFault 538 0x22 s))

/-! ### The scrubber (R90, R97) -/

/-- The word at position `p` of bank `b`. -/
def bankWord (b p : Nat) : Nat :=
  if p < 122880 then 16 * p + b else 0x1E0000 + 8 * ((p - 122880) / 8 * 16 + b) + (p - 122880) % 8

/-- SCRUB: the next word of a bank is read and checked; a single-bit error is corrected and written back (R97, R284). -/
def execScrub (bank : BitVec 4) (s : State) : Out :=
  let b := bank.toNat
  let p := mget (fun _ => 0) s.mem.scrubPos b
  let a := bankWord b p
  let s1 := { s with mem := { s.mem with
    scrubPos := mput (fun _ => 0) s.mem.scrubPos b ((p + 1) % 131072)
    upset := if mget (fun _ => 0) s.mem.upset a = 1 then mput (fun _ => 0) s.mem.upset a 0 else s.mem.upset } }
  .next (if mget (fun _ => 0) s.mem.upset a = 1 then sramCount a (corrected s1) else s1)

end Sys2Proof.Machine
end

