-- ==== Sys2Proof/Machine/Pair.lean ====
section
/-! DEFINITION. The redundant pair: the twin link, Harvest, give-up, takeover and roles (08). -/

namespace Sys2Proof.Machine

/-- The key of a keyed command. -/
def cmdKey : BitVec 16 := 0xC35A

/-- A notice of KIND PAIR (R330). -/
def pairNotice (src : Nat) (s : State) : State := notice 0x06 src s.pair.lastCause.toNat (pairStatus s) s

/-- The pair notice where `c` holds. -/
def pairNoticeIf (c : Bool) (src : Nat) (s : State) : State := if c then pairNotice src s else s

/-! ### Lanes and frames (R198, R199) -/

/-- The module listens to the link: a twin module not in role SOLO (R192). -/
def linkOpen (s : State) : Bool :=
  hasTwin s && s.sys.powered && !s.sys.inReset && decide (s.pair.role ≠ .solo) && decide (s.pair.mstate ≠ .init)
    && decide (s.pair.mstate ≠ .sleep)

/-- A discarded frame counts in the lane's ERRORS; it is a frame all the same, so the lane is not silent (R199, R325). -/
def laneError (l : Bool) (s : State) : State :=
  let x := laneOf s l
  let s1 := lanePutL s l { x with errors := satN 0xFFFF (x.errors + 1), lastRx := s.time.cyc }
  { s1 with btn := { s1.btn with
    laneErr := mput (fun _ => 0) s.btn.laneErr (b2n l) (satN 0xFFFFFFFF (mget (fun _ => 0) s.btn.laneErr (b2n l) + 1)) } }

/-- Frames resent on a lane count in its RETX. -/
def laneRetx (l : Bool) (n : Nat) (s : State) : State :=
  let x := laneOf s l
  let s1 := lanePutL s l { x with retx := satN 4095 (x.retx + n) }
  { s1 with btn := { s1.btn with
    laneRetx := mput (fun _ => 0) s.btn.laneRetx (b2n l) (satN 0xFFFFFFFF (mget (fun _ => 0) s.btn.laneRetx (b2n l) + n)) } }

/-- A standby awaits a full resync: it is NOT_CURRENT at once, what it has staged is discarded, and the next epochs of the resync
may begin with any number (R208, R209, log 36). -/
def awaitResync (s : State) : State :=
  currentFollow { s with pair := { s.pair with resync := true, staged := none, seqAny := true, tableSeen := false } }

/-- A resync falls due on the side of this module (R209). -/
def resyncHere (s : State) : State :=
  if s.pair.role = .active ∧ s.pair.partnerState = some .shadow then startResync s
  else if s.pair.role = .standby then awaitResync s
  else s

/-- A good frame on a lane: the lane is up, acknowledged frames leave the list (R199, R226). -/
def laneHeard (h : FrameHdr) (s : State) : State :=
  let x := laneOf s h.lane
  let both := lanesDown s
  let s1 := lanePutL s h.lane { x with up := true, lastRx := s.time.cyc }
  let s2 := { s1 with pair := { s1.pair with
    unacked := s1.pair.unacked.filter (fun f => decide (0x8000 ≤ (h.ack - f.hdr.seq).toNat))
    partnerRole := h.role } }
  let s3 := fireIf (!x.up) (432 + b2n h.lane) s2
  if both then resyncHere s3 else s3

/-- The frame is the next in order; the first sequenced frame after both lanes were down, or after a reset, sets the number (R199,
log 87). -/
def seqNext (s : State) (h : FrameHdr) : Bool := s.pair.rxAny || decide (h.seq = seqAfter s.pair.rxSeq)

/-- A frame arrives: discarded with a bad CRC, delivered in SEQ order if it is sequenced (R199). -/
def onFrame (sequenced : Bool) (h : FrameHdr) (f : State → State) (s : State) : State :=
  if !linkOpen s then s
  else if !h.ok then laneError h.lane s
  else if !sequenced then f (laneHeard h s)
  else if seqNext s h then
    let s1 := laneHeard h s
    f { s1 with pair := { s1.pair with rxSeq := h.seq, rxAny := false } }
  else laneHeard h s

/-- The conditions of R196 under which a module takes role ACTIVE. -/
def canRun (s : State) : Bool :=
  hasProg s && budgetOk s && !s.sys.fatalHold && (s.le.autoRun || s.le.runPending) && (!s.pair.stayReady || s.le.runPending)

/-- NO_RUN of this module's heartbeats: an UNDECIDED module that cannot take role ACTIVE (R194, R196). -/
def noRun (s : State) : Bool :=
  decide (s.pair.role = .undecided) && (!canRun s || decide (s.pair.mstate ≠ .ready))

/-- The contents of this module's heartbeat (R196, R197, R200). -/
def myHeartbeat (s : State) : Heartbeat := {
  state := s.pair.mstate, role := s.pair.role, current := decide (s.pair.role = .standby) && pairCurrent s
  resync := s.pair.resync, defaulted := s.sys.cfgDefaulted, noRun := noRun s, check := s.sys.checkWord
  timeTx := BitVec.ofNat 64 s.time.ns, echoTx := BitVec.ofNat 64 s.pair.hbEchoTx, echoRx := BitVec.ofNat 64 s.pair.hbEchoRx
  epochSeq := s.pair.epochSeq, lag := BitVec.ofNat 16 s.pair.lag }

/-- HEARTBEAT_SEND (R201): none in SOLO mode (R192). -/
def execHeartbeatSend (lane : Bool) (s : State) : Out :=
  if linkOpen s then
    let f : LinkFrame := { hdr := txHdr s lane 0, payload := .heartbeat (myHeartbeat s), cyc := s.time.cyc }
    .next (laneUse lane f.payload { s with pair := { s.pair with
      hbOut := mput (fun _ => none) s.pair.hbOut (b2n lane) (some f) } })
  else .next s

/-- The partner is lost: no path shows it (R221, R226). -/
def lossCheck (s : State) : State :=
  if partnerAlive s ∨ s.pair.partnerState.isNone then s
  else
    let s1 := fire 435 s.time.ns { s with pair := { s.pair with
      partnerState := none, partnerRole := .undecided, partnerCurrent := false, partnerNoRun := false
      partnerDefaulted := false, ship := none, closed := none, preimg := [] } }
    pairNoticeIf (decide (s.pair.role = .active)) 435 s1

/-- The last lane has gone down: a partial epoch is discarded, but is not a lost epoch (R207); an epoch that ships is abandoned,
no frame waits any longer, the next frame sets the number to follow (log 87), and a configuration pull begins anew (R224). -/
def linkLost (s : State) : State :=
  { s with pair := { s.pair with
    cut := s.pair.cut || s.pair.staged.isSome, staged := none, ship := none, closed := none, preimg := [], unacked := []
    rxAny := true, pullSent := false, cfgPull := none } }

/-- LANE_DOWN (R199): 200 µs without any frame; its unacknowledged frames are resent on the other lane. -/
def execLaneDown (lane : Bool) (s : State) : Out :=
  let x := laneOf s lane
  if linkOpen s && x.up && decide (x.lastRx + cycUs 200 ≤ s.time.cyc) then
    let mine := s.pair.unacked.filter (fun f => f.hdr.lane = lane)
    let s1 := lanePutL s lane { x with up := false }
    let s2 := if lanesDown s1 then linkLost s1
      else laneRetx (!lane) mine.length { s1 with pair := { s1.pair with
        unacked := s1.pair.unacked.map (fun f =>
          if f.hdr.lane = lane then { f with hdr := { f.hdr with lane := !lane }, cyc := s.time.cyc } else f) } }
    .next (settle (lossCheck (fire (432 + b2n lane) s.time.ns s2)))
  else .next s

/-- LINK_RESEND (R199). -/
def execLinkResend (seq : BitVec 16) (s : State) : Out :=
  match s.pair.unacked.find? (fun f => f.hdr.seq = seq) with
  | some f =>
    if linkOpen s && decide (f.cyc + cycUs 50 ≤ s.time.cyc) then
      let s1 := laneUse f.hdr.lane f.payload (laneRetx f.hdr.lane 1 s)
      .next { s1 with pair := { s1.pair with
        unacked := s1.pair.unacked.map (fun g => if g.hdr.seq = seq then { g with cyc := s.time.cyc } else g) } }
    else .next s
  | none => .next s

/-! ### What the link serves: epoch frames, then the rest (R200, R203-R206) -/

/-- The word of a block as it stood at the seal: its old value where it has been written since (R205). -/
def sealWord (s : State) (a : Nat) : DWord :=
  match s.pair.preimg.find? (fun p => p.1 = a) with
  | some p => if p.2.2 || tagReserved p.2.1.tag then ⟨0, tagMEMORY⟩ else p.2.1
  | none => readPlain s a

/-- The 64 words of block `b` (R200, R205). -/
def blockWords (s : State) (b : Nat) : List DWord := (List.range 64).map (fun i => sealWord s (64 * b + i))

/-- The faults that Harvest's read of block `b` records, of words in the pre-image store as of those in place (R24). -/
def blockFaults (s : State) (b : Nat) : List (Nat × Nat) :=
  (List.range 64).flatMap (fun i => match s.pair.preimg.find? (fun p => p.1 = 64 * b + i) with
    | some p => if p.2.2 then [(64 * b + i, 0x10)] else if tagReserved p.2.1.tag then [(64 * b + i, 0x11)] else []
    | none => readFault s (64 * b + i))

/-- The payload bytes over which the CRC of EPOCH_END runs (R200). -/
def crcBytes (p : LinkPayload) : List Nat :=
  match p with
  | .block sw a ws => bytesLE (wordOf (a.toNat + 2147483648 * b2n sw)) ++ ws.flatMap (fun w => bytesLE w.val ++ [w.tag.toNat])
  | .edit e => (Config.editBytes e).map (·.toNat)
  | .force c => (Config.forceBytes c).map (·.toNat)
  | _ => []

/-- The next frame of an epoch in the order of R204, and what then remains of it. -/
def epochFrame (s : State) (e : ShipEpoch) : Option (LinkPayload × ShipEpoch) :=
  if !e.begun then some (.epochBegin e.hdr, { e with begun := true })
  else match e.edits, e.forces, e.blocks, e.sweep with
    | x :: r, _, _, _ => some (.edit x, { e with edits := r })
    | [], x :: r, _, _ => some (.force x, { e with forces := r })
    | [], [], b :: r, _ => some (.block false (BitVec.ofNat 21 (64 * b)) (blockWords s b), { e with blocks := r })
    | [], [], [], b :: r => some (.block true (BitVec.ofNat 21 (64 * b)) (blockWords s b), { e with sweep := r })
    | [], [], [], [] => if e.ended then none else some (.epochEnd e.hdr.seq (~~~e.crc), { e with ended := true })

/-- Harvest sends an epoch frame: a block is read as any reader reads it (R24), its old values are released once it is not to be sent
again in this epoch, and a sweep block counts as swept (R205, R209). -/
def sendEpoch (l : Bool) (p : LinkPayload) (e : ShipEpoch) (s : State) : State :=
  let e1 := { e with crc := (crcBytes p).foldl crcByte e.crc }
  let s1 := match p with
    | .block sw a _ =>
      let b := blockOf a.toNat
      let s0 := recordReadFaults (blockFaults s b) s
      { s0 with pair := { s0.pair with
        preimg := if e.blocks.contains b || e.sweep.contains b then s0.pair.preimg
          else s0.pair.preimg.filter (fun q => decide (blockOf q.1 ≠ b))
        swept := if sw && decide (sweepBlock s.pair.swept = b) then s.pair.swept + 1 else s.pair.swept } }
    | _ => s
  sendOn [l] p { s1 with pair := { s1.pair with ship := s1.pair.ship.map (fun _ => e1), stripe := !l } }

/-- The words of a PROGRAM frame for `n` bundles from `base`; a page of the pool counts as 32 bundles, each of two entries
(log 86). -/
def progFrame (s : State) (base n : Nat) (pool : Bool) : LinkPayload :=
  .program (BitVec.ofNat 19 (base + 262144 * b2n pool)) ((List.range (4 * n)).map (fun i =>
    if pool then
      let e := mget (fun _ => ((0 : Word), (0 : Word))) s.mem.pool (2 * base + i / 2)
      if i % 2 = 0 then e.1.zeroExtend 36 else e.2.zeroExtend 36
    else progWord s (4 * base + i)))

/-- The block table as a BLOCK_TABLE frame carries it (R209). -/
def tableFrame (s : State) : LinkPayload :=
  .blockTable s.edit.live {
    entries := s.edit.prev, changed := s.edit.changed, budget := s.edit.oldBudget, id := s.edit.oldId }

/-- A job of low priority: its frame, if it sends one, and the jobs that remain of it. -/
def jobFrame (s : State) (j : LinkJob) : Option LinkPayload × List LinkJob :=
  match j with
  | .frame p => (some p, [])
  | .table => (some (tableFrame s), [])
  | .mark => (none, [])
  | .range b n true => (some (progFrame s (32 * b) 32 true), if n ≤ 1 then [] else [.range (b + 1) (n - 1) true])
  | .range b n false => (some (progFrame s b (min 64 n) false), if n ≤ 64 then [] else [.range (b + 64) (n - 64) false])

/-- The data words that Harvest reads for a frame (R296). -/
def frameReads (p : LinkPayload) : List Nat :=
  match p with
  | .block _ a _ => (List.range 64).map (fun i => a.toNat + i)
  | _ => []

/-- A lane that is up and free carries the next frame: of the epoch that ships, else of low priority (R200). -/
def serveLane (l : Bool) (s : State) : State :=
  if !(laneOf s l).up || decide (s.time.cyc < (laneOf s l).busyTo) then s
  else match s.pair.ship.bind (fun e => epochFrame s e) with
    | some (p, e) =>
      if frozen s 2 then s
      else match engHit s (frameReads p) false with
        | some x => settle (accessRefused 2 (engAddr x) false s)
        | none => sendEpoch l p e s
    | none =>
      match s.pair.lowq with
      | [] => s
      | j :: r =>
        let x := jobFrame s j
        let s1 := { s with pair := { s.pair with lowq := x.2 ++ r, progDone := s.pair.progDone || decide (j = .mark) } }
        match x.1 with
        | some p => sendOn [l] p s1
        | none => s1

/-- The link in one fabric cycle: with both lanes up the frames of an epoch go alternately over the two (R206). -/
def linkServe (s : State) : State :=
  if !linkOpen s then s
  else
    let l := s.pair.stripe
    let s1 := serveLane l s
    let turn := decide (s1.pair.stripe ≠ l) || (s.pair.ship.bind (fun e => epochFrame s e)).isNone || !(laneOf s l).up
    if turn then serveLane (!l) s1 else s1

/-! ### Dual-active running (R222) -/

/-- A path shows the partner in RUN as ACTIVE: seat A stays, seat B yields. -/
def mergeEnd (s : State) : State :=
  if s.pair.role = .active ∧ inRun s then
    let s1 := fire 439 s.time.ns s
    if s.pair.seatB then pairNotice 439 (settle (enterShadow 8 (stopScan s1))) else pairNotice 439 s1
  else s

/-- A TOKEN_IN that stands as the module enters RUN as ACTIVE shows the partner in RUN as ACTIVE (R222). -/
def mergeStanding (s : State) : State := if tokenSeen s then mergeEnd s else s

/-! ### Heartbeats (R197, R201, R216, R234) -/

/-- The partner's time minus this module's, by two-way exchange. -/
def hbOffset (p : Heartbeat) (s : State) : Int :=
  let one : Int := (p.timeTx.toNat : Int) - s.time.ns
  if p.echoTx = 0 then one else (one + ((p.echoRx.toNat : Int) - p.echoTx.toNat)) / 2

/-- A standby takes the active's time as a set, and then steers its rate by at most 0.1 ppb at a time (R201, R234). -/
def hbTime (p : Heartbeat) (s : State) : State :=
  if s.pair.role = .standby ∧ s.pair.mstate = .shadow then
    let d := hbOffset p s
    { s with time := { s.time with
      pending := if s.time.valid then s.time.pending else some (d, 3)
      rate := if s.time.valid then max (-200000) (min 200000 (s.time.rate + (if 0 < d then 1 else if d < 0 then -1 else 0)))
        else s.time.rate } }
  else s

/-- CFG_MISMATCH and SEAT_CONFLICT follow the heartbeat; a module in SHADOW leaves it for UNDECIDED on a mismatch
(R197). -/
def hbConditions (h : FrameHdr) (p : Heartbeat) (s : State) : State :=
  let mis := decide (p.check ≠ s.sys.checkWord)
  let seat := decide (h.seat = s.pair.seatB)
  let s1 := { s with pair := { s.pair with cfgMismatch := mis, seatConflict := seat } }
  let s2 := pairNoticeIf (seat && !s.pair.seatConflict) 434 (pairNoticeIf (mis && !s.pair.cfgMismatch) 434 s1)
  if mis ∧ s.pair.mstate = .shadow then
    let s3 := setRole .undecided 10 s2
    { s3 with pair := { s3.pair with mstate := .ready, staged := none, resync := false, current := false } }
  else s2

/-- A requested handover gives up once the standby has applied, within the tick, the epoch of the previous scan (R216). -/
def hbHandover (p : Heartbeat) (s : State) : State :=
  if s.pair.handTries.isSome ∧ inRun s ∧ s.pair.role = .active ∧ s.pair.ship.isNone ∧ s.pair.closed.isNone
      ∧ p.epochSeq + 1 = s.pair.nextSeq ∧ s.pair.closedTick + 1 = s.tick.num then giveUpOp 3 0x3FF 0 s
  else s

/-- The contents of a heartbeat. -/
def hbTake (h : FrameHdr) (p : Heartbeat) (s : State) : State :=
  let joined := decide (s.pair.partnerState ≠ some .shadow) && decide (p.state = .shadow)
  let act := decide (s.pair.role = .active)
  let s1 := { s with pair := { s.pair with
    partnerState := some p.state, partnerRole := p.role, partnerCurrent := p.current, partnerNoRun := p.noRun
    partnerDefaulted := p.defaulted, hbEchoTx := p.timeTx.toNat, hbEchoRx := s.time.ns
    lag := if act then p.lag.toNat else s.pair.lag
    resync := if act && s.pair.resync && !p.resync && decide (18048 ≤ s.pair.swept) then false else s.pair.resync } }
  let s2 := fireIf joined 435 s1
  let s3 := if joined && act then pairNoticeIf true 435 (startResync s2) else s2
  hbHandover p (hbTime p (hbConditions h p s3))

/-- A module on factory defaults asks an ACTIVE partner for its configuration (R224). -/
def autoPull (s : State) : State :=
  if s.sys.cfgDefaulted ∧ s.pair.role = .undecided ∧ s.pair.partnerRole = .active ∧ s.pair.pullSent = false then
    sendLow (.frame .cfgReq) { s with pair := { s.pair with pullSent := true } }
  else s

/-- HEARTBEAT. -/
def execHeartbeat (h : FrameHdr) (p : Heartbeat) (s : State) : Out :=
  .next (settle (onFrame false h (fun a =>
    let a1 := autoPull (hbTake h p a)
    if p.state = .run ∧ p.role = .active then mergeEnd a1 else a1) s))

/-! ### Give-up and takeover (R211-R218) -/

/-- The first tick boundary at least 5 µs away (R212). -/
def boundaryAfter (s : State) : Nat :=
  if s.time.ns + 5000 ≤ s.tick.next then s.tick.next else s.tick.next + 1000 * s.tick.period

/-- GIVE_UP received (R212). -/
def execGiveUp (h : FrameHdr) (p : GiveUpMsg) (s : State) : Out :=
  .next (settle (onFrame true h (fun a =>
    let a1 := fire 436 a.time.ns { a with pair := { a.pair with
      giveSrc := p.src, giveReason := p.reason, giveKind := p.kind } }
    if a.pair.role = .standby ∧ a.pair.mstate = .shadow then
      { a1 with pair := { a1.pair with staged := none, takeoverAt := some (boundaryAfter a) } }
    else a1) s))

/-- No tick: the harvested image of a takeover may be committed at the next T0 + 2 µs. -/
def noTick : Nat := 0xFFFFFFFFFFFFFFFF

/-- A STANDBY becomes ACTIVE in RUN, with the harvested Q image waiting for its commit (R212, R218, R219, R235). A commit or undo
whose swap epoch was never completed has not happened: its edit stands as it was, with code CANCELLED (R124). The partner's reference
frames heard before end no mastership of the new active, whose first output frames leave at its first T0 + 2 µs in RUN (R241, R252;
log 92). -/
def takeNow (cause : Nat) (s : State) : State :=
  let nc := !s.pair.current
  let s1 := runState (setRole .active cause s)
  let s2 := { s1 with
    le := { s1.le with
      afterTakeover := true, sealedReady := true, sealedQ := s.mem.words.filter (fun p => inQ p.1)
      sealedTick := noTick, sealedGo := 0, sealedRst := 0 }
    pair := { s1.pair with
      takeoverAt := none, staged := none, takeoverNc := nc, current := false, resync := false, tokenOut := false
      nextSeq := s.pair.epochSeq + 1, dirty := [], takeovers := satN 0xFFFF (s.pair.takeovers + 1), giveTick := none
      released := false, takenSeen := false, r220 := false }
    edit := { s1.edit with
      partnerPend := false, partnerAck := false, code := if s.edit.partnerPend then 0x0C else s.edit.code }
    bus := mtab (fun _ => ({} : BusSt)) (nBus s) (fun b => { bu s1 b with lowerHeard := none })
    time := { s1.time with disc := BitVec.ofNat 2 (fld (force s (aTIME + 0x1C)) 0 2) }
    btn := { s1.btn with takeovers := satN 0xFFFF (s.btn.takeovers + 1) } }
  pairNoticeIf nc 437 (fire 437 s.time.ns s2)

/-- TAKEOVER: at the boundary that GIVE_UP fixed (R212). -/
def execTakeover (s : State) : Out :=
  match s.pair.takeoverAt with
  | some t =>
    if decide (t ≤ s.time.ns) && decide (s.pair.role = .standby) && decide (s.pair.mstate = .shadow) then
      .next (settle (takeNow (if s.pair.giveKind = 3 then 6 else 4) s))
    else .next s
  | none => .next s

/-- TAKEN received (R213). -/
def execTaken (h : FrameHdr) (_tick : BitVec 64) (s : State) : Out :=
  .next (settle (onFrame true h (fun a => releaseCheck { a with pair := { a.pair with
    takenSeen := a.pair.takenSeen || a.pair.giveTick.isSome } }) s))

/-- GIVEUP_EXPIRED: T0 + 10 µs of the HOLD-th tick after the boundary that followed the give-up (R214). -/
def execGiveupExpired (s : State) : Out :=
  match s.pair.giveTick with
  | some g =>
    if decide (s.pair.mstate = .hold) && !s.pair.released && decide (g + fld (force s aPAIR) 1 4 ≤ s.tick.num)
        && decide (s.tick.t0 + 10000 ≤ s.time.ns) then
      let s1 := slcTriggerAll 6 s
      .next (settle { s1 with pair := { s1.pair with mstate := .safe } })
    else .next s
  | none => .next s

/-- TOKEN_IN changes (R202, R213, R222); a module in role SOLO keeps the pin's level and ignores it (R192), and one in SLEEP may wake
(R353). -/
def execTokenIn (on : Bool) (s : State) : Out :=
  if !hasTwin s then .next s
  else if s.pair.mstate = .sleep then
    .next (if on = s.pair.tokenIn then s else wakePin 5 { s with pair := { s.pair with tokenIn := on } })
  else if s.pair.role = .solo then .next { s with pair := { s.pair with tokenIn := on } }
  else
    let s1 := releaseCheck { s with pair := { s.pair with tokenIn := on } }
    .next (settle (lossCheck (if on then mergeEnd s1 else s1)))

/-! ### Epochs on the standby (R203-R209) -/

/-- The module receives Harvest (R21, R193). -/
def receives (s : State) : Bool := decide (s.pair.role = .standby) && decide (s.pair.mstate = .shadow)

/-- EPOCH_BEGIN. -/
def execEpochBegin (h : FrameHdr) (p : EpochHdr) (s : State) : Out :=
  .next (settle (onFrame true h (fun a => if receives a then
    { a with pair := { a.pair with staged := some { hdr := p, blocks := [], edits := [], forces := [] }, cut := false } }
    else a) s))

/-- A change of the staged epoch. -/
def stageUpd (f : Staged → Staged) (s : State) : State :=
  if receives s then { s with pair := { s.pair with staged := s.pair.staged.map f } } else s

/-- BLOCK. -/
def execBlock (h : FrameHdr) (_sweep : Bool) (a : BitVec 21) (ws : List DWord) (s : State) : Out :=
  .next (settle (onFrame true h (stageUpd (fun e => { e with blocks := e.blocks ++ [(a, ws)] })) s))

/-- EDIT. -/
def execEdit (h : FrameHdr) (p : EditMsg) (s : State) : Out :=
  .next (settle (onFrame true h (stageUpd (fun e => { e with edits := e.edits ++ [p] })) s))

/-- FORCE. -/
def execForce (h : FrameHdr) (p : ForceChange) (s : State) : Out :=
  .next (settle (onFrame true h (stageUpd (fun e => { e with forces := e.forces ++ [p] })) s))

/-- A block is written by the copy engine; an apply marks nothing (R203). -/
def applyBlock (m : SMap DWord) (b : BitVec 21 × List DWord) : SMap DWord :=
  (List.range b.2.length).foldl (fun m i =>
    if keptWord (b.1.toNat + i) then mput (fun _ => goodZero) m (b.1.toNat + i) (b.2.getD i goodZero) else m) m

/-- An EDIT message is applied (R123): the swap or the swap back as in the active, with the budget and identity of this module
before the epoch as what a swap back restores; ACCEPT and DISCARD. -/
def applyEdit (s : State) (e : EditMsg) : State :=
  match e with
  | .changes undo tick l p => { s with edit := {
      swapTable undo l p ((force s (aLE + 0x24)).truncate 26) s.le.progId s.edit with
      partnerPend := false, landed := tick } }
  | .accept => { s with edit := { s.edit with phase := .idle, prev := [], changed := [], ranges := [], stagedSet := [] } }
  | .discard => { s with edit := { s.edit with
      phase := .idle, ranges := [], stagedSet := [], openRange := none, partnerPend := false } }

/-- A force change takes effect at the epoch's tick (R266). -/
def applyForce (s : State) (f : ForceChange) : State :=
  let a := aLE + 0x400 + 8 * f.idx.toNat
  regPut (regPut s a (wordOf (f.addr.toNat + 32768 * b2n f.en))) (a + 4) f.value

/-- The ticks of this module are renumbered by `d`: the latches of its edges, events and nodes keep their place, so that none is
lost across a takeover (R16, R219). -/
def renumber (d : Int) (s : State) : State :=
  let mv := fun (n : Nat) => ((n : Int) + d).toNat
  if d = 0 then s
  else { s with
    chan := mtab (fun _ => ({} : ChanSt)) (nCh s) (fun n =>
      { ch s n with edges := (ch s n).edges.map (fun e => (mv e.1, e.2)) })
    node := mtab (fun _ => ({} : NodeSt)) (nNodes s) (fun k =>
      { nd s k with corrAt := (nd s k).corrAt.map mv, rx := (nd s k).rx.map (fun f => { f with tick := mv f.tick }) })
    bus := mtab (fun _ => ({} : BusSt)) (nBus s) (fun b => { bu s b with lowerHeard := (bu s b).lowerHeard.map mv })
    img := { s.img with fired := s.img.fired.map (fun p => (p.1, mv p.2)), lastLatch := mv s.img.lastLatch }
    tick := { s.tick with periodTick := mv s.tick.periodTick } }

/-- TBASE grows by the period of each tick from `m` to `num`, as it was in force in that tick (R15, R76). -/
def tbaseGrowth (s : State) (m num : Nat) : Nat :=
  let c := min num (max m s.tick.periodTick)
  (c - m) * s.tick.prevPeriod + (num - c) * s.tick.period

/-- The words that the blocks of an epoch hold. -/
def blocksWords (e : Staged) : List Nat := e.blocks.flatMap (fun b => (List.range b.2.length).map (fun i => b.1.toNat + i))

/-- The epoch is applied: blocks, edits, forces, tick number, TBASE, RUNID, LE_PROG_ID and LE_BUDGET (R16, R76, R207; the
numbering of ticks: log 36). The lag follows at the next latch (R208). -/
def epochApply (e : Staged) (s : State) : State :=
  let m := e.hdr.tick.toNat
  let num := if s.pair.applied then max s.tick.num (m + 1) else m + 1
  let s1 := renumber ((num : Int) - s.tick.num) { s with mem := { s.mem with
    words := e.blocks.foldl applyBlock s.mem.words
    upset := s.mem.upset.filter (fun p => !(keptWord p.1 && (blocksWords e).contains p.1)) } }
  let s2 := e.forces.foldl applyForce (e.edits.foldl applyEdit s1)
  let s3 := regPut s2 (aLE + 0x24) (e.hdr.budget.zeroExtend 32)
  let fin := e.hdr.sweepLast && s.pair.tableSeen
  currentFollow { s3 with
    tick := { s3.tick with
      num := num, runid := e.hdr.runid, tbase := e.hdr.tbase + wordOf (tbaseGrowth s1 m num) }
    le := { s3.le with progId := e.hdr.progId, dataId := e.hdr.progId }
    img := { s3.img with consumed := some m }
    pair := { s3.pair with
      staged := none, epochSeq := e.hdr.seq, applied := true, seqAny := false, epochTick := m
      epochBlocks := satN 0xFFFF e.hdr.blocks, resync := s.pair.resync && !fin, tableSeen := s.pair.tableSeen && !fin
      swept := if fin then 18048 else s.pair.swept } }

/-- The staged epoch passes the checks of R207; the first epoch of a full resync may have any number (log 36). -/
def epochOk (e : Staged) (seq : Word) (crcOk : Bool) (s : State) : Bool :=
  crcOk && decide (e.hdr.seq = seq) && decide (e.blocks.length = e.hdr.blocks) &&
    ((s.pair.seqAny && e.hdr.sweep) || decide (seq = s.pair.epochSeq + 1))

/-- A lost epoch on the standby: EPOCH_LOST is sent, and a full resync follows (R207, R209). -/
def epochLost (seq : Word) (s : State) : State :=
  awaitResync (sendFrame (.epochLost seq) { s with
    pair := { s.pair with resyncs := satN 0xFFFF (s.pair.resyncs + 1) }, btn := { s.btn with resyncs := satN 0xFFFF (s.btn.resyncs + 1) } })

/-- The copy engine applies the epoch. DESIGN CHOICE (log 112): a block that its windows refuse stops it with nothing of the epoch
applied, since a partial epoch is never applied (R207, R298). -/
def epochWrite (e : Staged) (s : State) : State :=
  match engHit s (blocksWords e) true with
  | some x => accessRefused 2 (engAddr x) true { s with pair := { s.pair with staged := none } }
  | none => epochApply e s

/-- EPOCH_END. A standby whose copy engine is frozen applies nothing (R299); an epoch cut short as both lanes fell silent is not
lost (R207). -/
def execEpochEnd (h : FrameHdr) (seq : Word) (crcOk : Bool) (s : State) : Out :=
  .next (settle (onFrame true h (fun a =>
    if !receives a || frozen a 2 then a
    else match a.pair.staged with
      | some e => if epochOk e seq crcOk a then epochWrite e a else epochLost seq a
      | none => if a.pair.cut then { a with pair := { a.pair with cut := false } } else epochLost seq a) s))

/-- EPOCH_LOST received. -/
def execEpochLost (h : FrameHdr) (_seq : Word) (s : State) : Out := .next (settle (onFrame true h resyncHere s))

/-- EPOCH_SHIPPED (R203): the last frame of the epoch has been sent. -/
def execEpochShipped (s : State) : Out :=
  match s.pair.ship with
  | some e =>
    if e.ended then
      let n := satN 0xFFFF e.hdr.blocks
      .next { s with pair := { s.pair with ship := none, epochBlocks := n, maxBlocks := max s.pair.maxBlocks n } }
    else .next s
  | none => .next s

/-- PROGRAM: bundles are written at their physical address, entries of the pool at theirs (R122, log 86). -/
def execProgram (h : FrameHdr) (bundle : BitVec 19) (ws : List (BitVec 36)) (s : State) : Out :=
  let b := bundle.toNat % 262144
  .next (settle (onFrame true h (fun a =>
    if !receives a then a
    else if bundle.getLsbD 18 then { a with mem := { a.mem with
      pool := mputs (fun _ => ((0 : Word), (0 : Word))) a.mem.pool ((List.range (ws.length / 2)).map (fun i =>
        (2 * b + i, (ws.getD (2 * i) 0).truncate 32, (ws.getD (2 * i + 1) 0).truncate 32)))
      upset := a.mem.upset.filter (fun p => !within p.1 (poolKey (2 * b)) (poolKey (2 * b + ws.length / 2 - 1))) } }
    else { a with mem := { a.mem with
      prog := mputs (fun _ => 0) a.mem.prog ((List.range ws.length).map (fun i => (4 * b + i, ws.getD i 0)))
      upset := a.mem.upset.filter (fun p => !within p.1 (progKey (4 * b)) (progKey (4 * b + ws.length - 1))) } }) s))

/-- RANGE_ACK (R122): a range that stands open has not been acknowledged. DESIGN CHOICE (log 106): with no downloaded range PARTNER_ACK is 0. -/
def execRangeAck (h : FrameHdr) (base : BitVec 18) (pool : Bool) (s : State) : Out :=
  .next (settle (onFrame true h (fun a =>
    let l := a.edit.ranges.map (fun r => if r.base = base ∧ r.pool = pool then { r with ack := true } else r)
    { a with edit := { a.edit with ranges := l, partnerAck := decide (a.edit.phase ≠ .opened) && !l.isEmpty && allAcked l } }) s))

/-- BLOCK_TABLE (R209): a full resync begins; the live and previous entries are those of the active, with the committed edit that
they belong to (R124). -/
def execBlockTable (h : FrameHdr) (live : List (Nat × BlockEntry)) (prev : PrevTable) (s : State) : Out :=
  .next (settle (onFrame true h (fun a =>
    if receives a then
      currentFollow { a with
        pair := { a.pair with resync := true, tableSeen := true }
        edit := { a.edit with
          live := mputs (fun _ => default) [] live, prev := mputs (fun _ => default) [] prev.entries, changed := prev.changed
          oldBudget := prev.budget, oldId := prev.id, phase := if prev.changed.isEmpty then .idle else .committed
          stagedSet := [], ranges := [], openRange := none, partnerPend := false } }
    else a) s))

/-! ### Roles (R195, R196, R217, R220) -/

/-- The module takes role ACTIVE if it can enter RUN at once (R196); a module that R220 keeps in READY waits for an LE_CTRL RUN
(log 88). -/
def tryActive (cause : Nat) (s : State) : State :=
  let res := if !hasProg s then 3 else if !budgetOk s then 4 else if s.sys.fatalHold then 6 else if canRun s then 0 else 5
  let s1 := { s with le := { s.le with result := BitVec.ofNat 4 res } }
  if res = 0 then setRole .active cause { s1 with pair := { s1.pair with stayReady := false } } else s1

/-- The partner leaves the role of the active to this module: seat B, or a partner that cannot take it under R197 or R196. -/
def partnerYields (s : State) : Bool := !s.pair.seatB || s.pair.partnerNoRun || s.pair.partnerDefaulted

/-- R197 and R286 keep the module UNDECIDED: a fatal-fault hold, factory defaults, equal seats, or different check words; those of a partner on factory defaults
do not count, since R195 gives the role to this module (log 88). -/
def heldUndecided (s : State) : Bool :=
  s.sys.cfgDefaulted || s.sys.fatalHold || s.pair.seatConflict || (s.pair.cfgMismatch && !s.pair.partnerDefaulted)

/-- An UNDECIDED module takes the first role of R195 whose condition holds, unless R194 or R197 keeps it UNDECIDED. -/
def decideRole (s : State) : State :=
  let p := s.pair
  let lane := p.lane0.up || p.lane1.up
  if p.role ≠ .undecided ∨ p.mstate ≠ .ready ∨ heldUndecided s = true then s
  else if (lane && decide (p.partnerRole = .active)) || p.tokenIn then enterShadow 3 s
  else if lane then
    if p.partnerRole = .undecided ∧ p.partnerState.isSome ∧ partnerYields s = true then tryActive 1 s else s
  else if p.refSeen || p.refHeard then s
  else if foreignDrive s then s
  else tryActive 2 s

/-- LISTEN_END (R195). -/
def execListenEnd (s : State) : Out :=
  match s.pair.listenUntil with
  | some t =>
    if t ≤ s.time.cyc then .next (settle (decideRole { s with pair := { s.pair with listenUntil := none } })) else .next s
  | none => .next s

/-- Conditions 1 to 4 of R217. -/
def partnerSilent (s : State) : Bool :=
  lanesDown s && !s.pair.tokenIn && decide (2 ≤ s.pair.missed) && !foreignDrive s

/-- A silent takeover: an immediate commit, and the same image again at the next T0 + 2 µs (R218). Where a fault of the commit's
own reads ends RUN at once, neither TOKEN_OUT nor the second commit follows (R202, R211). -/
def silentTake (s : State) : State :=
  let s1 := cpRearms (commitNow (takeNow 5 s))
  { s1 with
    pair := { s1.pair with tokenOut := inRun s1, immediateCommit := false }
    le := { s1.le with sealedReady := inRun s1 }
    tick := { s1.tick with scanDone := true } }

/-- A NOT_CURRENT standby starts cold as ACTIVE, or becomes UNDECIDED (R220). -/
def coldTake (s : State) : State :=
  if fbit (force s aPAIR) 13 then
    let s1 := setRole .active 9 s
    pairNotice 437 (fire 437 s.time.ns { s1 with pair := { s1.pair with mstate := .ready, r220 := true, staged := none } })
  else
    let s1 := setRole .undecided 10 s
    pairNotice 437 { s1 with pair := { s1.pair with mstate := .ready, staged := none, stayReady := true } }

/-- The standby's test at an evaluation point. -/
def standbyEval (s : State) : State :=
  if receives s && partnerSilent s then (if s.pair.current then silentTake s else coldTake s) else s

/-- EVALUATION_POINT (R195, R216, R217). -/
def execEvaluationPoint (s : State) : Out :=
  if tickRuns s && !s.tick.evalDone && decide (s.tick.t0 + 150000 ≤ s.time.ns) && decide (s.pair.role ≠ .solo) then
    let s1 := { s with
      tick := { s.tick with evalDone := true }
      pair := { s.pair with
        missed := if s.pair.refHeard then 0 else min 15 (s.pair.missed + 1), refSeen := s.pair.refHeard, refHeard := false
        handTries := s.pair.handTries.map (· + 1) } }
    let s2 := lossCheck s1
    .next (settle (standbyEval (if s.pair.listenUntil.isNone then decideRole s2 else s2)))
  else .next s

/-! ### Pair commands (R216, R224) -/

/-- PAIR_CMD_RESULT takes a command and its result. -/
def pairResult (cmd res : Nat) (s : State) : State :=
  { s with pair := { s.pair with cmdLast := BitVec.ofNat 4 cmd, cmdResult := BitVec.ofNat 4 res } }

/-- HANDOVER. -/
def execHandover (key : BitVec 16) (s : State) : Out :=
  cpRow (aPAIR + 0xC) true s <|
  if !hasTwin s then .next s
  else if key ≠ cmdKey then .next (pairResult 1 2 s)
  else if s.pair.role ≠ .active ∨ ¬ inRun s then .next (pairResult 1 3 s)
  else if s.pair.handTries.isSome then .next (pairResult 1 1 s)
  else if lanesDown s then .next (pairResult 1 5 s)
  else if s.pair.partnerState ≠ some .shadow ∨ s.pair.partnerCurrent = false then .next (pairResult 1 4 s)
  else
    let s1 := pairResult 1 0 s
    .next { s1 with pair := { s1.pair with handTries := some 0 } }

/-- HANDOVER_FAIL (R216). -/
def execHandoverFail (s : State) : Out :=
  match s.pair.handTries with
  | some n =>
    if 16 ≤ n then
      let s1 := pairResult 1 4 s
      .next { s1 with pair := { s1.pair with handTries := none } }
    else .next s
  | none => .next s

/-- PULL (R224): for a module with CFG_MISMATCH or CFG_DEFAULTED; refused with BUSY while an update is under way (R360). -/
def execPull (key : BitVec 16) (s : State) : Out :=
  cpRow (aPAIR + 0xC) true s <|
  if !hasTwin s then .next s
  else if key ≠ cmdKey then .next (pairResult 2 2 s)
  else if s.pair.role ≠ .undecided ∨ (s.pair.cfgMismatch = false ∧ s.sys.cfgDefaulted = false) then
    .next (pairResult 2 3 s)
  else if lanesDown s then .next (pairResult 2 5 s)
  else if updBusy s then .next (pairResult 2 1 s)
  else .next (sendLow (.frame .cfgReq) (pairResult 2 0 s))

/-- RESYNC (R209). -/
def execResync (key : BitVec 16) (s : State) : Out :=
  cpRow (aPAIR + 0xC) true s <|
  if !hasTwin s then .next s
  else if key ≠ cmdKey then .next (pairResult 3 2 s)
  else if s.pair.role ≠ .active ∨ ¬ inRun s ∨ s.pair.partnerState ≠ some .shadow then .next (pairResult 3 3 s)
  else if lanesDown s then .next (pairResult 3 5 s)
  else if s.pair.resync then .next (pairResult 3 1 s)
  else .next (startResync (pairResult 3 0 s))

/-- PAIR_LAST_TIME low word read latches the high word; the register of an absent unit reads zero (R3). -/
def execPairLastTime (s : State) : Out :=
  cpRow (aPAIR + 0x34) false s <|
  if !hasTwin s then .next (readOut 0 s)
  else .next (readOut (lo32 s.pair.lastTime) { s with pair := { s.pair with timeHi := hi32 s.pair.lastTime } })

/-- PAIR_EPOCH_TICK low word read latches the high word; the register of an absent unit reads zero (R3). -/
def execPairEpochTick (s : State) : Out :=
  cpRow (aPAIR + 0x14) false s <|
  if !hasTwin s then .next (readOut 0 s)
  else .next (readOut (lo32 s.pair.epochTick) { s with pair := { s.pair with epochTickHi := hi32 s.pair.epochTick } })

end Sys2Proof.Machine
end

