-- ==== Sys2Proof/Machine/Fault.lean ====
section
/-! DEFINITION. The fault collector, master protection, the watchdogs and the clock monitor (11). -/

namespace Sys2Proof.Machine

/-! ### Master protection (R296-R300, R398) -/

/-- The address lies in a CP flash bank that is programming or erasing (R324). -/
def flBankBusy (s : State) (a : Nat) : Bool :=
  s.nv.flBusy.any (fun p => within a (0x08000000 + 0x400000 * p.1.toNat) (0x083FFFFF + 0x400000 * p.1.toNat))

/-- PROTECTION_VIOLATION (R298): an access that is not permitted is dropped and freezes its master; a frozen master, and a
logic engine without a scan, make no access. A CP access to an unassigned address is a bus error (R297, R398), and so is a read from a
CP flash bank that is programming or erasing, which sets BUSY_READ (R324). -/
def execProtectionViolation (m : BitVec 3) (addr : Word) (write : Bool) (s : State) : Out :=
  let k := m.toNat
  if k = 1 ∧ cpRuns s ∧ frozen s 1 = false ∧ assigned addr.toNat = false then
    .next { s with cp := { s.cp with busErrors := s.cp.busErrors + 1 } }
  else if k = 1 ∧ cpRuns s ∧ frozen s 1 = false ∧ write = false ∧ flBankBusy s addr.toNat then
    .next { s with cp := { s.cp with busErrors := s.cp.busErrors + 1 }, nv := { s.nv with flBusyRead := true } }
  else
  if k < 7 ∧ s.prot.frozen.getLsbD k = false ∧ permitted s k addr.toNat write = false ∧ (k ≠ 0 ∨ s.le.running) then
    .next (settle (freezeMaster k addr write s))
  else .next s

/-- FREEZE_CLR write (R299, R300): the logic engine's bit is ignored, and a release of the Harvest engine is followed by a
full resync. -/
def execFreezeClr (v : Word) (s : State) : Out :=
  cpRow (aPROT + 0xC) true s <|
  if v.extractLsb' 16 16 = cmdKey then
    let m : BitVec 7 := v.truncate 7 &&& 0x7E
    let s1 := { s with prot := { s.prot with frozen := s.prot.frozen &&& ~~~m } }
    .next (if s.prot.frozen.getLsbD 2 && m.getLsbD 2 then resyncHere s1 else s1)
  else .next { s with prot := { s.prot with keyErr := true } }

/-! ### Watchdogs (R301-R304) -/

/-- TIMEOUT of task watchdog `k`. -/
def twdTimeout (s : State) (k : Nat) : Nat := fld (force s (aWD + 4 * k)) 8 8

/-- TWD_EXPIRED: the count has reached TIMEOUT (R301). -/
def execTwdExpired (k : BitVec 3) (s : State) : Out :=
  let i := k.toNat
  if inRun s && twdEn s i && (twd s i).started && decide (twdTimeout s i ≤ (twd s i).count) && decide (0 < (twd s i).count)
      && !s.wd.expired.getLsbD i then
    .next (settle (twdExpire i 0x1A s))
  else .next s

/-- Fabric cycles of `n` seconds. -/
def cycSec (n : Nat) : Nat := cycUs (1000000 * n)

/-- The limit of the backup watchdog in the state that the module is in: INIT, SLEEP, or a state in which the tick runs;
RECOVERY lifts it (R304, R344). -/
def bwdLimit (s : State) : Option Nat :=
  let cfg := force s (aWD + 0x50)
  match s.pair.mstate with
  | .init => if s.sys.recovery then none else some (cycSec 8)
  | .sleep => some (cycSec (fld cfg 16 16))
  | _ => if s.tick.on then some (cycSec (fld cfg 0 8)) else none

/-- The backup watchdog has run for `n` of the shares of `d` of its limit. -/
def bwdRan (s : State) (d : Nat) : Bool :=
  match bwdLimit s with
  | some t => s.sys.powered && !s.sys.inReset && !s.wd.backupFail && decide (s.wd.bwdFrom + t / d ≤ s.time.cyc)
  | none => false

/-- BACKUP_WDG: outside SLEEP a module reset, in SLEEP a wake by the timer (R304, R353). -/
def execBackupWdg (s : State) : Out :=
  if !bwdRan s 1 then .next s
  else if s.pair.mstate = .sleep then
    .next (if fbit (force s (aSYS + 0x14)) 1 then callReset 5 { s with sys := { s.sys with wake := true } } else s)
  else
    .next (callReset 3 { s with wd := { s.wd with bwdFrom := s.time.cyc } })

/-- BWD_HALF_TIMEOUT: half of TIMEOUT_S without a tick boundary fires source 495 once (R402). -/
def execBwdHalfTimeout (s : State) : Out :=
  if bwdRan s 2 && s.tick.on && !s.wd.bwdHalf && decide (s.pair.mstate ≠ .sleep) && decide (s.pair.mstate ≠ .init) then
    .next (fire 495 s.time.ns { s with wd := { s.wd with bwdHalf := true } })
  else .next s

/-! ### The clock monitor (R305) -/

/-- A window's count, in units of 100 ppm, is out of tolerance: more than 2 %. -/
def clkBad (dev : Int) : Bool := decide (200 < dev) || decide (dev < -200)

/-- CLOCK_FAIL: the count of a window, in units of 100 ppm, enters DEV. One out of tolerance is a failure: it is captured, TOKEN_OUT
released, the heartbeat stopped and the module held in reset; the output stages keep their commands until their hard-off timers
expire (R186, R305). -/
def execClockFail (dev : Int) (s : State) : Out :=
  if !s.sys.powered || decide (s.pair.mstate = .sleep) || s.wd.backupFail then .next s
  else if !clkBad dev then .next { s with wd := { s.wd with devPpm := dev } }
  else if s.sys.inReset then .next { s with wd := { s.wd with devPpm := dev, clkBad := true } }
  else
    let s1 := stopScan (fcuRecord 496 0x24 2 s)
    .next (wdCopied { s1 with
      pair := { s1.pair with tokenOut := false }
      sys := { s1.sys with inReset := true }
      wd := { s1.wd with
        mainFailed := true, nClock := satN 0xFFFF (s1.wd.nClock + 1), devPpm := dev, clkBad := true
        clkFailCyc := some s.time.cyc } })

/-- BACKUP_CLOCK: the backup clock goes out of tolerance, or recovers; source 496 reports both (R305, R402). -/
def execBackupClock (bad : Bool) (s : State) : Out :=
  if !s.sys.powered || s.sys.inReset || decide (s.pair.mstate = .sleep) || s.wd.backupFail = bad then .next s
  else
    let s1 := fire 496 s.time.ns { s with wd := { s.wd with backupFail := bad } }
    .next (if bad then settle (noticeIf (decide (fcuReact s 496 ≠ 1)) 0x02 496 0x16 0 (containedFault 496 0x16 s1))
      else { s1 with wd := { s1.wd with bwdFrom := s.time.cyc } })

/-! ### The FCU's own registers (R293, R294) -/

/-- The self fault is recorded in FCU_SELF. -/
def selfMark (w : Nat) (s : State) : State :=
  { s with
    fcu := { s.fcu with
      selfBit := true, selfReg := BitVec.ofNat 6 w, parityBad := s.fcu.parityBad ||| (1#34 <<< w) }
    pair := { s.pair with tokenOut := false } }

/-- The reaction to a fatal fault of this fabric cycle gives way to the FCU_SELF path (R294): the sequences that it started take cause
FCU_SELF, its give-up takes KIND FCU_SELF, and the reset that it called for is withdrawn. -/
def selfOverrides (s : State) : State :=
  if s.fcu.reactCyc ≠ some s.time.cyc then s
  else
    let gave := decide (s.pair.giveKind = 1) && s.pair.giveTick.isSome && decide (s.pair.mstate = .hold)
    let kind := fun (p : LinkPayload) => match p with
      | .giveUp m => if m.kind = 1 then .giveUp { m with kind := 4, src := 541, reason := 0x26 } else p
      | _ => p
    { s with
      slc := { s.slc with grp := s.slc.grp.map (fun p =>
        if p.2.phase = .running ∧ p.2.step = 0 ∧ p.2.stepCyc = s.time.cyc + 200 ∧ p.2.cause.toNat ≤ 2 then (p.1, { p.2 with cause := 3 })
        else p) }
      sys := { s.sys with pendReset := s.fcu.preReset }
      pair := if gave then { s.pair with
          giveKind := 4, giveSrc := 541, giveReason := 0x26, released := false
          unacked := s.pair.unacked.map (fun f => { f with payload := kind f.payload }) }
        else s.pair }

/-- FCU_PARITY: every group starts with cause FCU_SELF, an ACTIVE module in RUN gives up, and the module is in SAFE until a
reset, in any role and whatever reaction is under way (R294). -/
def execFcuParity (w : BitVec 6) (s : State) : Out :=
  if w.toNat < 34 ∧ s.sys.powered ∧ ¬ s.sys.inReset ∧ s.pair.mstate ≠ .sleep
      ∧ s.fcu.parityBad.getLsbD w.toNat = false then
    let s1 := slcTriggerAll 3 (selfMark w.toNat (fcuRecord 541 0x26 3 (selfOverrides s)))
    let s2 := if s.pair.role = .active ∧ inRun s then giveUpOp 4 541 0x26 s1 else stopScan s1
    .next (settle { s2 with
      pair := { s2.pair with mstate := .safe }, le := { s2.le with uncommitted := s.le.uncommitted || inRun s } })
  else .next s

/-! ### Reading the captures -/

/-- FCU_FIRST_TIME_LO read latches the high word. -/
def execFcuFirstTimeLo (s : State) : Out :=
  cpRow (aFCU + 4) false s <|
  let c := s.fcu.first
  .next (readOut (lo32 c.time) { s with fcu := { s.fcu with first := { c with timeHi := hi32 c.time } } })

/-- FCU_FATAL_TIME_LO read latches the high word. -/
def execFcuFatalTimeLo (s : State) : Out :=
  cpRow (aFCU + 0x1C) false s <|
  let c := s.fcu.fatal
  .next (readOut (lo32 c.time) { s with fcu := { s.fcu with fatal := { c with timeHi := hi32 c.time } } })

end Sys2Proof.Machine
end

