-- ==== Sys2Proof/Machine/Time.lean ====
section
/-! DEFINITION. Station time: its sets, its rate, slews, and the pulse per second (R232-R239). -/

namespace Sys2Proof.Machine

/-- A field of TIME_CFG in force. -/
def timeCfg (s : State) (lo len : Nat) : Nat := fld (force s (aTIME + 0x1C)) lo len

/-- The source sets station time: `d` ns are added at the next tick boundary, or at once before TICK_GO (R14, R233). DESIGN CHOICE
(log 83): a set between TICK_GO and tick 0, of which the spec speaks neither way, waits for the boundary of tick 0. -/
def setTime (d : Int) (src : BitVec 2) (s : State) : State :=
  if !s.tick.on && s.tick.goAt.isNone then loadTime d src s else { s with time := { s.time with pending := some (d, src) } }

/-- RESULT of TIME_STATUS. -/
def timeResult (r : Nat) (s : State) : State := { s with time := { s.time with result := BitVec.ofNat 4 r } }

/-- TIME_SET_LO and TIME_SET_HI. -/
def timeSetVal (s : State) : Nat := (force s (aTIME + 8)).toNat + 4294967296 * (force s (aTIME + 12)).toNat

/-- TIME_CMD SET (R233). -/
def execTimeSet (key : BitVec 16) (s : State) : Out :=
  cpRow (aTIME + 0x10) true s <|
  .next (if key ≠ cmdKey then timeResult 2 s
    else if s.pair.mstate = .shadow then timeResult 3 s
    else if s.time.valid ∨ s.time.sets ≠ 0 ∨ s.time.pending.isSome then timeResult 1 s
    else settle (setTime ((timeSetVal s : Int) - s.time.ns) 1 (timeResult 0 s)))

/-- TIME_CMD SLEW (R235): an offset beyond 2,000,000,000 ns is refused. -/
def execSlew (key : BitVec 16) (s : State) : Out :=
  cpRow (aTIME + 0x10) true s <|
  let ofs := (force s (aTIME + 0x20)).toInt
  .next (if key ≠ cmdKey then timeResult 2 s
    else if 2000000000 < ofs ∨ ofs < -2000000000 then timeResult 4 s
    else
      let s1 := timeResult 0 s
      { s1 with time := { s1.time with slewing := true, slewLeft := ofs, slewAcc := 0 } })

/-- TIME_CMD SLEW_STOP (R235). -/
def execSlewStop (key : BitVec 16) (s : State) : Out :=
  cpRow (aTIME + 0x10) true s <|
  .next (if key ≠ cmdKey then timeResult 2 s
    else
      let s1 := timeResult 0 s
      { s1 with time := { s1.time with slewing := false } })

/-- SLEW_COMPLETE: the offset has been removed (R235). -/
def execSlewComplete (s : State) : Out :=
  if s.time.slewing && decide (s.time.slewLeft = 0) then .next { s with time := { s.time with slewing := false } }
  else .next s

/-- The phase error of an instant against the nearest whole second, resolved to 5 ns (R236). -/
def phaseErr (ns : Nat) : Int :=
  let r := ns % 1000000000
  (if r < 500000000 then (r : Int) else (r : Int) - 1000000000) / 5 * 5

/-- LOCKED and HOLDOVER take new values; a change fires source 489 (R239). -/
def lockState (locked holdover : Bool) (s : State) : State :=
  fireIf (locked != s.time.locked || holdover != s.time.holdover) 489
    { s with time := { s.time with locked := locked, holdover := holdover } }

/-- The loop moves the rate by one step of 0.1 ppb against the phase error, within SLEW_MAX (R235, R236). -/
def ppsRate (s : State) (err : Int) : Int :=
  let lim : Int := 10000 * timeCfg s 25 5
  let r := s.time.rate
  if 0 < err then (if -lim < r then r - 1 else r) else if err < 0 then (if r < lim then r + 1 else r) else r

/-- PPS_IN: a rising edge (R236). The loop runs while DISC is PPS. -/
def execPpsIn (s : State) : Out :=
  if !s.sys.powered || s.sys.inReset || decide (s.pair.mstate = .sleep) then .next s
  else
    let err := phaseErr s.time.ns
    let loop := decide (s.time.disc = 1)
    let good := if decide (err.natAbs < 1000) && loop then s.time.ppsGood + 1 else 0
    let s1 := { s with time := { s.time with
      ppsErr := err, ppsCyc := some s.time.cyc, ppsGood := min 10 good, rate := if loop then ppsRate s err else s.time.rate } }
    .next (lockState (decide (10 ≤ good)) false s1)

/-- PPS_HOLDOVER: no edge for 3 s while the loop is to run (R236). -/
def execPpsHoldover (s : State) : Out :=
  if decide (s.time.disc = 1) && !s.time.holdover && !s.sys.inReset && decide (s.time.ppsCyc.getD 0 + cycSec 3 ≤ s.time.cyc) then
    .next (lockState false true { s with time := { s.time with ppsGood := 0 } })
  else .next s

/-- TIME_OF_DAY: a ZDA sentence on UART `u` names the UTC second of the edge that precedes it by at most 900 ms (R236);
during a CP restart the input is ignored (R281). -/
def execTimeOfDay (u : BitVec 2) (utc ageMs : Nat) (s : State) : Out :=
  match s.time.ppsCyc with
  | some c =>
    if fbit (force s (aTIME + 0x1C)) 2 && decide (timeCfg s 3 2 = u.toNat) && !s.time.valid && decide (s.time.sets = 0) && s.time.pending.isNone
        && s.time.locked && decide (ageMs ≤ 900) && !s.cp.down && decide (s.pair.mstate ≠ .shadow)
        && !fbit (force s (aUART u.toNat)) 1 then
      let t : Int := 1000000000 * ((utc : Int) + timeCfg s 8 8) + 5 * ((s.time.cyc : Int) - c)
      .next (settle (setTime (t - s.time.ns) 2 s))
    else .next s
  | none => .next s

/-- PPS_OUT rises at a whole second while VALID is 1 (R237). -/
def execPpsOut (s : State) : Out :=
  let sec := s.time.ns / 1000000000
  if s.time.valid && decide (s.time.ns % 1000000000 < 20) && decide (s.time.ppsSec ≠ some sec) then
    .next { s with time := { s.time with ppsOut := true, ppsOutNs := s.time.ns, ppsSec := some sec } }
  else .next s

/-! ### PTP (R238) -/

/-- clockClass of the module's PTP ports. -/
def ptpClass (s : State) : Byte := if s.time.locked then 6 else if s.time.holdover then 7 else 248

/-- What a PTP port sends: the timescale is PTP once VALID is 1, the stamp is station time. -/
def ptpSync (s : State) : PtpSync := { clockClass := ptpClass s, ptpScale := s.time.valid, stamp := s.time.ns / 5 * 5 }

/-- TIME_LO read latches TIME_HI (R232). -/
def execTimeLo (s : State) : Out :=
  cpRow (aTIME) false s <|
  .next (readOut (lo32 s.time.ns) { s with time := { s.time with timeHi := hi32 s.time.ns } })

/-- Units of 0.1 ppb that a slew adds to the rate: a positive offset retards station time (R235). -/
def slewRate (s : State) : Int :=
  let m : Int := 10000 * timeCfg s 25 5
  if !s.time.slewing then 0 else if 0 < s.time.slewLeft then -m else if s.time.slewLeft < 0 then m else 0

/-- A written period takes effect at the first whole second, also while no tick runs (R15); a tick takes it at its boundary. -/
def periodFollow (old new : Nat) (k : TickSt) (want : Nat) : TickSt :=
  if !k.on && k.goAt.isNone && decide (old / 1000000000 ≠ new / 1000000000) then { k with period := want } else k

/-- One fabric cycle of 5 ns: station time advances by 5 ns and the rate, through an accumulator that counts
5 * 10^-10 ns (R232, R235); PPS_OUT falls after PPS_W ms (R237). -/
def advance (s : State) : State :=
  let acc := s.time.frac + s.time.rate + slewRate s
  let ns := ((s.time.ns : Int) + 5 + acc / 2000000000).toNat
  let sl := s.time.slewAcc - slewRate s
  let gone := sl.tdiv 2000000000
  { s with time := { s.time with
    cyc := s.time.cyc + 1, ns := ns, frac := acc % 2000000000
    slewAcc := sl - 2000000000 * gone, slewLeft := s.time.slewLeft - gone
    ppsOut := s.time.ppsOut && decide (ns < s.time.ppsOutNs + 1000000 * timeCfg s 16 9) }
           tick := periodFollow s.time.ns ns s.tick (fld (written s (aLE + 8)) 0 17) }

end Sys2Proof.Machine
end

