-- ==== Sys2Proof/Machine/Can.lean ====
section
/-! DEFINITION. The station buses: reference frames, the free window, node input frames, receive FIFOs, transmit entries and
error states (09). -/

namespace Sys2Proof.Machine

/-! ### Modes and frame lengths (R228, R229, R254) -/

/-- CAN_CFG.MODE in force. -/
def canMode (s : State) (b : Nat) : Nat := fld (canCfg s b 0) 0 2

/-- CAN_EVT_EN bit. -/
def canEvt (s : State) (b i : Nat) : Bool := fbit (canCfg s b 0x1C) i

/-- The bus receives: it is not OFF, and its controller is not bus-off (R229). -/
def canHears (s : State) (b : Nat) : Bool :=
  decide (b < nBus s) && s.sys.powered && !s.sys.inReset && decide (canMode s b ≠ 0) && decide ((bu s b).state ≠ 2)

/-- A bit time in ps: (PRESC + 1) (3 + TSEG1 + TSEG2) / 80 MHz. -/
def bitPs (w : Word) : Nat := 12500 * (fld w 0 8 + 1) * (3 + fld w 8 8 + fld w 16 7)

/-- Bits of a Classical CAN frame of `n` bytes with maximum stuffing and intermission (R255). -/
def classicBits (ide : Bool) (n : Nat) : Nat :=
  if ide then 64 + 8 * n + (53 + 8 * n) / 4 + 3 else 44 + 8 * n + (33 + 8 * n) / 4 + 3

/-- Nominal-phase and data-phase bits of a CAN FD frame of `n` bytes with maximum stuffing and intermission, as ISO 11898-1
lays the frame out, with a CRC delimiter of two bits, so that a 16-byte frame takes the 165 µs of the worked example of 09 (log 37). -/
def fdBits (ide : Bool) (n : Nat) : Nat × Nat :=
  let head := if ide then 36 else 17
  (head + (head - 1) / 4 + 13, 5 + 8 * n + (5 + 8 * n) / 4 + (if n ≤ 16 then 27 else 32) + 1)

/-- The worst-case duration in ns of a frame on bus `b`. -/
def frameNs (s : State) (b : Nat) (ide fdf brs : Bool) (n : Nat) : Nat :=
  let nb := bitPs (canCfg s b 4)
  let db := if brs then bitPs (canCfg s b 8) else nb
  if fdf then ((fdBits ide n).1 * nb + (fdBits ide n).2 * db + 999) / 1000
  else (classicBits ide n * nb + 999) / 1000

/-! ### Reference frames (R217, R241, R243) -/

/-- Seat B identifiers are used (R8, R191). -/
def seatBit (s : State) : Nat := if hasTwin s && s.pair.seatB then 1 else 0

/-- The module sends reference frames on bus `b` (R241). -/
def sendsRef (s : State) (b : Nat) : Bool :=
  decide (b < nBus s) && tickRuns s && inRun s && (decide (s.pair.role = .solo) || decide (s.pair.role = .active))
    && decide (canMode s b = 1) && fbit (canCfg s b 0) 5 && !busHeld s b

/-- The position of a period in the list of R12. -/
def periodIdx (p : Nat) : Nat :=
  ([250, 320, 400, 500, 625, 800, 1000, 1250, 1600, 2000, 2500, 3125, 4000, 5000, 6250, 8000, 10000, 12500, 15625, 20000,
    25000, 31250, 40000, 50000, 62500, 100000].findIdx (· = p))

/-- The low `k` bytes of a number, least significant first. -/
def leBytes (k n : Nat) : List Byte := (List.range k).map (fun i => BitVec.ofNat 8 (n / 256 ^ i))

/-- The reference frame (R243); `delay` in ns after T0 + 10 µs. -/
def refFrame (s : State) (delay : Nat) : SchedFrame :=
  let b0 := periodIdx s.tick.period + 32 * b2n s.time.valid + 64 * seatBit s + 128 * b2n (decide (s.pair.role = .active))
  { kind := 0, id := BitVec.ofNat 29 (1 + seatBit s), ide := false, node := 0
    data := [BitVec.ofNat 8 b0, BitVec.ofNat 8 s.tick.num] ++ leBytes 2 (satN 0xFFFF (delay / 100))
      ++ leBytes 4 (s.tick.t0 / 1000) }

/-! ### The module's own frames on a bus (R230, R239, R242, R243) -/

/-- The worst-case duration of a scheduled frame, with intermission (R243, R254). -/
def schedNs (s : State) (b : Nat) (f : SchedFrame) : Nat := frameNs s b f.ide f.fdf f.brs f.data.length

/-- The end of the free window that stands open, in ns. -/
def freeEnd (s : State) (b : Nat) : Nat := (if s.tick.freeDone.getLsbD b then s.tick.next else s.tick.t0) + 5000

/-- T0 + 10 µs of this tick has come on bus `b`, and the module has sent its reference frame (R242). -/
def refSent (s : State) (b : Nat) : Bool := s.tick.refDone.getLsbD b && (bu s b).schedRun

/-- A reference frame with its own delay, from T0 + 10 µs of the tick that it belongs to; one of the last tick is pending until T0 + 10 µs of
this one (R230, R243). -/
def refStart (s : State) (b : Nat) (f : SchedFrame) : SchedFrame :=
  let t0 := if refSent s b then s.tick.t0 else s.tick.lastT0
  { f with data := f.data.take 2 ++ leBytes 2 (satN 0xFFFF ((s.time.ns - (t0 + 10000)) / 100)) ++ f.data.drop 4 }

/-- The frame `f` leaves the queue of bus `b` and starts now; a reference frame records its own delay (R242, R243). -/
def busStart (b : Nat) (f : SchedFrame) (s : State) : State :=
  let x := bu s b
  let g := if f.kind = 0 then refStart s b f else f
  buPut s b { x with
    sched := x.sched.erase f, cur := some { frame := g, sof := s.time.ns, fin := s.time.ns + schedNs s b g, tick := s.tick.num } }

/-- The frame on the bus has met an error or lost arbitration: it is pending again, unless a frame of a new tick has taken its place,
which supersedes it (R230). -/
def busLose (b : Nat) (s : State) : State :=
  let x := bu s b
  match x.cur with
  | some c =>
    let old := decide (c.tick ≠ s.tick.num) &&
      ((decide (c.frame.kind = 1) && s.tick.commitDone) || (decide (c.frame.kind = 0) && refSent s b))
    let s1 := buPut s b { x with
      cur := none, busyTo := max x.busyTo s.time.ns, sched := if old then x.sched else c.frame :: x.sched
      superseded := if old then satN 0xFFFF (x.superseded + 1) else x.superseded }
    fireIf (old && canEvt s b 4) (403 + 4 * b) s1
  | none => s

/-- The error state of a controller that is not bus-off, as in the standard: 0 ERROR_ACTIVE, 1 ERROR_PASSIVE from 128 on (R228). -/
def errState (tec rec : Byte) : BitVec 2 := if 128 ≤ tec.toNat ∨ 128 ≤ rec.toNat then 1 else 0

/-- The error counters of bus `b` take new values, and the error state follows them; `off` is a bus-off, which ends the schedule. The Bittern
log keeps the extremes and the bus-offs (R228, R231, R325). -/
def errCount (b : Nat) (tec rec : Byte) (off : Bool) (s : State) : State :=
  let st : BitVec 2 := if off then 2 else errState tec rec
  let change := decide (st ≠ (bu s b).state)
  let s1 := if off then busLose b s else s
  let x := bu s1 b
  let s2 := buPut s1 b { x with
    txErrs := tec, rxErrs := rec, state := st, busoff := if off then satN 0xFFFF (x.busoff + 1) else x.busoff, schedRun := x.schedRun && !off }
  fireIf (change && canEvt s b 2) (402 + 4 * b) { s2 with btn := { s2.btn with
    tecMax := mput (fun _ => 0) s.btn.tecMax b (max (mget (fun _ => 0) s.btn.tecMax b) tec.toNat)
    recMax := mput (fun _ => 0) s.btn.recMax b (max (mget (fun _ => 0) s.btn.recMax b) rec.toNat)
    busoff := mput (fun _ => 0) s.btn.busoff b (satN 0xFFFF (mget (fun _ => 0) s.btn.busoff b + b2n off)) } }

/-- A frame has been sent: TEC falls by 1 (R228). -/
def errSent (b : Nat) (s : State) : State :=
  let x := bu s b
  if x.txErrs = 0 then s else errCount b (x.txErrs - 1) x.rxErrs false s

/-- A frame has been received: REC falls by 1, or to 119-127 from above 127 (R228, log 122). -/
def errHeard (b : Nat) (s : State) : State :=
  let x := bu s b
  if x.rxErrs = 0 then s
  else errCount b x.txErrs (if 127 < x.rxErrs.toNat then BitVec.ofNat 8 (119 + Config.freeRec s.time.cyc % 9) else x.rxErrs - 1) false s

/-- The frame on the bus ends: it has been sent, and the bus has been busy with it. -/
def busEnd (b : Nat) (s : State) : State :=
  let x := bu s b
  match x.cur with
  | some c =>
    if c.fin ≤ s.time.ns then
      errSent b (buPut s b { x with cur := none, sent := x.sent ++ [c.frame], spans := x.spans ++ [(c.sof, c.fin)], busyTo := max x.busyTo c.fin })
    else s
  | none => s

/-- A frame of another node has occupied the bus from `age` ns ago to the end of the intermission that follows it; a frame of the
module that is on the bus has lost arbitration against it (R230, R247). -/
def busHeard (b age : Nat) (s : State) : State :=
  let s1 := busLose b s
  let fin := s.time.ns + 3 * bitPs (canCfg s b 4) / 1000
  buPut s1 b { bu s1 b with busyTo := max (bu s1 b).busyTo fin, spans := (bu s1 b).spans ++ [(s.time.ns - age, fin)] }

/-- The bus has carried a frame at the instant `t` (R247). -/
def busyAt (s : State) (b t : Nat) : Bool :=
  (bu s b).spans.any (fun p => decide (p.1 ≤ t) && decide (t < p.2))
    || (match (bu s b).cur with | some c => decide (c.sof ≤ t) && decide (t < c.fin) | none => false)

/-- The stamp of a start of frame `age` ns ago: station time to 5 ns, in 48 bits (R239). -/
def sofNs (s : State) (age : Nat) : Nat := (s.time.ns - age) / 5 * 5
def sofStamp (s : State) (age : Nat) : BitVec 48 := BitVec.ofNat 48 (sofNs s age)

/-- The bit of bus `b` in a map of buses. -/
def busBit (b : Nat) : BitVec 4 := 1#4 <<< b

/-- REFERENCE_FRAME: at T0 + 10 µs the pending frame of the last tick is superseded and the new one queued; `delay` ns later the bus
is free for it (R230, R242). A module that does not send at that instant sends none in this tick. -/
def execReferenceFrame (b : BitVec 2) (delay : Nat) (s : State) : Out :=
  let i := b.toNat
  if !(decide (i < nBus s) && tickRuns s && !s.tick.refDone.getLsbD i && decide (s.tick.t0 + 10000 ≤ s.time.ns)) then .next s
  else
    let mark := fun (a : State) => { a with tick := { a.tick with refDone := s.tick.refDone ||| busBit i } }
    if sendsRef s i then
      let s1 := supersede 0 i s
      let x := bu s1 i
      .next (mark (buPut s1 i { x with
        sched := refFrame s delay :: x.sched, schedRun := true, free := false, sent := []
        busyTo := max x.busyTo (s.tick.t0 + 10000 + delay) }))
    else .next (mark (buPut s i { bu s i with schedRun := false, free := false }))

/-- REFERENCE_FRAME_HEARD: the identifier of another module's reference frame; `byte0` once the frame is complete, whose
ROLE bit may end dual-active running (R217, R222, R241). -/
def execReferenceFrameHeard (b : BitVec 2) (id : BitVec 11) (byte0 : Option Byte) (s : State) : Out :=
  let i := b.toNat
  let n := id.toNat
  if canHears s i && (decide (n = 1) || decide (n = 2)) && decide (n ≠ 1 + seatBit s) then
    let x := bu s i
    let s1 := if n < 1 + seatBit s then buPut s i { x with lowerHeard := some s.tick.num } else s
    let s2 := { s1 with pair := { s1.pair with refHeard := true } }
    let s3 := if byte0.isSome then errHeard i (busHeard i (frameNs s i false false false 8) s2) else s2
    .next (settle (if byte0.any (fun v => v.getLsbD 7) then mergeEnd s3 else s3))
  else .next s

/-! ### The free window (R242, R248, R253) -/

/-- START of node `k`, in µs. -/
def nodeStart (s : State) (k : Nat) : Nat := fld (nodeCfg s k 4) 0 17

/-- A correction has been sent on bus `b` in this tick. -/
def corrSentNow (s : State) (b : Nat) : Bool :=
  (List.range 36).any (fun i => (nd s (36 * b + i)).corrAt.contains (nextLatch s))

/-- The lowest slot that waits for its correction. -/
def corrNext (s : State) (b : Nat) : Option Nat :=
  (List.range 36).findSome? (fun i => if (bu s b).corrQueue.contains (36 * b + i) then some (36 * b + i) else none)

/-- The correction frame of node `k` (R248). -/
def corrFrame (s : State) (k : Nat) : SchedFrame :=
  let x := nd s k
  { kind := 2, id := BitVec.ofNat 29 (3 + seatBit s), ide := false, node := k
    data := [BitVec.ofNat 8 (k % 36), x.corrSeq] ++ leBytes 3 ((x.corrErr.tdiv 100) % 16777216).toNat
      ++ leBytes 3 (nodeStart s k) }

/-- The frame still fits into the free window that stands open (R254). -/
def fitsFree (s : State) (b : Nat) (f : SchedFrame) : Bool := (bu s b).free && decide (s.time.ns + schedNs s b f ≤ freeEnd s b)

/-- The reference master sends the correction that is next on bus `b`, one in a tick (R248). -/
def sendCorrection (b k : Nat) (s : State) : State :=
  let x := nd s k
  let s1 := ndPut s k { x with
    consec := 0, waiting := false, corrSeq := x.corrSeq + 1, corrections := satN 255 (x.corrections + 1)
    corrAt := x.corrAt ++ [nextLatch s] }
  let y := bu s1 b
  nodeEvent 30 k (busStart b (corrFrame s k) (buPut s1 b { y with
    corrQueue := y.corrQueue.filter (fun j => decide (j ≠ k)), corrections := satN 0xFFFF (y.corrections + 1) }))

/-- The correction that is to be sent now. -/
def corrDue (s : State) (b : Nat) : Option Nat :=
  if corrSentNow s b then none else (corrNext s b).filter (fun k => fitsFree s b (corrFrame s k))

/-- The pending frame of bus `b` that may start: the reference frame, until T0 + 10 µs of the next tick; then output frames, until T0 + 2 µs of
the next tick; then in the free window correction and activate frames; all but the first only from the reference master (R230, R241, R242,
R254). -/
def schedNext (s : State) (b : Nat) : Option SchedFrame :=
  let q := (bu s b).sched
  let r := (bu s b).schedRun && (s.tick.refDone.getLsbD b || decide (s.time.ns < s.tick.t0 + 10000))
  let m := refMaster s b && (bu s b).schedRun && (s.tick.refDone.getLsbD b || !s.tick.commitDone)
  (q.find? (fun f => r && decide (f.kind = 0))).or
    ((q.find? (fun f => m && decide (f.kind = 1))).or
      (q.find? (fun f => refMaster s b && (decide (f.kind = 2) || (decide (f.kind = 3) && (corrDue s b).isNone)) && fitsFree s b f)))

/-- The bus is served: a frame that has ended makes room, and the next one starts as soon as the bus is free (R242, R248). -/
def busServe (b : Nat) (s : State) : State :=
  let s1 := busEnd b s
  if (bu s1 b).cur.isSome || decide (s1.time.ns < (bu s1 b).busyTo) || !sendsRef s1 b then s1
  else match schedNext s1 b, corrDue s1 b with
    | some f, _ => busStart b f s1
    | none, some k => if refMaster s1 b then sendCorrection b k s1 else s1
    | none, none => s1

/-- Station time of T0 of the activation tick (R361). -/
def actT0 (s : State) : Nat := s.tick.t0 + (s.upd.actTick - s.tick.num) * s.tick.period * 1000

/-- An activate frame: KIND 1 ARM, 2 GO, 3 CANCEL (R253). -/
def actFrame (s : State) (kind : Nat) : SchedFrame :=
  let group := (s.upd.man.map manGroup).getD 0
  { kind := 3, id := BitVec.ofNat 29 (5 + seatBit s), ide := false, node := 0
    data := [BitVec.ofNat 8 kind, 0] ++ leBytes 2 group ++ leBytes 4 (actT0 s / 1000) }

/-- An activate frame is queued on every bus whose reference master the module is. -/
def queueActivate (kind : Nat) (s : State) : State :=
  (List.range (nBus s)).foldl (fun a b =>
    if refMaster a b then buPut a b { bu a b with sched := (bu a b).sched ++ [actFrame s kind] } else a) s

/-- GO is due in the free window of the tick before the activation tick (R253, R362). -/
def goDue (s : State) : Bool :=
  decide (s.upd.phase = .armed) && s.upd.decided && s.upd.goSent && decide (s.upd.actTick = s.tick.num + 1)

/-- FREE_WINDOW: the scheduled span ends, and correction, activate and CP frames may start; a GO that is due joins them. -/
def execFreeWindow (b : BitVec 2) (s : State) : Out :=
  let i := b.toNat
  if sendsRef s i && !s.tick.freeDone.getLsbD i && refSent s i
      && decide (s.tick.t0 + 1000 * fld (canCfg s i 0x14) 0 17 ≤ s.time.ns) then
    let x := bu s i
    let go := if goDue s && refMaster s i then [actFrame s 2] else []
    .next { buPut s i { x with sched := x.sched ++ go, free := true } with
      tick := { s.tick with freeDone := s.tick.freeDone ||| busBit i } }
  else .next s

/-- ACTIVATE_ARM: once a second during the 60 s before the activation tick (R253). -/
def execActivateArm (s : State) : Out :=
  let sec := s.time.ns / 1000000000
  if tickRuns s && decide (s.upd.phase = .armed) && !s.upd.decided && decide (actT0 s ≤ s.time.ns + 60000000000)
      && decide (s.time.ns + 1000000000 ≤ actT0 s) && decide (s.upd.armSec ≠ sec) then
    let s1 := queueActivate 1 s
    .next { s1 with upd := { s1.upd with armSec := sec } }
  else .next s

/-! ### Node input frames (R246-R249) -/

/-- A node frame of class WINDOW or EDGE counts towards a rejoin: REJOIN_N of them return a lost node to OK, or to
REJOINING under MANUAL (R249). -/
def nodeGood (k : Nat) (s : State) : State :=
  let x := nd s k
  let run := x.goodRun + 1
  let back := decide (x.phase = .lost) && decide (fld (nodeCfg s k 8) 24 4 ≤ run)
  let manual := fbit (nodeCfg s k 0) 12
  let s1 := ndPut s k { x with
    goodRun := if back then 0 else run
    phase := if back then (if manual then .rejoining else .ok) else x.phase }
  if back && !manual then nodeEvent 29 k s1 else s1

/-- The node's own violation: counted, and at the third in a row the reference master owes it a correction (R247, R248). -/
def nodeViolation (k : Nat) (ofs : Int) (s : State) : State :=
  let x := nd s k
  let b := k / 36
  let m := refMaster s b
  let n := min 3 (x.consec + 1)
  if x.waiting && m then s
  else
    let owe := decide (3 ≤ n) && m
    let s1 := ndPut s k { x with
      consec := n, violations := satN 0xFFFF (x.violations + 1), waiting := owe
      corrErr := if owe then ofs else x.corrErr }
    if owe then buPut s1 b { bu s1 b with corrQueue := addNew k (bu s1 b).corrQueue } else s1

/-- The bus permits the format of node `k`'s input frame (R228). -/
def nodeFormat (s : State) (k : Nat) : Bool := !fbit (nodeCfg s k 0) 13 || fbit (canCfg s (k / 36) 0) 2

/-- T0 of the tick in which a frame starts that starts at `sof` relative to T0 of the current tick (R14, R246). -/
def tickT0 (s : State) (sof : Int) : Nat := if sof < 0 then s.tick.lastT0 else s.tick.t0

/-- NODE_INPUT_FRAME: `sof` and `eof` in ns relative to T0 of the current tick; a start before T0 belongs to the tick
before (R246). The node was pushed if another frame that this bus has carried stood on T0 + START; `busy` tells of one that no command
has brought, such as a frame with an error (R247). -/
def execNodeInputFrame (k : BitVec 8) (sof eof : Int) (busy : Bool) (data : List Byte) (s : State) : Out :=
  let i := k.toNat
  if !(decide (i < nNodes s) && nodeSched s i && nodeFormat s i && canHears s (i / 36) && s.tick.on) then .next s
  else
    let base := tickT0 s sof
    let shift : Int := (s.tick.t0 : Int) - base
    let pushed := busy || busyAt s (i / 36) (base + 1000 * nodeStart s i)
    let tick := if sof < 0 then s.tick.num - 1 else s.tick.num
    let a := sof + shift
    let z := eof + shift
    let start : Int := 1000 * nodeStart s i
    let len : Int := 1000 * fld (nodeCfg s i 8) 0 16
    let guard : Int := 1000 * fld (nodeCfg s i 8) 16 8
    let due := nodeDue s i tick
    let window := due && decide (start ≤ a) && decide (z ≤ start + len)
    let edge := due && !window && decide (start - guard ≤ a) && decide (z ≤ start + len + guard)
    let late := !window && !edge
    let x := nd s i
    let s1 := ndPut s i { x with
      lastOfs := a - start
      pushedTotal := if pushed then satN 0xFFFF (x.pushedTotal + 1) else x.pushedTotal
      consec := if late then x.consec else 0
      goodRun := if late && due then 0 else x.goodRun
      rx := x.rx ++ [{ late := late, edge := edge, pushed := pushed, data := data, eof := (s.tick.t0 : Int) + eof, tick := tick }] }
    let s2 := errHeard (i / 36) (busHeard (i / 36) (eof - sof).toNat s1)
    .next (if !late then nodeGood i s2 else if pushed then s2 else nodeViolation i (a - start) s2)

/-! ### Unscheduled frames (R230, R240, R254) -/

/-- The frame carries the identifier at offset `o` (input 0xC, output 0x10) of a scheduled node of bus `b`. -/
def nodeId (s : State) (b o : Nat) (f : CanFrame) : Bool :=
  (List.range 36).any (fun i =>
    let w := nodeCfg s (36 * b + i) o
    nodeSched s (36 * b + i) && decide (w.truncate 29 = f.id) && decide (fbit w 29 = f.ide))

/-- A reserved base identifier (R240). -/
def reservedId (f : CanFrame) : Bool := !f.ide && decide (f.id.toNat < 16)

/-- An enabled filter matches the frame (R254). -/
def filterHit (s : State) (b : Nat) (f : CanFrame) : Bool :=
  (List.range 32).any (fun i =>
    let w := canCfg s b (0x100 + 8 * i)
    let m := canCfg s b (0x104 + 8 * i)
    fbit w 31 && decide (fbit w 29 = f.ide) && decide ((w ^^^ f.id.zeroExtend 32) &&& m &&& 0x1FFFFFFF = 0))

/-- A foreign frame that starts at `t`, in the scheduled span of a bus on which the module sends, is an intrusion (R242); its event
carries the start of frame (R256). -/
def intrusion (b t : Nat) (f : CanFrame) (s : State) : State :=
  let isRef := !f.ide && (decide (f.id.toNat = 1) || decide (f.id.toNat = 2))
  let base := if t < s.tick.t0 then s.tick.lastT0 else s.tick.t0
  if sendsRef s b && !isRef && !nodeId s b 0xC f && !nodeId s b 0x10 f && decide (base + 10000 ≤ t)
      && decide (t ≤ base + 1000 * fld (canCfg s b 0x14) 0 17) then
    let s1 := buPut s b { bu s b with intrusions := satN 0xFFFF ((bu s b).intrusions + 1) }
    if canEvt s b 5 then fire (403 + 4 * b) t s1 else s1
  else s

/-- The frame, which started at `t`, enters the receive FIFO of 64 frames; a frozen CAN DMA stops it (R254, R256, R299). -/
def rxStore (b t : Nat) (f : CanFrame) (s : State) : State :=
  if f.rtr || nodeId s b 0xC f || reservedId f || !filterHit s b f || s.prot.frozen.getLsbD 3 then s
  else
    let x := bu s b
    let full := decide (64 ≤ x.fifo.length)
    let s1 := buPut s b { x with fifo := if full then x.fifo else x.fifo ++ [f], ovf := x.ovf || full }
    if canEvt s b 0 then fire (400 + 4 * b) t s1 else s1

/-- RX_FRAME (R228, R239, R242, R254): an FD frame is received only where CAN_CFG.FD permits it. -/
def execRxFrame (b : BitVec 2) (f : HeardFrame) (s : State) : Out :=
  let i := b.toNat
  let g := { f.frame with stamp := sofStamp s f.age }
  if canHears s i && (!g.fdf || fbit (canCfg s i 0) 2) then
    .next (rxStore i (sofNs s f.age) g (intrusion i (sofNs s f.age) g (errHeard i (busHeard i f.age s))))
  else .next s

/-- CAN_RX_POP write. -/
def execCanRxPop (b : BitVec 2) (v : Word) (s : State) : Out :=
  cpRow (aCAN b.toNat + 0x24) true s <|
  let i := b.toNat
  if i < nBus s ∧ fbit v 0 = true then .next (buPut s i { bu s i with fifo := (bu s i).fifo.drop 1 }) else .next s

/-- Transmit entry `e` of bus `b`. -/
def txEntry (s : State) (b e : Nat) : TxEntry := mget (fun _ => {}) (bu s b).tx e

/-- The entry takes a new state. -/
def txPut (s : State) (b e : Nat) (x : TxEntry) : State :=
  buPut s b { bu s b with tx := mput (fun _ => {}) (bu s b).tx e x }

/-- The address of word `o` of transmit entry `e` of bus `b`. -/
def txAddr (b e o : Nat) : Nat := aCAN b + 0x400 + 0x50 * e + o

/-- The entry's identifier is reserved, or its top 11 bits as an extended one are (R240). -/
def txBadId (s : State) (b e : Nat) : Bool :=
  let w := force s (txAddr b e 0)
  if fbit w 29 then decide (fld w 18 11 < 16) else decide (fld w 0 11 < 16)

/-- TX_REQ (R240, R254). -/
def execTxReq (b : BitVec 2) (e : BitVec 4) (s : State) : Out :=
  cpRow (txAddr b.toNat e.toNat 4) true s <|
  let i := b.toNat
  let j := e.toNat
  let x := txEntry s i j
  if nBus s ≤ i ∨ x.pending = true then .next s
  else if txBadId s i j then .next (txPut s i j { x with badId := true })
  else .next (txPut s i j { x with pending := true, reqNs := s.time.ns })

/-- A pending entry is aborted (R230). -/
def txAbort (b e : Nat) (s : State) : State :=
  let x := txEntry s b e
  if x.pending then fireIf (canEvt s b 1) (401 + 4 * b) (txPut s b e { x with pending := false, aborted := true }) else s

/-- TX_ABORT. -/
def execTxAbort (b : BitVec 2) (e : BitVec 4) (s : State) : Out :=
  cpRow (txAddr b.toNat e.toNat 4) true s <|
  if b.toNat < nBus s then .next (txAbort b.toNat e.toNat s) else .next s

/-- The frame of a transmit entry takes part in arbitration by the bits of its identifier: the lower key wins, and among the same base
bits a base frame. -/
def txKey (s : State) (b e : Nat) : Nat :=
  let w := force s (txAddr b e 0)
  if fbit w 29 then 2 * fld w 0 29 + 1 else 2 * (262144 * fld w 0 11)

/-- The entry comes first in arbitration among the entries that were queued by `t` (R242). -/
def txFirst (s : State) (b e t : Nat) : Bool :=
  (List.range 16).all (fun j => !(txEntry s b j).pending || decide (t < (txEntry s b j).reqNs) || decide (txKey s b e ≤ txKey s b j))

/-- The entry is sent as a CAN FD frame (R228). -/
def txFd (s : State) (b e : Nat) : Bool := fbit (force s (txAddr b e 0)) 30 && fbit (canCfg s b 0) 2

/-- The entry may have been sent with its start of frame at `t`: in the free window of the tick in which it starts, whether or not the
module sends reference frames, and ending in the worst case by T0 + P + 5 µs; before tick 0 there is no schedule to keep clear
(R254, log 91). -/
def txFits (s : State) (b e t : Nat) : Bool :=
  let w := force s (txAddr b e 0)
  let n := dlcBytes (fld (force s (txAddr b e 4)) 0 4)
  let fd := txFd s b e
  let last := decide (t < s.tick.t0)
  let base := if last then s.tick.lastT0 else s.tick.t0
  let fin := (if last then s.tick.t0 else s.tick.next) + 5000
  !s.tick.on || (decide (base + 1000 * fld (canCfg s b 0x14) 0 17 ≤ t)
    && decide (t + frameNs s b (fbit w 29) fd (fbit w 31 && fd) (if fd then n else min 8 n) ≤ fin))

/-- The pending entries of bus `b` whose identifier has come to be a reserved one are not sent (R240). -/
def txRefuse (b : Nat) (s : State) : State :=
  (List.range 16).foldl (fun a e =>
    if (txEntry a b e).pending && txBadId a b e then txPut a b e { txEntry a b e with pending := false, badId := true } else a) s

/-- TX_DONE: the entry has been sent, with its start of frame `age` ns ago, at which the bus was free of the module's own frames, which go
first (R239, R242, R254, R256, R299). The error state indicator of an FD frame is that of the controller (R228), whatever the command says. -/
def execTxDone (b : BitVec 2) (e : BitVec 4) (age : Nat) (_esi : Bool) (s0 : State) : Out :=
  let i := b.toNat
  let j := e.toNat
  let s := txRefuse i s0
  let x := txEntry s i j
  let t := sofNs s age
  if canHears s i && decide (canMode s i = 1) && x.pending && !s.prot.frozen.getLsbD 3 && txFits s i j t && txFirst s i j t
      && (bu s i).cur.all (fun c => decide (t < c.sof)) then
    let s1 := txPut s i j { x with pending := false, done := true, stamp := sofStamp s age, esi := txFd s i j && decide ((bu s i).state = 1) }
    let s2 := errSent i (busHeard i age s1)
    .next (if canEvt s i 1 then fire (401 + 4 * i) t s2 else s2)
  else .next s

/-! ### Errors of a bus (R230, R231) -/

/-- The error counters may go from (tec, rec) to (tec', rec') by one error: a transmitter's TEC rises by 8, a receiver's REC by 1, by 8 or by
both, and an error that the standard excepts, or a lost arbitration, changes neither. -/
def errStep (tec rec tec' rec' : Nat) : Bool :=
  (decide (rec' = rec) && (decide (tec' = min 255 (tec + 8)) || decide (tec' = tec)))
    || (decide (tec' = tec) && [1, 8, 9].any (fun k => decide (rec' = min 255 (rec + k))))

/-- BUS_ERROR: one error, or a lost arbitration; a frame of the module that is on the bus stays pending and is retransmitted without limit
(R228, R230). A TEC that passes 255 is a bus-off (R231). -/
def execBusError (b : BitVec 2) (tec rec : Byte) (s : State) : Out :=
  let x := bu s b.toNat
  if canHears s b.toNat && errStep x.txErrs.toNat x.rxErrs.toNat tec.toNat rec.toNat then
    let off := decide (rec = x.rxErrs) && decide (tec = 255) && decide (255 < x.txErrs.toNat + 8)
    .next (errCount b.toNat tec rec off (busLose b.toNat s))
  else .next s

/-- The counters go with the error state: 0 ERROR_ACTIVE, 1 ERROR_PASSIVE, 2 BUS_OFF (R228). -/
def errGoes (tec rec : Byte) (st : BitVec 2) : Bool :=
  (decide (st = 2) && decide (tec = 255)) || (decide (st ≠ 2) && decide (st = errState tec rec))

/-- ERROR_STATE_CHANGE: the errors since the last command, or the frames without one, have brought the counters to values with which the
error state changes (R231, log 122). -/
def execErrorStateChange (b : BitVec 2) (tec rec : Byte) (st : BitVec 2) (s : State) : Out :=
  let i := b.toNat
  if canHears s i && errGoes tec rec st && decide (st ≠ (bu s i).state) then .next (errCount i tec rec (decide (st = 2)) s) else .next s

/-- BUS_OFF_RECOVERY: the schedule resumes at the first T0 + 10 µs after it (R231). -/
def execBusOffRecovery (b : BitVec 2) (s : State) : Out :=
  let i := b.toNat
  if i < nBus s ∧ (bu s i).state = 2 then
    let past := decide (s.tick.t0 + 10000 < s.time.ns)
    .next (fireIf (canEvt s i 2) (402 + 4 * i) (buPut s i { bu s i with
      state := 0, txErrs := 0, rxErrs := 0, holdTick := if past then some s.tick.num else none }))
  else .next s

end Sys2Proof.Machine
end

