-- ==== Sys2Proof/Machine/Cp.lean ====
section
/-! DEFINITION. The communication processor: the interrupt controller and event queues, CP resets, the OEM partition, serial
ports, Ethernet and USB, and service access (10, 11). -/

namespace Sys2Proof.Machine

/-! ### Interrupts and event queues (R267-R269) -/

/-- Priority of a source. -/
def icPrio (s : State) (n : Nat) : Nat := fld (icCfg s n) 0 4

/-- The source interrupts: enabled, pending, and of a priority above 0 and above IC_THRESH (R267). -/
def claimable (s : State) (n : Nat) : Bool :=
  s.ev.pend.contains (BitVec.ofNat 10 n) && fbit (icCfg s n) 4 && decide (fld (force s (aIC + 0xA08)) 0 4 < icPrio s n)

/-- The source that a claim returns: the highest priority, and among equals the lowest number. -/
def claimed (s : State) : Option Nat :=
  ((List.range 544).filter (claimable s)).foldl (fun b n => match b with
    | none => some n
    | some m => if icPrio s m < icPrio s n then some n else b) none

/-- The handler of an Ethernet receive source takes the oldest frame from the port's ring (R267, log 95). -/
def ringTake (n : Nat) (s : State) : State :=
  if n = 416 ∨ n = 420 then
    let e := (n - 416) / 4
    { s with cp := { s.cp with ethRing := mput (fun _ => 0) s.cp.ethRing e (mget (fun _ => 0) s.cp.ethRing e - 1) } }
  else s

/-- IC_CLAIM read (R267). -/
def execIcClaim (s : State) : Out :=
  cpRow (aIC + 0xA00) false s <|
  match claimed s with
  | some n =>
    let v : BitVec 10 := BitVec.ofNat 10 n
    .next (readOut (wordOf n) { ringTake n s with ev := { s.ev with
      pend := s.ev.pend.filter (fun x => decide (x ≠ v)), run := v :: s.ev.run, claim := v } })
  | none => .next (readOut 0x3FF { s with ev := { s.ev with claim := 0x3FF } })

/-- IC_COMPLETE write: a source whose condition holds is set pending again (R267). -/
def execIcComplete (src : BitVec 10) (s : State) : Out :=
  cpRow (aIC + 0xA04) true s <|
  let again := (condSources s).contains src.toNat && s.ev.run.contains src
  .next { s with ev := { s.ev with
    run := s.ev.run.erase src, pend := if again then addNew src s.ev.pend else s.ev.pend } }

/-- EQ_POP write. -/
def execEqPop (q : BitVec 1) (v : Word) (s : State) : Out :=
  cpRow (aIC + (if q = 0 then 0xB10 else 0xB30)) true s <|
  .next { s with ev := { s.ev with
    q0 := if fbit v 0 && decide (q = 0) then s.ev.q0.drop 1 else s.ev.q0
    q1 := if fbit v 0 && decide (q = 1) then s.ev.q1.drop 1 else s.ev.q1 } }

/-! ### CP resets (R281, R299, R303) -/

/-- A UART. -/
def ua (s : State) (u : Nat) : UartSt := mget (fun _ => ({} : UartSt)) s.cp.uart u

/-- A UART takes a new state. -/
def uaPut (s : State) (u : Nat) (x : UartSt) : State :=
  { s with cp := { s.cp with uart := mput (fun _ => ({} : UartSt)) s.cp.uart u x } }

/-- A UART through a CP reset: driver off, FIFOs cleared; B and the lines stay. -/
def uartReset (x : UartSt) : UartSt := { lines := x.lines, level := x.level, hold := x.hold, holdBit := x.holdBit }

/-- A CP reset (R281, R396); `cause` is CP_CAUSE. RTS is released, and CP_MSG frames in flight are lost; a slot write is cut short (R343). -/
def cpReset (cause : Nat) (s : State) : State :=
  let s0 := (List.range (nBus s)).foldl (fun a b => (List.range 16).foldl (fun a e => txAbort b e a) a) s
  let s1 := (List.range 2).foldl (fun a u => regPut a (aUART u + 0x1C) (force a (aUART u + 0x1C) &&& ~~~2)) s0
  let msg := fun (p : LinkPayload) => match p with | .cpMsg _ => true | _ => false
  settle { s1 with
    pair := { s1.pair with
      unacked := s1.pair.unacked.filter (fun f => !msg f.payload)
      lowq := s1.pair.lowq.filter (fun j => match j with | .frame p => !msg p | _ => true) }
    cp := { s1.cp with
      down := true, cause := BitVec.ofNat 4 cause, sessions := [], oemStopped := false, oemStops := [], ethRing := []
      uart := mtab (fun _ => ({} : UartSt)) 4 (fun u => uartReset (ua s1 u)) }
    ev := { s1.ev with pend := [], run := [], claim := 0x3FF, q0 := [], q1 := [] }
    mon := { s1.mon with
      snapReq := false, snapBusy := false, writeReq := false, writeBusy := false, held := none, heldProg := none }
    prot := { s1.prot with frozen := s1.prot.frozen &&& ~~~2 }
    pnl := { s1.pnl with queue := s1.pnl.queue.filter (·.taken), start := [] }
    sys := { s1.sys with slotWr := none }
    wd := { s1.wd with cpDeadline := s1.time.cyc + cycMs s1.wd.cpTimeout } }

/-- The CP watchdog has expired, or was served with a wrong key (R303, R306). -/
def cpwdFail (reason : Nat) (s : State) : State :=
  cpReset 1 (containedFault 537 reason (wdCopied { s with wd := { s.wd with nCp := satN 0xFFFF (s.wd.nCp + 1) } }))

/-- CP_WDG (R303). -/
def execCpWdg (s : State) : Out :=
  if s.sys.powered && !s.sys.inReset && s.wd.cpRunning && decide (s.pair.mstate ≠ .sleep) && decide (s.wd.cpDeadline ≤ s.time.cyc) then
    .next (cpwdFail 0x14 s)
  else .next s

/-- CPWD_SERVICE write: the timeout of CPWD_CFG takes effect with it (R303). -/
def execCpwdService (v : Word) (s : State) : Out :=
  cpRow (aWD + 0x44) true s <|
  if v = 0xC35A then
    let t := fld (force s (aWD + 0x40)) 0 16
    .next { s with wd := { s.wd with cpTimeout := t, cpDeadline := s.time.cyc + cycMs t } }
  else .next (cpwdFail 0x15 s)

/-- CP_LOCKSTEP (R284). -/
def execCpLockstep (s : State) : Out := .next (if cpRuns s then cpReset 2 (containedFault 537 0x13 s) else s)

/-- DB_CP_SRAM (R284). -/
def execDbCpSram (s : State) : Out := .next (if cpRuns s then cpReset 3 (containedFault 537 0x12 s) else s)

/-- CP_RESET_REQUEST (R282). -/
def execCpResetRequest (s : State) : Out := .next (if cpRuns s then cpReset 4 s else s)

/-- CP_RESTART: CP_DOWN falls; an OEM partition that fails its check is not entered, with a notice (R280, R281). The 60 s of a probation
run from here, where the new firmware starts (R365). -/
def execCpRestart (s : State) : Out :=
  if s.cp.down then
    .next (settle (oemCheck { s with
      cp := { s.cp with down := false }
      upd := if s.upd.phase = .probation then { s.upd with fatalCyc := s.time.cyc, healthCyc := s.time.cyc } else s.upd }))
  else .next s

/-! ### The OEM partition (R261) -/

/-- OEM_VIOLATION: the partition stops, and a notice is written. -/
def execOemViolation (s : State) : Out :=
  if cpRuns s && s.cp.oemValid && !s.cp.oemStopped then
    let l := s.cp.oemStops.filter (fun t => decide (s.time.cyc < t + cycSec 600)) ++ [s.time.cyc]
    .next (notice 0x0B noSrc 2 0 { s with cp := { s.cp with
      oemStopped := true, oemStops := l, oemStopCyc := s.time.cyc } })
  else .next s

/-- OEM_RESTART: 1 s later, unless this was the third stop within 10 min. -/
def execOemRestart (s : State) : Out :=
  if s.cp.oemStopped && decide (s.cp.oemStops.length < 3) && decide (s.cp.oemStopCyc + cycSec 1 ≤ s.time.cyc) then
    .next { s with cp := { s.cp with oemStopped := false } }
  else .next s

/-! ### Serial ports (R273-R276) -/

/-- A register of UART `u`, as in force. -/
def uartCfg (s : State) (u o : Nat) : Word := force s (aUART u + o)

/-- RADIO is in force: U0 and U1 only. -/
def isRadio (s : State) (u : Nat) : Bool := decide (u < 2) && fbit (uartCfg s u 0) 6

/-- Cycles of one bit. -/
def bitCyc (s : State) (u : Nat) : Nat := 200000000 / max 1 (fld (uartCfg s u 4) 0 18)

/-- Bits of one character: start bit, data bits, parity bit, stop bits. -/
def charBits (s : State) (u : Nat) : Nat :=
  let w := uartCfg s u 0
  1 + (if fbit w 4 then 7 else 8) + (if fld w 2 2 = 0 then 0 else 1) + (if fbit w 5 then 2 else 1)

/-- Cycles of one character. -/
def charCyc (s : State) (u : Nat) : Nat := charBits s u * 200000000 / max 1 (fld (uartCfg s u 4) 0 18)

/-- C of R275, in units of 0.01 ms. -/
def govCap (s : State) (u : Nat) : Int :=
  let w := uartCfg s u 0xC
  1000 * fld w 0 8 * fld w 8 8

/-- The governor is on (R275). -/
def govOn (s : State) (u : Nat) : Bool := decide (fld (uartCfg s u 0xC) 0 8 < 100)

/-- RTS is asserted: as the key line of a radio port, and else as UART_LINES.RTS says; only U0 and U1 have the line (R273-R275). -/
def rtsOn (s : State) (u : Nat) : Bool :=
  decide (u < 2) && (if isRadio s u then (ua s u).keyed else fbit (uartCfg s u 0x1C) 1)

/-- The next character leaves the transmit FIFO and starts at cycle `t`. -/
def charStart (u t : Nat) (s : State) : State :=
  let x := ua s u
  uaPut s u { x with tx := x.tx.drop 1, busy := true, phaseCyc := t }

/-- A port whose transmit FIFO holds data starts: by keying on a radio port, by enabling the driver one bit time before
the start bit on U2 and U3, or at once (R274, R276). -/
def uartStart (u : Nat) (s : State) : State :=
  let x := ua s u
  if x.tx.isEmpty || x.busy || x.keyed || x.hold || !fbit (uartCfg s u 0) 0 || s.cp.down then s
  else if isRadio s u then
    if fbit (uartCfg s u 0) 7 && x.lines.getLsbD 0 then s
    else uaPut s u { x with keyed := true, leading := true, phaseCyc := s.time.cyc }
  else if 2 ≤ u then charStart u (s.time.cyc + bitCyc s u) (uaPut s u { x with keyed := true })
  else charStart u s.time.cyc s

/-- UART_DATA write: a byte that finds 256 in the FIFO is not kept (log 38). -/
def execUartDataWrite (u : BitVec 2) (v : Byte) (s : State) : Out :=
  cpRow (aUART u.toNat + 0x18) true s <|
  let k := u.toNat
  let x := ua s k
  .next (uartStart k (uaPut s k { x with tx := if x.tx.length < 256 then x.tx ++ [v] else x.tx }))

/-- UART_DATA read. -/
def execUartDataRead (u : BitVec 2) (s : State) : Out :=
  cpRow (aUART u.toNat + 0x18) false s <|
  let k := u.toNat
  let x := ua s k
  match x.rx with
  | (b, pe, fe) :: r =>
    .next (readOut (wordOf (b.toNat + 256 + 512 * b2n pe + 1024 * b2n fe)) (uaPut s k { x with rx := r }))
  | [] => .next (readOut 0 s)

/-- LEAD_END: LEAD ms after RTS, and after CTS where CTS_WAIT is set, the first character starts (R274). -/
def execLeadEnd (u : BitVec 2) (s : State) : Out :=
  let k := u.toNat
  let x := ua s k
  if x.leading && decide (x.phaseCyc + cycMs (fld (uartCfg s k 8) 0 8) ≤ s.time.cyc)
      && (!fbit (uartCfg s k 0) 8 || x.lines.getLsbD 1) then
    .next (charStart k s.time.cyc (uaPut s k { x with leading := false }))
  else .next s

/-- The time between the last stop bit and the release: TAIL ms of a radio port, TURN bit times of U2 and U3. -/
def tailCyc (s : State) (u : Nat) : Nat :=
  if u < 2 then cycMs (fld (uartCfg s u 8) 8 8) else fld (uartCfg s u 8) 16 4 * bitCyc s u

/-- TAIL_END: RTS is released, or the driver disabled (R274-R276). -/
def execTailEnd (u : BitVec 2) (s : State) : Out :=
  let k := u.toNat
  let x := ua s k
  if x.tailing && decide (x.phaseCyc + tailCyc s k ≤ s.time.cyc) then
    .next (uartStart k (uaPut s k { x with keyed := false, tailing := false }))
  else .next s

/-- GOV_HOLD: B has reached 0 while the port is keyed (R275). -/
def execGovHold (u : BitVec 2) (s : State) : Out :=
  let k := u.toNat
  let x := ua s k
  if govOn s k && isRadio s k && x.keyed && !x.hold && decide (x.level ≤ 0) then
    let x1 := { x with hold := true, holdBit := true }
    .next (fire (425 + 2 * k) s.time.ns (uaPut s k (if x.leading then
      { x1 with leading := false, tailing := true, phaseCyc := s.time.cyc } else x1)))
  else .next s

/-- GOV_RESUME: B has risen to RESUME, or the governor is off (R275). -/
def execGovResume (u : BitVec 2) (s : State) : Out :=
  let k := u.toNat
  let x := ua s k
  if x.hold && (!govOn s k || decide (((100 * fld (uartCfg s k 0xC) 16 16 : Nat) : Int) ≤ x.level)) then
    .next (uartStart k (uaPut s k { x with hold := false }))
  else .next s

/-- A character arrives (R273, R276): U2 and U3 ignore their own transmission; a full FIFO keeps what it holds (log 38). -/
def execUartRxByte (u : BitVec 2) (v : Byte) (perr ferr : Bool) (s : State) : Out :=
  let k := u.toNat
  let x := ua s k
  if !fbit (uartCfg s k 0) 0 || !cpRuns s || (decide (2 ≤ k) && x.keyed) then .next s
  else
    let rx := if x.rx.length < 256 then x.rx ++ [(v, perr, ferr)] else x.rx
    let s1 := uaPut s k { x with rx := rx, rxErr := x.rxErr || perr || ferr, rxCyc := some s.time.cyc }
    .next (fireIf (decide (128 ≤ rx.length)) (424 + 2 * k) (fireIf (perr || ferr) (425 + 2 * k) s1))

/-- IDLE_GAP: the line has stayed quiet for IDLE half-characters after a character (R276). -/
def execIdleGap (u : BitVec 2) (s : State) : Out :=
  let k := u.toNat
  let x := ua s k
  let i := fld (uartCfg s k 0) 10 4
  match x.rxCyc with
  | some t =>
    if decide (0 < i) && decide (t + i * charCyc s k / 2 ≤ s.time.cyc) then
      .next (fire (424 + 2 * k) s.time.ns (uaPut s k { x with rxCyc := none }))
    else .next s
  | none => .next s

/-- UART_TX_COMPLETE: the last character has ended, of the FIFO or before a governor hold; the tail begins, and the event of a completed
transmission fires where the FIFO is empty (R274-R276). -/
def execUartTxComplete (u : BitVec 2) (s : State) : Out :=
  let k := u.toNat
  let x := ua s k
  if x.busy && (x.tx.isEmpty || x.hold) && decide (x.phaseCyc + charCyc s k ≤ s.time.cyc) then
    .next (fireIf x.tx.isEmpty (425 + 2 * k) (uaPut s k { x with busy := false, tailing := x.keyed, phaseCyc := s.time.cyc }))
  else .next s

/-- MODEM_LINE_CHANGE: DCD, CTS, DSR and RI, bit 0 first; a falling DCD lets a gated port key (R274, R276), and
a rising one may wake the module (R353). -/
def execModemLineChange (u : BitVec 2) (lines : BitVec 4) (s : State) : Out :=
  let k := u.toNat
  let x := ua s k
  if decide (k < 2) && decide (lines ≠ x.lines) && s.sys.powered && decide (s.pair.mstate = .sleep) then
    .next ((if lines.getLsbD 0 && !x.lines.getLsbD 0 then wakePin (2 + k) else id) (uaPut s k { x with lines := lines }))
  else if decide (k < 2) && decide (lines ≠ x.lines) && s.sys.powered then
    .next (uartStart k (fire (425 + 2 * k) s.time.ns (uaPut s k { x with lines := lines })))
  else .next s

/-! ### Ethernet (R270, R271) -/

/-- MAC address of an Ethernet port: two consecutive addresses, fixed at manufacture (R270). -/
def macAddr (s : State) (e : Bool) : BitVec 48 := s.fixed.mac + (if e then 1 else 0)

/-- IPv4 address and mask of an Ethernet port, as the configuration or the factory defaults set them (R271, R341). -/
def ethAddr (s : State) (e : Bool) : Word × Word := if e then (s.cp.eth.ip1, s.cp.eth.mask1) else (s.cp.eth.ip0, s.cp.eth.mask0)

/-- ETHERNET_FRAME: at most 20,000 frames in a second; no more, none with a bad frame check, tagged or longer than 1,518
bytes is accepted. During a CP restart and while its DMA is frozen a port discards frames (R281, R299). -/
def execEthernetFrame (e : Bool) (len : Nat) (tagged fcsOk : Bool) (s : State) : Out :=
  let i := b2n e
  let sec := s.time.cyc / cycSec 1
  let n := if s.cp.ethSec = sec then mget (fun _ => 0) s.cp.ethCount i else 0
  let base := if s.cp.ethSec = sec then s.cp.ethCount else []
  if !ethOn s e || !cpRuns s || frozen s 4 then .next s
  else if !fcsOk then .next (fire (419 + 4 * i) s.time.ns s)
  else if tagged || decide (1518 < len) then .next s
  else if 20000 ≤ n then
    .next (fire (419 + 4 * i) s.time.ns { s with cp := { s.cp with
      ethDiscards := mput (fun _ => 0) s.cp.ethDiscards i (mget (fun _ => 0) s.cp.ethDiscards i + 1) } })
  else
    .next (fire (416 + 4 * i) s.time.ns { s with cp := { s.cp with
      ethRing := mput (fun _ => 0) s.cp.ethRing i (mget (fun _ => 0) s.cp.ethRing i + 1)
      ethSec := sec, ethCount := mput (fun _ => 0) base i (n + 1) } })

/-- The session of an interface takes a new value. -/
def sessPut (s : State) (i : Nat) (x : Option Session) : State :=
  { s with cp := { s.cp with sessions := mput (fun _ => none) s.cp.sessions i x } }

/-- ETHERNET_LINK: disconnection ends a session (R277). -/
def execEthernetLink (e : Bool) (up : Bool) (s : State) : Out :=
  let i := b2n e
  if s.cp.link.getLsbD i = up then .next s
  else
    let m : BitVec 2 := 1#2 <<< i
    let s1 := if up then s else sessPut s i none
    .next (fire (418 + 4 * i) s.time.ns { s1 with cp := { s1.cp with
      link := if up then s.cp.link ||| m else s.cp.link &&& ~~~m } })

/-- USB_VBUS: attachment, and the end of a session (R272, R277); VBUS may wake the module (R353). -/
def execUsbVbus (on : Bool) (s : State) : Out :=
  let s1 := if on then s else sessPut s 2 none
  .next <| (if on && !s.cp.usb then wakePin 4 else id) { s1 with cp := { s1.cp with usb := on } }

/-! ### Service access (R277-R279) -/

/-- The interface can open a session: traffic passes it, and it is not locked. -/
def ifaceOpen (s : State) (i : Nat) : Bool :=
  ifaceLive s i && (mget (fun _ => none) s.cp.tokLock i).isNone

/-- SESSION_OPEN: a fresh nonce is drawn (R277). -/
def execSessionOpen (i : BitVec 2) (s : State) : Out :=
  if ifaceOpen s i.toNat then
    let s1 := sessPut s i.toNat (some {
      nonce := Config.freeNonce (2 * s.cp.nonceGen), roles := 0, scopeKind := 0, until_ := none })
    .next { s1 with cp := { s1.cp with nonceGen := s.cp.nonceGen + 1 } }
  else .next s

/-- A failed check on interface `i`: the fifth within 60 s locks the interface for 300 s, with a notice (R279). -/
def tokenFail (i : Nat) (s : State) : State :=
  let l := (mget (fun _ => []) s.cp.tokFails i).filter (fun t => decide (s.time.cyc < t + cycSec 60)) ++ [s.time.cyc]
  let lock := decide (5 ≤ l.length)
  let s1 := { s with cp := { s.cp with
    tokFails := mput (fun _ => []) s.cp.tokFails i (if lock then [] else l)
    tokLock := if lock then mput (fun _ => none) s.cp.tokLock i (some (s.time.cyc + cycSec 300)) else s.cp.tokLock } }
  noticeIf lock 0x0B noSrc 3 (wordOf i) s1

/-- The token names this module's serial number, or its station group. -/
def tokenScope (s : State) (t : TokenMsg) : Bool :=
  if t.scopeKind = 0 then decide (t.scope = s.fixed.serial)
  else decide (t.scopeKind = 1) && decide (t.scope.truncate 16 = s.sys.stationGroup)

/-- The 28 bytes of a token that its MAC covers (R277, log 94). -/
def tokenBytes (t : TokenMsg) : List Byte :=
  [t.roles, t.scopeKind] ++ byteList 8 t.scope.toNat ++ byteList 16 t.nonce.toNat ++ byteList 2 t.validMin.toNat

/-- The token's MAC verifies. -/
def tokenMac (s : State) (t : TokenMsg) : Bool := macVerifies s (tokenBytes t) t.mac

/-- TOKEN (R277): checked, and its roles held for VALID_MIN minutes. -/
def execToken (i : BitVec 2) (t : TokenMsg) (s : State) : Out :=
  match session s i.toNat with
  | some x =>
    if !ifaceLive s i.toNat then .next s
    else if decide (t.nonce = x.nonce) && tokenScope s t && tokenMac s t && decide (1 ≤ t.validMin.toNat)
        && decide (t.validMin.toNat ≤ 1440) && decide (t.roles.toNat < 16) then
      .next (sessPut s i.toNat (some { x with
        roles := t.roles, scopeKind := t.scopeKind, until_ := some (s.time.cyc + cycSec (60 * t.validMin.toNat)) }))
    else .next (tokenFail i.toNat s)
  | none => .next s

/-- TOKEN_LOCK_END: 300 s later the interface takes sessions again (R279). -/
def execTokenLockEnd (i : BitVec 2) (s : State) : Out :=
  match mget (fun _ => none) s.cp.tokLock i.toNat with
  | some t =>
    if t ≤ s.time.cyc then
      .next { s with cp := { s.cp with tokLock := mput (fun _ => none) s.cp.tokLock i.toNat none } }
    else .next s
  | none => .next s

/-- SESSION_EXPIRY: the roles lapse (R277). -/
def execSessionExpiry (i : BitVec 2) (s : State) : Out :=
  match session s i.toNat with
  | some x =>
    if x.until_.any (fun t => decide (t ≤ s.time.cyc)) then
      .next (sessPut s i.toNat (some { x with roles := 0, until_ := none }))
    else .next s
  | none => .next s

end Sys2Proof.Machine
end

