-- ==== Sys2Proof/Machine/Bittern.lean ====
section
/-! DEFINITION. The Bittern log: samples, stamps, persistence rounds, reading and clearing (13). -/

namespace Sys2Proof.Machine

/-- The logic supply is good and the module lives. -/
def alive (s : State) : Bool := s.sys.powered && !s.sys.inReset && !s.sys.supplyLost

/-- One more in a bin of a histogram. -/
def binAdd (m : SMap Nat) (i : Nat) : SMap Nat := mput (fun _ => 0) m i (satN 0xFFFFFFFF (mget (fun _ => 0) m i + 1))

/-! ### Samples (R325, R369) -/

/-- The logic-supply bin of a voltage in mV. -/
def supplyBin (mv : Nat) : Nat := if mv < 16500 then 0 else min 31 ((mv - 16000) / 500)

/-- The temperature bin of a base-plate reading in °C. -/
def tempBin (t : Int) : Nat := if t < -44 then 0 else min 31 ((t + 48) / 4).toNat

/-- The field-supply bin of a voltage in mV. -/
def fieldBin (mv : Nat) : Nat := if mv < 16000 then 0 else min 15 ((mv - 15000) / 1000)

/-- 2 to the power `i` / 10, in units of 10^-10. -/
def pow10th (i : Nat) : Nat :=
  [10000000000, 10717734625, 11486983550, 12311444133, 13195079108, 14142135624, 15157165665, 16245047927, 17411011266,
    18660659831].getD i 0

/-- What one operating second at the base-plate temperature `t` adds to GRD_LIFE, in units of 10^-10 s: 2^((t - 55) / 10)
seconds (R369, log 39). -/
def lifeStep (t : Int) : Nat :=
  let q := (t - 55) / 10
  let f := pow10th ((t - 55) % 10).toNat
  if 0 ≤ q then f * 2 ^ q.toNat else f / 2 ^ (-q).toNat

/-- The ageing clock takes one second; LIFE is raised as it passes 197,235 h (R369, R379). -/
def lifeTick (t : Int) (s : State) : State :=
  let n := s.grd.lifeFrac + lifeStep t
  let sec := s.grd.lifeSec + n / 10000000000
  let raise := decide (197235 * 3600 < sec) && !s.grd.lifeNoted
  gradNotice raise 14 (wordOf (sec / 3600)) { s with grd := { s.grd with
    lifeSec := sec, lifeFrac := n % 10000000000, lifeNoted := s.grd.lifeNoted || raise } }

/-- What a second's means show of a channel (R161, R325): the measured values, and for an output what the means showed while its own switch
was on: its extremes, and the on-resistance, which is measured from 100 mA on. -/
def chanMeans (s : State) (n : Nat) (m : ChanMeans) : State :=
  let c := ch s n
  let o := isOut s n
  let hiOn := if o then m.onHi else none
  let loOn := if o then m.onLo else none
  let s1 := chPut s n { c with
    measI := BitVec.ofNat 16 m.last, termMv := BitVec.ofNat 16 m.mv
    onRes := if hiOn.any (fun h => decide (100 ≤ h)) && decide (m.res ≠ 0) then BitVec.ofNat 16 m.res else c.onRes }
  let hi := mget (fun _ => 0) s.btn.curMax n
  let lo := mget (fun _ => 0xFFFF) s.btn.curMin n
  { s1 with btn := { s1.btn with
    curMax := match hiOn with | some h => mput (fun _ => 0) s.btn.curMax n (max hi (satN 0xFFFF h)) | none => s.btn.curMax
    curMin := match loOn with | some l => mput (fun _ => 0xFFFF) s.btn.curMin n (min lo (satN 0xFFFF l)) | none => s.btn.curMin } }

/-- What a second's means show of group `g`: its supply, its current, and its channels (R161, R167). -/
def groupMeans (s : State) (g : Nat) (m : GroupMeans) : State :=
  let s1 := grPut s g { gr s g with mv := BitVec.ofNat 16 m.mv, ma := BitVec.ofNat 16 m.ma, peak := BitVec.ofNat 16 m.peak }
  (List.range 8).foldl (fun a i => match m.chans[i]? with | some c => chanMeans a (8 * g + i) c | none => a) s1

/-- LOG_SAMPLE: the lowest 1 ms mean of the logic supply in mV, the base-plate and die temperatures in °C, and what the 1 ms means of
the second show of each group and its channels (R161, R325, R369, log 56). -/
def execLogSample (mv : Nat) (temp die : Int) (field : List GroupMeans) (s : State) : Out :=
  if alive s && decide (s.pair.mstate ≠ .sleep) then
    let gs := (List.range (nGroups s)).filter (fun g => grpConfigured s g)
    let s1 := { s with
      btn := { s.btn with
        supplyHist := binAdd s.btn.supplyHist (supplyBin mv)
        tempHist := binAdd s.btn.tempHist (tempBin temp)
        fieldHist := gs.foldl (fun m g => match field[g]? with
          | some q => binAdd m (16 * g + fieldBin q.mv)
          | none => m) s.btn.fieldHist }
      grd := { s.grd with base := temp, die := die, monthTemp := max s.grd.monthTemp temp } }
    .next (lifeTick temp ((List.range (nGroups s)).foldl (fun a g => match field[g]? with
      | some q => groupMeans a g q
      | none => a) s1))
  else .next s

/-- OPERATING_MINUTE: a minute of good supply has passed; the age of every channel's coefficients follows (R163, R327). -/
def execOperatingMinute (s : State) : Out :=
  if s.sys.powered && !s.sys.supplyLost && decide (s.btn.minCyc + cycSec 60 ≤ s.time.cyc) then
    .next { s with
      btn := { s.btn with opMin := s.btn.opMin + 1, minCyc := s.time.cyc }
      chan := mtab (fun _ => ({} : ChanSt)) (nCh s) (fun n => { ch s n with calAgeMin := (ch s n).calAgeMin + 1 }) }
  else .next s

/-! ### Persistence (R331) -/

/-- A round starts: the records that differ from the store are queued (R331). -/
def roundStart (s : State) : State :=
  let s1 := wdCopied { s with btn := { s.btn with busy := true, again := false } }
  let s2 := if stampsDiffer s1 then nvEnqueue (stampRec s1) s1 else s1
  let s3 := if logHists s ≠ s.btn.savedHist then nvEnqueue (histRec s2) s2 else s2
  s3.btn.dirty.foldl (fun a r => nvEnqueue (noticeRec a r) a) s3

/-- A round may start: the log is restored, and no round is in progress. -/
def roundFree (s : State) : Bool := alive s && s.btn.restored && s.nv.mounted && !s.btn.busy

/-- BITTERN_ROUND: every 10 operating minutes, and after a round during which PERSIST was written (R331). -/
def execBitternRound (s : State) : Out :=
  if roundFree s && (s.btn.again || decide (s.btn.lastRound.toNat + 10 ≤ s.btn.opMin.toNat)) then .next (roundStart s) else .next s

/-- BTN_CTRL.PERSIST write: a round starts, or follows the one in progress (R331). -/
def execPersist (v : Word) (s : State) : Out :=
  cpRow (aBTN) true s <|
  .next (if !fbit v 0 then s
    else if roundFree s then roundStart s
    else { s with btn := { s.btn with again := s.btn.again || s.btn.busy } })

/-! ### Reading (R334, R335) -/

/-- The notice in a slot. -/
def noticeAt (s : State) (r : Nat) : Option Notice := mget (fun _ => none) s.btn.ring r

/-- Word `j` of a notice; an empty slot reads 0. -/
def noticeWord (n : Option Notice) (j : Nat) : Word :=
  match n with
  | none => 0
  | some n =>
    match j with
    | 0 => wordOf (n.kind.toNat + 256 * n.src.toNat + 262144 * n.reason.toNat)
    | 1 => n.detail
    | 2 => wordOf n.rep
    | 3 => n.firstMin
    | 4 => n.firstPc.zeroExtend 32
    | 5 => n.lastMin
    | 6 => n.lastPc.zeroExtend 32
    | _ => n.serial

/-- NOTICE_READ: a read of word 0 loads the latch with words 1 to 7 (R335). -/
def execNoticeRead (r : Byte) (s : State) : Out :=
  cpRow (aBTN + 0x2000 + 32 * r.toNat) false s <|
  let n := noticeAt s r.toNat
  .next (readOut (noticeWord n 0) { s with btn := { s.btn with
    latchSlot := some r.toNat, latch := (List.range 7).map (fun j => noticeWord n (j + 1)) } })

/-! ### Clearing (R336, R337) -/

/-- BTN_NONCE takes a fresh value (log 21). -/
def freshNonce (s : State) : State :=
  { s with btn := { s.btn with nonce := Config.freeNonce (2 * s.btn.nonceGen + 1), nonceGen := s.btn.nonceGen + 1 } }

/-- The log is cleared in a scope at one instant, and the CLEARED notice is written: bit 0 NOTICES, 1 HISTOGRAMS,
2 EXTREMES. -/
def clearLog (scope : Nat) (s : State) : State :=
  let n := decide (scope % 2 = 1)
  let h := decide (scope / 2 % 2 = 1)
  let e := decide (scope / 4 % 2 = 1)
  let b := s.btn
  freshNonce (notice 0x0E noSrc 0 (wordOf scope) { s with btn := { b with
    ring := if n then [] else b.ring
    dirty := if n then b.ring.foldl (fun l p => addNew p.1 l) b.dirty else b.dirty
    scanHist := if h then [] else b.scanHist
    supplyHist := if h then [] else b.supplyHist
    tempHist := if h then [] else b.tempHist
    fieldHist := if h then [] else b.fieldHist
    surgeHist := if h then [] else b.surgeHist
    curMax := if e then [] else b.curMax
    curMin := if e then [] else b.curMin
    tecMax := if e then [] else b.tecMax
    recMax := if e then [] else b.recMax
    busoff := if e then [] else b.busoff
    laneErr := if e then [] else b.laneErr
    laneRetx := if e then [] else b.laneRetx
    clears := satN 0xFFFF (b.clears + 1) } })

/-- BTN_CLEAR write. -/
def execBtnClear (v : Word) (s : State) : Out :=
  cpRow (aBTN + 0x30) true s <|
  .next (if v.extractLsb' 16 16 = cmdKey then clearLog (fld v 0 3) s else s)

/-- The MAC over the 25 bytes of a clear request verifies (R336, log 94). -/
def clearMac (s : State) (r : ClearReq) : Bool :=
  macVerifies s ([r.scope] ++ byteList 8 r.serial.toNat ++ byteList 16 r.nonce.toNat) r.mac

/-- CLEAR_REQUEST: accepted from a session that holds MAINTAIN by a token for the module's serial number. A request whose
serial number, nonce or MAC does not match is refused and counts as a failed token check (R336). -/
def execClearRequest (i : BitVec 2) (r : ClearReq) (s : State) : Out :=
  match session s i.toNat with
  | some x =>
    if !ifaceLive s i.toNat then .next s
    else if r.serial ≠ s.fixed.serial ∨ r.nonce ≠ s.btn.nonce ∨ clearMac s r = false then
      .next (freshNonce (tokenFail i.toNat s))
    else if fbit (x.roles.zeroExtend 32) 3 && decide (x.scopeKind = 0) && decide (r.scope.toNat < 8) then
      .next (clearLog r.scope.toNat s)
    else .next (freshNonce s)
  | none => .next s

end Sys2Proof.Machine
end

