-- ==== Sys2Proof/Machine/Graduation.lean ====
section
/-! DEFINITION. Ageing and the Graduation monitor: the core-voltage loop, the margin horizon, derating and the daily and
monthly measurements (16). -/

namespace Sys2Proof.Machine

/-- The sensors run in every module state except SLEEP (R369). -/
def grdRuns (s : State) : Bool := alive s && decide (s.pair.mstate ≠ .sleep)

/-- The period of sensor `k`, in fabric cycles, has passed since it was last taken; the first time is not held back (R369, log 100). -/
def sensorDue (k sec : Nat) (s : State) : Bool :=
  match mget (fun _ => none) s.grd.taken k with | some t => decide (t + cycSec sec ≤ s.time.cyc) | none => true

/-- Sensor `k` is taken at `t`. -/
def sensorTake (k t : Nat) (s : State) : State :=
  { s with grd := { s.grd with taken := mput (fun _ => none) s.grd.taken k (some t) } }

/-! ### The core-voltage loop and the clock (R370-R374) -/

/-- CODE rises by 1 at once; VCORE_LIMIT is raised as it first reaches 21 in a power cycle (R371, R372, R379). -/
def codeUp (s : State) : State :=
  let n := s.grd.code + 1
  let raise := decide (n = 21) && !s.grd.atLimitSeen
  gradNotice raise 2 (wordOf s.le.mhz) { s with grd := { s.grd with
    code := n, codePend := none, monthCode := max s.grd.monthCode n, atLimitSeen := s.grd.atLimitSeen || raise } }

/-- CODE falls by 1 in the next window. -/
def codeDown (s : State) : State := { s with grd := { s.grd with codePend := some (s.grd.code - 1) } }

/-- The clock takes a new value in the next window; each step fires source 490, and a fall raises CLOCK_STEP. -/
def clockTo (n : Nat) (s : State) : State :=
  let s1 := { s with grd := { s.grd with
    clockPend := some n, monthMhz := if s.grd.monthMhz = 0 ∨ n < s.grd.monthMhz then n else s.grd.monthMhz } }
  if s.grd.clockPend = some n then s
  else if n < s.le.mhz then gradNotice true 3 (wordOf n) s1 else fire 490 s.time.ns s1

/-- The first action of R371 whose condition holds, by the CODE and the clock in force. -/
def grdAct (slack : Nat) (s : State) : State :=
  let c := s.grd.code
  let f := s.le.mhz
  if slack < 8 ∧ c < 21 then codeUp s
  else if slack < 8 ∧ c = 21 ∧ 360 < f then clockTo (f - 5) s
  else if 16 ≤ slack ∧ f < 400 ∧ c ≤ 19 then clockTo (f + 5) s
  else if 16 ≤ slack ∧ s.fixed.codeMin < c then codeDown s
  else s

/-- GRD_EVALUATION: every 10 min of operating time (R371); the CODE of the first one over life is kept (R380), and the highest of the month. -/
def execGrdEvaluation (s : State) : Out :=
  if grdRuns s && decide (s.grd.evalCyc + cycSec 600 ≤ s.time.cyc) then
    let s1 := { s with grd := { s.grd with
      worst := 0xFF, canary := 0, evalCyc := s.time.cyc, firstCode := some (s.grd.firstCode.getD s.grd.code)
      monthCode := max s.grd.monthCode s.grd.code, monthSlack := min s.grd.monthSlack (s.grd.worst) } }
    .next (grdAct (s.grd.worst) s1)
  else .next s

/-- R371 has an action against a slack below LOW that is not already on its way. -/
def grdMayAct (s : State) : Bool :=
  decide (s.grd.code < 21) || (decide (360 < s.le.mhz) && decide (s.grd.clockPend ≠ some (s.le.mhz - 5)))

/-- CANARY_URGENT: a slack below URGENT acts at once, at most once in a tick; below FAIL at code 21 and 360 MHz it is fatal
(R372, R373). -/
def execCanaryUrgent (slack : Byte) (canary : BitVec 4) (s : State) : Out :=
  let n := slack.toNat
  if !grdRuns s then .next s
  else
    let s1 := if n < s.grd.worst then { s with grd := { s.grd with worst := n, canary := canary } } else s
    if n < 2 ∧ s.grd.code = 21 ∧ s.le.mhz = 360 then .next (settle (fatalFault 490 0x25 s1))
    else if n < 4 ∧ s.grd.urgentTick ≠ some s.tick.num ∧ grdMayAct s then
      .next (grdAct n { s1 with grd := { s1.grd with urgentSeen := true, urgentTick := some s.tick.num } })
    else .next s1

/-! ### The margin horizon (R375, R380) -/

/-- M: the margin in steps. -/
def marginOf (code mhz : Nat) : Int := (21 - (code : Int)) + ((mhz : Int) - 360) / 5

/-- The horizon of a line fitted to M over the month records, oldest first: fitted M at the newest month over -slope. -/
def horizonOf (ms : List Int) : Nat :=
  let n : Int := ms.length
  let xs : List (Int × Int) := (List.range ms.length).map (fun (i : Nat) => ((i : Int) + 1, ms.getD i 0))
  let sx := xs.foldl (fun a p => a + p.1) 0
  let sy := xs.foldl (fun a p => a + p.2) 0
  let b := n * xs.foldl (fun a p => a + p.1 * p.2) 0 - sx * sy
  let d := n * xs.foldl (fun a p => a + p.1 * p.1) 0 - sx * sx
  if n < 3 ∨ 0 ≤ b then 4095 else min 4095 ((sy * d + (n * n - sx) * b) / (n * (-b))).toNat

/-- The last `n` elements of a list. -/
def lastN {α : Type} (n : Nat) (l : List α) : List α := l.drop (l.length - n)

/-- The corrections of the last 24 h (GRD_SRAM). -/
def sramPerDay (s : State) : Nat := satN 0xFFFF (s.grd.sramDay.filter (fun c => decide (s.time.cyc < c + cycSec 86400))).length

/-- MONTH_RECORD: every 30 days of operating time (R375, R380). -/
def execMonthRecord (s : State) : Out :=
  if grdRuns s && decide (s.grd.monthMin + 43200 ≤ s.btn.opMin.toNat) then
    let g := s.grd
    let m : Month := {
      code := max g.monthCode g.code
      mhz := if g.monthMhz = 0 then s.le.mhz else min g.monthMhz s.le.mhz
      slack := min g.monthSlack g.worst, temp := g.monthTemp }
    let ms := lastN 24 (g.months ++ [m])
    let h := horizonOf ((lastN 12 ms).map (fun m => marginOf m.code m.mhz))
    .next (gradNotice (decide (h < 24)) 1 (wordOf h) { s with grd := { g with
      months := ms, monthNo := g.monthNo + 1, horizon := h, monthMin := s.btn.opMin.toNat, monthCode := g.code
      monthMhz := s.le.mhz, monthSlack := 0xFF, monthTemp := g.base, trendLife := g.lifeSec / 3600, trendMonths := h
      trendRo := g.ro, trendTcxo := g.tcxo, trendCell := g.cell, trendSram := sramPerDay s } })
  else .next s

/-! ### Derating (R369, R376) -/

/-- On-resistance normalised to 25 °C, R / (1 + 0.006 (T - 25)), as a fraction of numerator and denominator. -/
def normRes (mohm : Nat) (t : Int) : Nat × Nat := (1000 * mohm, (1000 + 6 * (t - 25)).toNat)

/-- The higher of two normalised on-resistances. -/
def resMax (a b : Nat × Nat) : Nat × Nat := if a.1 * b.2 < b.1 * a.2 then b else a

/-- The normalised on-resistance of channel `n` in whole mΩ. -/
def resMohm (s : State) (n : Nat) : Nat := let r := mget (fun _ => (0, 1)) s.grd.chRes n; r.1 / r.2

/-- DERATED of a group for its highest normalised on-resistance: 2,500 mA times the root of 200 mΩ over it, in steps of 10 mA. -/
def derateOf (r : Nat × Nat) : Nat := if r.1 ≤ 200 * r.2 then 2500 else max 1000 (10 * Nat.sqrt (12500000 * r.2 / r.1))

/-- The normalised on-resistance of a channel is taken; above 1,000 mΩ it is marked WORN, with a notice. -/
def derateCh (t : Int) (s : State) (n : Nat) : State :=
  let r := normRes (ch s n).onRes.toNat t
  if isOut s n ∧ (ch s n).onRes ≠ 0 then
    let worn := decide (1000 * r.2 < r.1) && !s.grd.chWorn.contains n
    gradNotice worn 5 (wordOf n) { s with grd := { s.grd with
      chRes := mput (fun _ => (0, 1)) s.grd.chRes n r
      chWorn := if worn then addNew n s.grd.chWorn else s.grd.chWorn } }
  else s

/-- DERATED of a group is recomputed; it only ever falls, and a fall raises DERATE. -/
def derateGrp (s : State) (g : Nat) : State :=
  let rs := ((List.range 8).map (fun i => 8 * g + i)).filterMap (fun n =>
    if isOut s n then some (mget (fun _ => (0, 1)) s.grd.chRes n) else none)
  let d := derateOf (rs.foldl resMax (0, 1))
  let q := gr s g
  gradNotice (decide (d < q.deratedNew)) 4 (wordOf (65536 * g + d)) (grPut s g { q with deratedNew := min q.deratedNew d })

/-- DERATE: once per 24 h, at the base-plate temperature `temp`; the new limits act at the next tick boundary (R376). -/
def execDerate (temp : Int) (s : State) : Out :=
  if grdRuns s && sensorDue 1 86400 s then
    .next ((List.range (nGroups s)).foldl derateGrp ((List.range (nCh s)).foldl (derateCh temp) (sensorTake 1 s.time.cyc s)))
  else .next s

/-! ### Other measurements (R369, R377-R379) -/

/-- REF_DRIFT, once per hour: the drift of a channel's reference in mV; more than 100 mV makes the channel due for calibration (R377). -/
def execRefDrift (n : BitVec 8) (mv : Int) (s : State) : Out :=
  let k := n.toNat
  if grdRuns s && decide (k < nCh s) && sensorDue (8 + k) 3600 s then
    let s0 := sensorTake (8 + k) s.time.cyc s
    let s1 := { s0 with grd := { s0.grd with chDrift := mput (fun _ => 0) s0.grd.chDrift k mv } }
    .next (if 100 < mv.natAbs then chPut s1 k { ch s1 k with calDue := true } else s1)
  else .next s

/-- The valid record of a CLOSED sector that failed under the tightened reference. -/
def weakRec (s : State) (p : Nat × Nat) : Option Rec :=
  if (closedSecs s).contains p.1 ∧ 0 < p.2 then
    ((sec s p.1).slots.getD (p.2 - 1) none).filter (fun r => keyOk r.key && decide (r.len ≤ 20))
  else none

/-- FLASH_MARGIN_READ: once per 30 days, in TEST mode; `weak` lists the sector and slot of each valid record that failed, of which a moved
copy goes into the head, and whose sector is marked worn (R378). -/
def execFlashMarginRead (weak : List (Nat × Nat)) (s : State) : Out :=
  let due := match mget (fun _ => none) s.grd.taken 4 with | some t => decide (t + 43200 ≤ s.btn.opMin.toNat) | none => true
  if grdRuns s && s.nv.mounted && s.nv.test && due then
    let w := weak.filter (fun p => (weakRec s p).isSome)
    let s1 := sensorTake 4 s.btn.opMin.toNat s
    .next ((w.map (·.1)).foldl wornMark { s1 with nv := { s1.nv with moving := s1.nv.moving ++ w.filterMap (weakRec s) } })
  else .next s

/-- CELL_TEST, once per 24 h: the loaded voltage of the backup cell in mV; CELL_LOW below 2,700 mV, or 2,000 mV of a supercapacitor. -/
def execCellTest (mv : BitVec 16) (s : State) : Out :=
  if grdRuns s && sensorDue 2 86400 s then
    let lim := if s.fixed.supercap then 2000 else 2700
    let s1 := sensorTake 2 s.time.cyc s
    .next (gradNotice (decide (mv.toNat < lim)) 11 (mv.zeroExtend 32) { s1 with grd := { s1.grd with cell := mv } })
  else .next s

/-- OVERTEMP: the base plate has stood above 70 °C for 10 s. -/
def execOvertemp (t : Int) (s : State) : Out :=
  if grdRuns s && decide (70 < t) then .next (gradNotice true 13 (BitVec.ofInt 32 t) s) else .next s

/-- RO_MEASURE: once per hour. -/
def execRoMeasure (degr : List (BitVec 16)) (s : State) : Out :=
  if grdRuns s && sensorDue 0 3600 s then
    let s1 := sensorTake 0 s.time.cyc s
    .next { s1 with grd := { s1.grd with ro := mtab (fun _ => (0 : BitVec 16)) 8 (fun i => degr.getD i 0) } }
  else .next s

/-- TCXO_DAILY_MEAN: the mean rate correction in ppb while the PPS loop is LOCKED; TCXO_AGE beyond 1.8 ppm. -/
def execTcxoDailyMean (ppb : Int) (s : State) : Out :=
  if grdRuns s && sensorDue 3 86400 s then
    let s1 := sensorTake 3 s.time.cyc s
    .next (gradNotice (decide (1800 < ppb.natAbs)) 10 (BitVec.ofInt 32 ppb) { s1 with grd := { s1.grd with tcxo := ppb } })
  else .next s

end Sys2Proof.Machine
end

