-- ==== Sys2Proof/Machine/LeBit.lean ====
section
/-! DEFINITION. Bit instructions, rung stack and RLO operations (R54, R56-R63). -/

namespace Sys2Proof.Machine

/-- An instruction that gives RLO a new bit and tag from the old one (R63). -/
def rloEff (s : State) (c : At) (f : Rlo → Rlo) : LaneEff :=
  { effNop c with writes := [.rlo c.lane (f (lane s c.lane.toNat).rlo)] }

/-- PUSH: the stack holds eight entries; a push onto a full stack traps (R62). -/
def pushEff (s : State) (c : At) : LaneEff :=
  let x := lane s c.lane.toNat
  if 8 ≤ x.stack.length then { effNop c with traps := [5] }
  else { effNop c with writes := [.stack c.lane (x.rlo :: x.stack)] }

/-- A pop: `f` gives the new RLO from the top entry and RLO; a pop from an empty stack traps (R62). -/
def popEff (s : State) (c : At) (f : Rlo → Rlo → Rlo) : LaneEff :=
  let x := lane s c.lane.toNat
  match x.stack with
  | [] => { effNop c with traps := [5] }
  | t :: r => { effNop c with writes := [.stack c.lane r, .rlo c.lane (f t x.rlo)] }

/-- NOP: does nothing and costs 1 cycle (R54). -/
def execLeNop (c : At) (s : State) : Out :=
  .next (leIssue c (effNop c) s)

/-- LD, LDN: RLO takes the addressed bit with the tag of its word (R57, R60). -/
def execLeLd (c : At) (n st : Bool) (w : BitVec 21) (b : BitVec 6) (s : State) : Out :=
  .next (leIssue c (bitLoad s c n st w b (fun _ v t => ⟨v, t⟩)) s)

/-- AND, ANDN: RLO AND the bit, tag comb(RLO, word) (R57, R60). -/
def execLeAnd (c : At) (n st : Bool) (w : BitVec 21) (b : BitVec 6) (s : State) : Out :=
  .next (leIssue c (bitLoad s c n st w b (fun r v t => ⟨r.bit && v, tag2 r.tag t⟩)) s)

/-- OR, ORN: RLO OR the bit, tag comb(RLO, word) (R57, R60). -/
def execLeOr (c : At) (n st : Bool) (w : BitVec 21) (b : BitVec 6) (s : State) : Out :=
  .next (leIssue c (bitLoad s c n st w b (fun r v t => ⟨r.bit || v, tag2 r.tag t⟩)) s)

/-- XOR, XORN: RLO XOR the bit, tag comb(RLO, word) (R57, R60). -/
def execLeXor (c : At) (n st : Bool) (w : BitVec 21) (b : BitVec 6) (s : State) : Out :=
  .next (leIssue c (bitLoad s c n st w b (fun r v t => ⟨r.bit != v, tag2 r.tag t⟩)) s)

/-- ST, STN: the bit takes RLO, or its inverse; the word takes the RLO tag (R57, R61). -/
def execLeSt (c : At) (n st : Bool) (w : BitVec 21) (b : BitVec 6) (s : State) : Out :=
  .next (leIssue c (bitStore s c st true ((lane s c.lane.toNat).rlo.bit != n) w b) s)

/-- SET: if RLO = 1 the bit becomes 1 (R57, R61). -/
def execLeSet (c : At) (st : Bool) (w : BitVec 21) (b : BitVec 6) (s : State) : Out :=
  .next (leIssue c (bitStore s c st (lane s c.lane.toNat).rlo.bit true w b) s)

/-- RST: if RLO = 1 the bit becomes 0 (R57, R61). -/
def execLeRst (c : At) (st : Bool) (w : BitVec 21) (b : BitVec 6) (s : State) : Out :=
  .next (leIssue c (bitStore s c st (lane s c.lane.toNat).rlo.bit false w b) s)

/-- TRGR, rising trigger (R59, R61). -/
def execLeTrgr (c : At) (st : Bool) (w : BitVec 21) (b : BitVec 6) (s : State) : Out :=
  .next (leIssue c (bitTrigger s c st true w b) s)

/-- TRGF, falling trigger (R59, R61). -/
def execLeTrgf (c : At) (st : Bool) (w : BitVec 21) (b : BitVec 6) (s : State) : Out :=
  .next (leIssue c (bitTrigger s c st false w b) s)

/-- PUSH: RLO with its tag onto the rung stack (R62). -/
def execLePush (c : At) (s : State) : Out :=
  .next (leIssue c (pushEff s c) s)

/-- POP: RLO takes the top entry (R62). -/
def execLePop (c : At) (s : State) : Out :=
  .next (leIssue c (popEff s c (fun t _ => t)) s)

/-- POPAND: top AND RLO, tag comb(top, RLO) (R62). -/
def execLePopand (c : At) (s : State) : Out :=
  .next (leIssue c (popEff s c (fun t r => ⟨t.bit && r.bit, tag2 t.tag r.tag⟩)) s)

/-- POPOR: top OR RLO, tag comb(top, RLO) (R62). -/
def execLePopor (c : At) (s : State) : Out :=
  .next (leIssue c (popEff s c (fun t r => ⟨t.bit || r.bit, tag2 t.tag r.tag⟩)) s)

/-- POPXOR: top XOR RLO, tag comb(top, RLO) (R62). -/
def execLePopxor (c : At) (s : State) : Out :=
  .next (leIssue c (popEff s c (fun t r => ⟨t.bit != r.bit, tag2 t.tag r.tag⟩)) s)

/-- NOT: RLO inverted, tag unchanged (R63). -/
def execLeNot (c : At) (s : State) : Out :=
  .next (leIssue c (rloEff s c (fun r => ⟨!r.bit, r.tag⟩)) s)

/-- ONE: RLO becomes 1 with tag GOOD (R63). -/
def execLeOne (c : At) (s : State) : Out :=
  .next (leIssue c (rloEff s c (fun _ => ⟨true, tagGOOD⟩)) s)

/-- ZERO: RLO becomes 0 with tag GOOD (R63). -/
def execLeZero (c : At) (s : State) : Out :=
  .next (leIssue c (rloEff s c (fun _ => ⟨false, tagGOOD⟩)) s)

/-- QGOOD: RLO says whether its tag is of class good (R63). -/
def execLeQgood (c : At) (s : State) : Out :=
  .next (leIssue c (rloEff s c (fun r => ⟨decide (tagClass r.tag = 0), tagGOOD⟩)) s)

/-- QUSE: RLO says whether its tag is of class good or uncertain (R63). -/
def execLeQuse (c : At) (s : State) : Out :=
  .next (leIssue c (rloEff s c (fun r => ⟨decide (tagClass r.tag ≤ 1), tagGOOD⟩)) s)

/-- QSUB: SUBSTITUTED if the tag was not of class good (R63). -/
def execLeQsub (c : At) (s : State) : Out :=
  .next (leIssue c (rloEff s c (fun r => ⟨r.bit, if tagClass r.tag = 0 then r.tag else tagSUBST⟩)) s)

/-- An illegal instruction: trap ILLEGAL, and the scan aborts (R54, R86). -/
def execIllegalInstruction (c : At) (s : State) : Out :=
  .next (leIssue c (effIllegal c) s)

end Sys2Proof.Machine
end

