-- ==== Sys2Proof/Machine/LeWord.lean ====
section
/-! DEFINITION. Word instructions: move, integer, floating, logic, conversion and compare groups (R66-R71). -/

namespace Sys2Proof.Machine

/-- MOV LD: A takes op, value and tag (R68). -/
def execLeMovLd (c : At) (a : BitVec 3) (m : BitVec 2) (w : BitVec 21) (s : State) : Out :=
  .next (leIssue c (wLoad s c m w 1 (fun _ v => [wrAcc c a v])) s)

/-- The lane's accumulator that the instruction names. -/
def accA (s : State) (c : At) (a : BitVec 3) : DWord := accOf (lane s c.lane.toNat) a.toNat

/-- MOV ST: op takes A, value and tag (R68). -/
def execLeMovSt (c : At) (a : BitVec 3) (m : BitVec 2) (w : BitVec 21) (s : State) : Out :=
  .next (leIssue c (wStore s c m w 0xFFFFFFFF (accA s c a).val (accA s c a).tag) s)

/-- MOV CLR: op becomes 0 with tag GOOD (R68). -/
def execLeClr (c : At) (_a : BitVec 3) (m : BitVec 2) (w : BitVec 21) (s : State) : Out :=
  .next (leIssue c (wStore s c m w 0xFFFFFFFF 0 tagGOOD) s)

/-- ADD: A + op, wrapped (R68, R70). -/
def execLeAdd (c : At) (a : BitVec 3) (m : BitVec 2) (w : BitVec 21) (s : State) : Out :=
  .next (leIssue c (wArith s c a m w 1 tag2 iAdd) s)

/-- SUB: A - op, wrapped (R68, R70). -/
def execLeSub (c : At) (a : BitVec 3) (m : BitVec 2) (w : BitVec 21) (s : State) : Out :=
  .next (leIssue c (wArith s c a m w 1 tag2 iSub) s)

/-- RSB: op - A, wrapped (R68, R70). -/
def execLeRsb (c : At) (a : BitVec 3) (m : BitVec 2) (w : BitVec 21) (s : State) : Out :=
  .next (leIssue c (wArith s c a m w 1 tag2 iRsb) s)

/-- MUL: low 32 bits of the product (R68). -/
def execLeMul (c : At) (a : BitVec 3) (m : BitVec 2) (w : BitVec 21) (s : State) : Out :=
  .next (leIssue c (wArith s c a m w 2 tag2 iMul) s)

/-- DIV: signed quotient truncated towards zero (R68, R70). -/
def execLeDiv (c : At) (a : BitVec 3) (m : BitVec 2) (w : BitVec 21) (s : State) : Out :=
  .next (leIssue c (wArith s c a m w 12 tag2 iDiv) s)

/-- MOD: remainder of DIV (R68, R70). -/
def execLeMod (c : At) (a : BitVec 3) (m : BitVec 2) (w : BitVec 21) (s : State) : Out :=
  .next (leIssue c (wArith s c a m w 12 tag2 iMod) s)

/-- ADDS: A + op, saturating (R68, R70). -/
def execLeAdds (c : At) (a : BitVec 3) (m : BitVec 2) (w : BitVec 21) (s : State) : Out :=
  .next (leIssue c (wArith s c a m w 1 tag2 iAdds) s)

/-- SUBS: A - op, saturating (R68, R70). -/
def execLeSubs (c : At) (a : BitVec 3) (m : BitVec 2) (w : BitVec 21) (s : State) : Out :=
  .next (leIssue c (wArith s c a m w 1 tag2 iSubs) s)

/-- MIN: signed minimum (R68). -/
def execLeMin (c : At) (a : BitVec 3) (m : BitVec 2) (w : BitVec 21) (s : State) : Out :=
  .next (leIssue c (wArith s c a m w 1 tag2 iMin) s)

/-- MAX: signed maximum (R68). -/
def execLeMax (c : At) (a : BitVec 3) (m : BitVec 2) (w : BitVec 21) (s : State) : Out :=
  .next (leIssue c (wArith s c a m w 1 tag2 iMax) s)

/-- ABS: magnitude of op, saturating (R68, R70). -/
def execLeAbs (c : At) (a : BitVec 3) (m : BitVec 2) (w : BitVec 21) (s : State) : Out :=
  .next (leIssue c (wArith s c a m w 1 tagOp (fun _ v => iAbs v)) s)

/-- NEG: op negated, saturating (R68, R70). -/
def execLeNeg (c : At) (a : BitVec 3) (m : BitVec 2) (w : BitVec 21) (s : State) : Out :=
  .next (leIssue c (wArith s c a m w 1 tagOp (fun _ v => iNeg v)) s)

/-- MULH: high 32 bits of the signed product (R68). -/
def execLeMulh (c : At) (a : BitVec 3) (m : BitVec 2) (w : BitVec 21) (s : State) : Out :=
  .next (leIssue c (wArith s c a m w 2 tag2 iMulh) s)

/-- DIVU: unsigned quotient (R68, R70). -/
def execLeDivu (c : At) (a : BitVec 3) (m : BitVec 2) (w : BitVec 21) (s : State) : Out :=
  .next (leIssue c (wArith s c a m w 12 tag2 iDivu) s)

/-- MODU: remainder of DIVU (R68, R70). -/
def execLeModu (c : At) (a : BitVec 3) (m : BitVec 2) (w : BitVec 21) (s : State) : Out :=
  .next (leIssue c (wArith s c a m w 12 tag2 iModu) s)

/-- FADD (R68, R71). -/
def execLeFadd (c : At) (a : BitVec 3) (m : BitVec 2) (w : BitVec 21) (s : State) : Out :=
  .next (leIssue c (wArith s c a m w 3 tag2 fAdd) s)

/-- FSUB (R68, R71). -/
def execLeFsub (c : At) (a : BitVec 3) (m : BitVec 2) (w : BitVec 21) (s : State) : Out :=
  .next (leIssue c (wArith s c a m w 3 tag2 fSub) s)

/-- FMUL (R68, R71). -/
def execLeFmul (c : At) (a : BitVec 3) (m : BitVec 2) (w : BitVec 21) (s : State) : Out :=
  .next (leIssue c (wArith s c a m w 3 tag2 fMul) s)

/-- FDIV (R68, R71). -/
def execLeFdiv (c : At) (a : BitVec 3) (m : BitVec 2) (w : BitVec 21) (s : State) : Out :=
  .next (leIssue c (wArith s c a m w 14 tag2 fDiv) s)

/-- FMIN (R68, R71). -/
def execLeFmin (c : At) (a : BitVec 3) (m : BitVec 2) (w : BitVec 21) (s : State) : Out :=
  .next (leIssue c (wArith s c a m w 1 tag2 fMin) s)

/-- FMAX (R68, R71). -/
def execLeFmax (c : At) (a : BitVec 3) (m : BitVec 2) (w : BitVec 21) (s : State) : Out :=
  .next (leIssue c (wArith s c a m w 1 tag2 fMax) s)

/-- FABS of op (R68, R71). -/
def execLeFabs (c : At) (a : BitVec 3) (m : BitVec 2) (w : BitVec 21) (s : State) : Out :=
  .next (leIssue c (wArith s c a m w 1 tagOp (fun _ v => fAbs v)) s)

/-- FNEG of op (R68, R71). -/
def execLeFneg (c : At) (a : BitVec 3) (m : BitVec 2) (w : BitVec 21) (s : State) : Out :=
  .next (leIssue c (wArith s c a m w 1 tagOp (fun _ v => fNeg v)) s)

/-- LOG AND (R68). -/
def execLeLogAnd (c : At) (a : BitVec 3) (m : BitVec 2) (w : BitVec 21) (s : State) : Out :=
  .next (leIssue c (wArith s c a m w 1 tag2 (fun x v => (x &&& v, 0))) s)

/-- LOG OR (R68). -/
def execLeLogOr (c : At) (a : BitVec 3) (m : BitVec 2) (w : BitVec 21) (s : State) : Out :=
  .next (leIssue c (wArith s c a m w 1 tag2 (fun x v => (x ||| v, 0))) s)

/-- LOG XOR (R68). -/
def execLeLogXor (c : At) (a : BitVec 3) (m : BitVec 2) (w : BitVec 21) (s : State) : Out :=
  .next (leIssue c (wArith s c a m w 1 tag2 (fun x v => (x ^^^ v, 0))) s)

/-- LOG ANDN: A AND NOT op (R68). -/
def execLeLogAndn (c : At) (a : BitVec 3) (m : BitVec 2) (w : BitVec 21) (s : State) : Out :=
  .next (leIssue c (wArith s c a m w 1 tag2 (fun x v => (x &&& ~~~v, 0))) s)

/-- LOG NOT of op (R68). -/
def execLeLogNot (c : At) (a : BitVec 3) (m : BitVec 2) (w : BitVec 21) (s : State) : Out :=
  .next (leIssue c (wArith s c a m w 1 tagOp (fun _ v => (~~~v, 0))) s)

/-- SHL by op[4:0] (R68). -/
def execLeShl (c : At) (a : BitVec 3) (m : BitVec 2) (w : BitVec 21) (s : State) : Out :=
  .next (leIssue c (wArith s c a m w 1 tag2 (fun x v => (lShl x v, 0))) s)

/-- SHR, logical, by op[4:0] (R68). -/
def execLeShr (c : At) (a : BitVec 3) (m : BitVec 2) (w : BitVec 21) (s : State) : Out :=
  .next (leIssue c (wArith s c a m w 1 tag2 (fun x v => (lShr x v, 0))) s)

/-- SAR, arithmetic, by op[4:0] (R68). -/
def execLeSar (c : At) (a : BitVec 3) (m : BitVec 2) (w : BitVec 21) (s : State) : Out :=
  .next (leIssue c (wArith s c a m w 1 tag2 (fun x v => (lSar x v, 0))) s)

/-- ROL by op[4:0] (R68). -/
def execLeRol (c : At) (a : BitVec 3) (m : BitVec 2) (w : BitVec 21) (s : State) : Out :=
  .next (leIssue c (wArith s c a m w 1 tag2 (fun x v => (lRol x v, 0))) s)

/-- ROR by op[4:0] (R68). -/
def execLeRor (c : At) (a : BitVec 3) (m : BitVec 2) (w : BitVec 21) (s : State) : Out :=
  .next (leIssue c (wArith s c a m w 1 tag2 (fun x v => (lRor x v, 0))) s)

/-- ITOF: signed integer to binary32 (R68, R71). -/
def execLeItof (c : At) (a : BitVec 3) (m : BitVec 2) (w : BitVec 21) (s : State) : Out :=
  .next (leIssue c (wArith s c a m w 1 tagOp (fun _ v => iToF v)) s)

/-- FTOI: rounded to nearest, ties to even (R68, R71). -/
def execLeFtoi (c : At) (a : BitVec 3) (m : BitVec 2) (w : BitVec 21) (s : State) : Out :=
  .next (leIssue c (wArith s c a m w 1 tagOp (fun _ v => fToI true v)) s)

/-- FTOIZ: rounded towards zero (R68, R71). -/
def execLeFtoiz (c : At) (a : BitVec 3) (m : BitVec 2) (w : BitVec 21) (s : State) : Out :=
  .next (leIssue c (wArith s c a m w 1 tagOp (fun _ v => fToI false v)) s)

/-- SX8 of op (R68). -/
def execLeSx8 (c : At) (a : BitVec 3) (m : BitVec 2) (w : BitVec 21) (s : State) : Out :=
  .next (leIssue c (wArith s c a m w 1 tagOp (fun _ v => (sx8 v, 0))) s)

/-- SX16 of op (R68). -/
def execLeSx16 (c : At) (a : BitVec 3) (m : BitVec 2) (w : BitVec 21) (s : State) : Out :=
  .next (leIssue c (wArith s c a m w 1 tagOp (fun _ v => (sx16 v, 0))) s)

/-- ZX8 of op (R68). -/
def execLeZx8 (c : At) (a : BitVec 3) (m : BitVec 2) (w : BitVec 21) (s : State) : Out :=
  .next (leIssue c (wArith s c a m w 1 tagOp (fun _ v => (zx8 v, 0))) s)

/-- ZX16 of op (R68). -/
def execLeZx16 (c : At) (a : BitVec 3) (m : BitVec 2) (w : BitVec 21) (s : State) : Out :=
  .next (leIssue c (wArith s c a m w 1 tagOp (fun _ v => (zx16 v, 0))) s)

/-- BCDI: 8-digit BCD to integer (R68, R70). -/
def execLeBcdi (c : At) (a : BitVec 3) (m : BitVec 2) (w : BitVec 21) (s : State) : Out :=
  .next (leIssue c (wArith s c a m w 1 tagOp (fun _ v => bcdi v)) s)

/-- IBCD: integer to 8-digit BCD (R68, R70). -/
def execLeIbcd (c : At) (a : BitVec 3) (m : BitVec 2) (w : BitVec 21) (s : State) : Out :=
  .next (leIssue c (wArith s c a m w 1 tagOp (fun _ v => ibcd v)) s)

/-- BSWAP: byte order of op reversed (R68). -/
def execLeBswap (c : At) (a : BitVec 3) (m : BitVec 2) (w : BitVec 21) (s : State) : Out :=
  .next (leIssue c (wArith s c a m w 1 tagOp (fun _ v => (bswap v, 0))) s)

/-- EQ: RLO says whether A is equal, against op (R69). -/
def execLeEq (c : At) (a : BitVec 3) (m : BitVec 2) (w : BitVec 21) (s : State) : Out :=
  .next (leIssue c (wCmp s c a m w (fun x v => (decide (x = v), 0))) s)

/-- NE: RLO says whether A is not equal, against op (R69). -/
def execLeNe (c : At) (a : BitVec 3) (m : BitVec 2) (w : BitVec 21) (s : State) : Out :=
  .next (leIssue c (wCmp s c a m w (fun x v => (decide (x ≠ v), 0))) s)

/-- LT: RLO says whether A is signed less than, against op (R69). -/
def execLeLt (c : At) (a : BitVec 3) (m : BitVec 2) (w : BitVec 21) (s : State) : Out :=
  .next (leIssue c (wCmp s c a m w (fun x v => (decide (x.toInt < v.toInt), 0))) s)

/-- LE: RLO says whether A is signed less or equal, against op (R69). -/
def execLeLe (c : At) (a : BitVec 3) (m : BitVec 2) (w : BitVec 21) (s : State) : Out :=
  .next (leIssue c (wCmp s c a m w (fun x v => (decide (x.toInt ≤ v.toInt), 0))) s)

/-- GT: RLO says whether A is signed greater than, against op (R69). -/
def execLeGt (c : At) (a : BitVec 3) (m : BitVec 2) (w : BitVec 21) (s : State) : Out :=
  .next (leIssue c (wCmp s c a m w (fun x v => (decide (v.toInt < x.toInt), 0))) s)

/-- GE: RLO says whether A is signed greater or equal, against op (R69). -/
def execLeGe (c : At) (a : BitVec 3) (m : BitVec 2) (w : BitVec 21) (s : State) : Out :=
  .next (leIssue c (wCmp s c a m w (fun x v => (decide (v.toInt ≤ x.toInt), 0))) s)

/-- LTU: RLO says whether A is unsigned less than, against op (R69). -/
def execLeLtu (c : At) (a : BitVec 3) (m : BitVec 2) (w : BitVec 21) (s : State) : Out :=
  .next (leIssue c (wCmp s c a m w (fun x v => (decide (x.toNat < v.toNat), 0))) s)

/-- GEU: RLO says whether A is unsigned greater or equal, against op (R69). -/
def execLeGeu (c : At) (a : BitVec 3) (m : BitVec 2) (w : BitVec 21) (s : State) : Out :=
  .next (leIssue c (wCmp s c a m w (fun x v => (decide (v.toNat ≤ x.toNat), 0))) s)

/-- FEQ: RLO says whether A is floating equal, against op (R69). -/
def execLeFeq (c : At) (a : BitVec 3) (m : BitVec 2) (w : BitVec 21) (s : State) : Out :=
  .next (leIssue c (wCmp s c a m w fEq) s)

/-- FNE: RLO says whether A is floating not equal, against op (R69). -/
def execLeFne (c : At) (a : BitVec 3) (m : BitVec 2) (w : BitVec 21) (s : State) : Out :=
  .next (leIssue c (wCmp s c a m w fNe) s)

/-- FLT: RLO says whether A is floating less than, against op (R69). -/
def execLeFlt (c : At) (a : BitVec 3) (m : BitVec 2) (w : BitVec 21) (s : State) : Out :=
  .next (leIssue c (wCmp s c a m w fLt) s)

/-- FLE: RLO says whether A is floating less or equal, against op (R69). -/
def execLeFle (c : At) (a : BitVec 3) (m : BitVec 2) (w : BitVec 21) (s : State) : Out :=
  .next (leIssue c (wCmp s c a m w fLe) s)

/-- FGT: RLO says whether A is floating greater than, against op (R69). -/
def execLeFgt (c : At) (a : BitVec 3) (m : BitVec 2) (w : BitVec 21) (s : State) : Out :=
  .next (leIssue c (wCmp s c a m w fGt) s)

/-- FGE: RLO says whether A is floating greater or equal, against op (R69). -/
def execLeFge (c : At) (a : BitVec 3) (m : BitVec 2) (w : BitVec 21) (s : State) : Out :=
  .next (leIssue c (wCmp s c a m w fGe) s)

/-- FUN: RLO says whether A is unordered, against op (R69). -/
def execLeFun (c : At) (a : BitVec 3) (m : BitVec 2) (w : BitVec 21) (s : State) : Out :=
  .next (leIssue c (wCmp s c a m w fUn) s)

end Sys2Proof.Machine
end

