-- ==== Sys2Proof/Machine/LeCtrl.lean ====
section
/-! DEFINITION. Control instructions (R52, R80-R82, R89). -/

namespace Sys2Proof.Machine

/-- The condition of a control instruction (R80); `none` for a reserved code. -/
def condHolds (s : State) (c : At) (cond : BitVec 4) (a : BitVec 3) : Option Bool :=
  let r := (lane s c.lane.toNat).rlo
  let v := (accA s c a).val
  match cond.toNat with
  | 0 => some true
  | 1 => some r.bit
  | 2 => some !r.bit
  | 3 => some (r.bit && decide (tagClass r.tag = 0))
  | 4 => some (decide (tagClass r.tag ≠ 0))
  | 5 => some (decide (v = 0))
  | 6 => some (decide (v ≠ 0))
  | 7 => some (decide (v.toInt < 0))
  | 8 => some (decide (0 < v.toInt))
  | _ => none

/-- A control instruction: `taken` is its effect where the condition holds; otherwise the next bundle follows. A reserved
condition code is illegal (R54). -/
def ctrlEff (s : State) (c : At) (cond : BitVec 4) (a : BitVec 3) (taken : LaneEff) : LaneEff :=
  match condHolds s c cond a with
  | none => effIllegal c
  | some true => taken
  | some false => { effNop c with ctrl := some .next }

/-- CALL with 16 entries stacked traps (R82). -/
def callEff (s : State) (c : At) (t : BitVec 18) (slot : BitVec 2) : LaneEff :=
  if 16 ≤ s.le.callStack.length then { effNop c with ctrl := some .next, traps := [6] }
  else { effNop c with ctrl := some (.call t slot s.le.poolbase), cycles := 3 }

/-- RET with an empty call stack traps (R82). -/
def retEff (s : State) (c : At) : LaneEff :=
  if s.le.callStack.length = 0 then { effNop c with ctrl := some .next, traps := [6] }
  else { effNop c with ctrl := some .ret, cycles := 2 }

/-- LOOP where its condition holds: A7 + 1, and the jump if that is below the bound (R81). -/
def loopEff (s : State) (c : At) (a : BitVec 3) (t : BitVec 18) (slot : BitVec 2) : LaneEff :=
  let a7 := accA s c 7
  let v := a7.val + 1
  let go := decide (v.toInt < (accA s c a).val.toInt)
  { effNop c with ctrl := some (.loop c.lane ⟨v, a7.tag⟩ go t slot), cycles := if go then 2 else 1 }

/-- JMP (R81). -/
def execLeJmp (c : At) (cond : BitVec 4) (a : BitVec 3) (t : BitVec 18) (slot : BitVec 2) (s : State) : Out :=
  .next (leIssue c (effCtl (ctrlEff s c cond a { effNop c with ctrl := some (.jump t slot), cycles := 2 })) s)

/-- CALL (R81, R82). -/
def execLeCall (c : At) (cond : BitVec 4) (a : BitVec 3) (t : BitVec 18) (slot : BitVec 2) (s : State) : Out :=
  .next (leIssue c (effCtl (ctrlEff s c cond a (callEff s c t slot))) s)

/-- RET (R81, R82). -/
def execLeRet (c : At) (cond : BitVec 4) (a : BitVec 3) (s : State) : Out :=
  .next (leIssue c (effCtl (ctrlEff s c cond a (retEff s c))) s)

/-- LOOP; an accumulator selector that names A7 is illegal (R81). -/
def execLeLoop (c : At) (cond : BitVec 4) (a : BitVec 3) (t : BitVec 18) (slot : BitVec 2) (s : State) : Out :=
  .next (leIssue c (effCtl (if a = 7 then effIllegal c else ctrlEff s c cond a (loopEff s c a t slot))) s)

/-- ENDS: the scan ends when the bundle retires (R81). -/
def execLeEnds (c : At) (cond : BitVec 4) (a : BitVec 3) (s : State) : Out :=
  .next (leIssue c (effCtl (ctrlEff s c cond a { effNop c with ctrl := some .ends })) s)

end Sys2Proof.Machine
end

