-- ==== Sys2Proof/Machine/LeImm.lean ====
section
/-! DEFINITION. Immediate instructions (R73). -/

namespace Sys2Proof.Machine

/-- An immediate instruction on A: `f` gives the new value, which keeps A's tag. -/
def immEff (s : State) (c : At) (a : BitVec 3) (cyc : Nat) (f : Word → Word) : LaneEff :=
  { effNop c with cycles := cyc, writes := [wrAcc c a ⟨f (accA s c a).val, (accA s c a).tag⟩] }

/-- An immediate compare: RLO takes the relation with A's tag. -/
def immCmp (s : State) (c : At) (a : BitVec 3) (f : Word → Bool) : LaneEff :=
  { effNop c with writes := [wrRlo c (f (accA s c a).val) (accA s c a).tag] }

/-- An immediate shift: bits [22:5] of k must be zero. -/
def immShift (s : State) (c : At) (a : BitVec 3) (k : BitVec 23) (f : Word → Nat → Word) : LaneEff :=
  if 32 ≤ k.toNat then effIllegal c else immEff s c a 1 (fun x => f x k.toNat)

/-- The immediate sign-extended. -/
def sxk (k : BitVec 23) : Word := k.signExtend 32
/-- The immediate zero-extended. -/
def zxk (k : BitVec 23) : Word := k.zeroExtend 32

/-- LDI: A := sx(k) with tag GOOD (R73). -/
def execLeLdi (c : At) (a : BitVec 3) (k : BitVec 23) (s : State) : Out :=
  .next (leIssue c ({ effNop c with writes := [wrAcc c a ⟨sxk k, tagGOOD⟩] }) s)

/-- LDIH: A[31:23] := k[8:0]; k[22:9] must be zero (R73). DESIGN CHOICE (log 81): it counts as writing bits 31 to 23 only (R51). -/
def execLeLdih (c : At) (a : BitVec 3) (k : BitVec 23) (s : State) : Out :=
  .next (leIssue c (if 512 ≤ k.toNat then effIllegal c
    else { effNop c with writes := [.acc c.lane a 0xFF800000 (zxk k <<< 23) (accA s c a).tag] }) s)

/-- ADDI: A := A + sx(k) (R73). -/
def execLeAddi (c : At) (a : BitVec 3) (k : BitVec 23) (s : State) : Out :=
  .next (leIssue c (immEff s c a 1 (fun x => (iAdd x (sxk k)).1)) s)

/-- MULI: A := low 32 bits of A × sx(k) (R73). -/
def execLeMuli (c : At) (a : BitVec 3) (k : BitVec 23) (s : State) : Out :=
  .next (leIssue c (immEff s c a 2 (fun x => (iMul x (sxk k)).1)) s)

/-- ANDI: A := A AND sx(k) (R73). -/
def execLeAndi (c : At) (a : BitVec 3) (k : BitVec 23) (s : State) : Out :=
  .next (leIssue c (immEff s c a 1 (fun x => x &&& sxk k)) s)

/-- ORI: A := A OR zx(k) (R73). -/
def execLeOri (c : At) (a : BitVec 3) (k : BitVec 23) (s : State) : Out :=
  .next (leIssue c (immEff s c a 1 (fun x => x ||| zxk k)) s)

/-- XORI: A := A XOR zx(k) (R73). -/
def execLeXori (c : At) (a : BitVec 3) (k : BitVec 23) (s : State) : Out :=
  .next (leIssue c (immEff s c a 1 (fun x => x ^^^ zxk k)) s)

/-- MINI: A := signed minimum of A and sx(k) (R73). -/
def execLeMini (c : At) (a : BitVec 3) (k : BitVec 23) (s : State) : Out :=
  .next (leIssue c (immEff s c a 1 (fun x => (iMin x (sxk k)).1)) s)

/-- MAXI: A := signed maximum of A and sx(k) (R73). -/
def execLeMaxi (c : At) (a : BitVec 3) (k : BitVec 23) (s : State) : Out :=
  .next (leIssue c (immEff s c a 1 (fun x => (iMax x (sxk k)).1)) s)

/-- SHLI: A shifted left by k[4:0] (R73). -/
def execLeShli (c : At) (a : BitVec 3) (k : BitVec 23) (s : State) : Out :=
  .next (leIssue c (immShift s c a k (fun x n => x <<< n)) s)

/-- SHRI: A shifted right, logical, by k[4:0] (R73). -/
def execLeShri (c : At) (a : BitVec 3) (k : BitVec 23) (s : State) : Out :=
  .next (leIssue c (immShift s c a k (fun x n => x >>> n)) s)

/-- SARI: A shifted right, arithmetic, by k[4:0] (R73). -/
def execLeSari (c : At) (a : BitVec 3) (k : BitVec 23) (s : State) : Out :=
  .next (leIssue c (immShift s c a k (fun x n => x.sshiftRight n)) s)

/-- CEQI: RLO := (A = sx(k)), tag A (R73). -/
def execLeCeqi (c : At) (a : BitVec 3) (k : BitVec 23) (s : State) : Out :=
  .next (leIssue c (immCmp s c a (fun x => decide (x = sxk k))) s)

/-- CLTI: RLO := (A < sx(k)), tag A (R73). -/
def execLeClti (c : At) (a : BitVec 3) (k : BitVec 23) (s : State) : Out :=
  .next (leIssue c (immCmp s c a (fun x => decide (x.toInt < (sxk k).toInt))) s)

/-- CGTI: RLO := (A > sx(k)), tag A (R73). -/
def execLeCgti (c : At) (a : BitVec 3) (k : BitVec 23) (s : State) : Out :=
  .next (leIssue c (immCmp s c a (fun x => decide ((sxk k).toInt < x.toInt))) s)

end Sys2Proof.Machine
end

