-- ==== Sys2Proof/Machine/LeQua.lean ====
section
/-! DEFINITION. Quality instructions (R74). -/

namespace Sys2Proof.Machine

/-- A quality test of op: RLO takes the result with tag GOOD. -/
def quaTest (s : State) (c : At) (m : BitVec 2) (w : BitVec 21) (f : Tag → Bool) : LaneEff :=
  wLoad s c m w 1 (fun _ v => [wrRlo c (f v.tag) tagGOOD])

/-- STAG: the tag of op becomes A[3:0]; a reserved code writes nothing and records TAG_WRITE (R74). DESIGN CHOICE (logs 79, 81): a
reserved code through a bad pointer records TAG_WRITE before BAD_POINTER; and an instruction that leaves the value alone, as STAG
and CTAG do, counts as writing no value bit (R51). -/
def stagEff (s : State) (c : At) (a : BitVec 3) (m : BitVec 2) (w : BitVec 21) : LaneEff :=
  let t : Tag := (accA s c a).val.truncate 4
  let e := wStore s c m w 0 0 t
  if tagReserved t && !opdIllegal m w then
    { e with writes := [], viols := (opdBase s c m w).viols, traps := 2 :: e.traps }
  else e

/-- GTAG: A := tag code of op, tag GOOD (R74). -/
def execLeGtag (c : At) (a : BitVec 3) (m : BitVec 2) (w : BitVec 21) (s : State) : Out :=
  .next (leIssue c (wLoad s c m w 1 (fun _ v => [wrAcc c a ⟨v.tag.zeroExtend 32, tagGOOD⟩])) s)

/-- STAG: tag of op := A[3:0] (R74). -/
def execLeStag (c : At) (a : BitVec 3) (m : BitVec 2) (w : BitVec 21) (s : State) : Out :=
  .next (leIssue c (stagEff s c a m w) s)

/-- CTAG: tag of op := GOOD, value unchanged (R74). -/
def execLeCtag (c : At) (_a : BitVec 3) (m : BitVec 2) (w : BitVec 21) (s : State) : Out :=
  .next (leIssue c (wStore s c m w 0 0 tagGOOD) s)

/-- ISGOOD: RLO says whether op's class is good (R74). -/
def execLeIsgood (c : At) (_a : BitVec 3) (m : BitVec 2) (w : BitVec 21) (s : State) : Out :=
  .next (leIssue c (quaTest s c m w (fun t => decide (tagClass t = 0))) s)

/-- ISUSE: RLO says whether op's class is good or uncertain (R74). -/
def execLeIsuse (c : At) (_a : BitVec 3) (m : BitVec 2) (w : BitVec 21) (s : State) : Out :=
  .next (leIssue c (quaTest s c m w (fun t => decide (tagClass t ≤ 1))) s)

/-- ISBAD: RLO says whether op's class is bad (R74). -/
def execLeIsbad (c : At) (_a : BitVec 3) (m : BitVec 2) (w : BitVec 21) (s : State) : Out :=
  .next (leIssue c (quaTest s c m w (fun t => decide (tagClass t = 2))) s)

/-- ISNP: RLO says whether op's class is not present (R74). -/
def execLeIsnp (c : At) (_a : BitVec 3) (m : BitVec 2) (w : BitVec 21) (s : State) : Out :=
  .next (leIssue c (quaTest s c m w (fun t => decide (tagClass t = 3))) s)

/-- SUBST: A takes op where op's class is good or uncertain; otherwise A keeps its value with tag SUBSTITUTED (R74). DESIGN CHOICE
(log 81): a SUBST that keeps the value counts as writing all 32 of its bits (R51). -/
def execLeSubst (c : At) (a : BitVec 3) (m : BitVec 2) (w : BitVec 21) (s : State) : Out :=
  .next (leIssue c (wLoad s c m w 1 (fun x v =>
    [wrAcc c a (if tagClass v.tag ≤ 1 then v else ⟨(accOf x a.toNat).val, tagSUBST⟩)])) s)

/-- WORST: A keeps its value with tag comb(A, op) (R74). DESIGN CHOICE (log 81): it counts as writing all 32 bits (R51). -/
def execLeWorst (c : At) (a : BitVec 3) (m : BitVec 2) (w : BitVec 21) (s : State) : Out :=
  .next (leIssue c (wLoad s c m w 1 (fun x v =>
    [wrAcc c a ⟨(accOf x a.toNat).val, tag2 (accOf x a.toNat).tag v.tag⟩])) s)

/-- TEQ: RLO says whether op's tag equals A[3:0] (R74). -/
def execLeTeq (c : At) (a : BitVec 3) (m : BitVec 2) (w : BitVec 21) (s : State) : Out :=
  .next (leIssue c (wLoad s c m w 1 (fun x v =>
    [wrRlo c (decide (v.tag = (accOf x a.toNat).val.truncate 4)) tagGOOD])) s)

end Sys2Proof.Machine
end

