-- ==== Sys2Proof/Machine/LeRake.lean ====
section
/-! DEFINITION. Rake instructions (R64, R65). -/

namespace Sys2Proof.Machine

/-- The pool entry that index `i` names: mask M and negation mask X (R65). -/
def poolEntry (s : State) (i : BitVec 6) : Word × Word :=
  mget (fun _ => (0, 0)) s.mem.pool (64 * s.le.poolbase.toNat + i.toNat)

/-- ALL: the AND of the bits of v XOR X where M is 1; 1 when M is 0 (R64). -/
def rakeAll (e : Word × Word) (v : Word) : Bool := (v ^^^ e.2) &&& e.1 = e.1
/-- ANY: the OR of those bits; 0 when M is 0 (R64). -/
def rakeAny (e : Word × Word) (v : Word) : Bool := (v ^^^ e.2) &&& e.1 ≠ 0

/-- A Rake instruction: `f` gives the new RLO from the old one, the reduced bit and the word's tag. -/
def rakeEff (s : State) (c : At) (i : BitVec 6) (w : BitVec 21) (red : Word × Word → Word → Bool)
    (f : Rlo → Bool → Tag → Rlo) : LaneEff :=
  let v := leRead s w.toNat
  { effNop c with
    reads := [w.toNat], viols := readViol s w.toNat
    memFaults := leReadFaults s w.toNat ++ codeFault s (poolKey (64 * s.le.poolbase.toNat + i.toNat))
    writes := [.rlo c.lane (f (lane s c.lane.toNat).rlo (red (poolEntry s i) v.val) v.tag)] }

/-- RLALL: RLO := ALL, with the word tag (R64). -/
def execLeRlall (c : At) (i : BitVec 6) (w : BitVec 21) (s : State) : Out :=
  .next (leIssue c (rakeEff s c i w rakeAll (fun _ v t => ⟨v, t⟩)) s)

/-- RLANY: RLO := ANY, with the word tag (R64). -/
def execLeRlany (c : At) (i : BitVec 6) (w : BitVec 21) (s : State) : Out :=
  .next (leIssue c (rakeEff s c i w rakeAny (fun _ v t => ⟨v, t⟩)) s)

/-- RAALL: RLO := RLO AND ALL, tag comb(RLO, word) (R64). -/
def execLeRaall (c : At) (i : BitVec 6) (w : BitVec 21) (s : State) : Out :=
  .next (leIssue c (rakeEff s c i w rakeAll (fun r v t => ⟨r.bit && v, tag2 r.tag t⟩)) s)

/-- RAANY: RLO := RLO AND ANY, tag comb(RLO, word) (R64). -/
def execLeRaany (c : At) (i : BitVec 6) (w : BitVec 21) (s : State) : Out :=
  .next (leIssue c (rakeEff s c i w rakeAny (fun r v t => ⟨r.bit && v, tag2 r.tag t⟩)) s)

/-- ROALL: RLO := RLO OR ALL, tag comb(RLO, word) (R64). -/
def execLeRoall (c : At) (i : BitVec 6) (w : BitVec 21) (s : State) : Out :=
  .next (leIssue c (rakeEff s c i w rakeAll (fun r v t => ⟨r.bit || v, tag2 r.tag t⟩)) s)

/-- ROANY: RLO := RLO OR ANY, tag comb(RLO, word) (R64). -/
def execLeRoany (c : At) (i : BitVec 6) (w : BitVec 21) (s : State) : Out :=
  .next (leIssue c (rakeEff s c i w rakeAny (fun r v t => ⟨r.bit || v, tag2 r.tag t⟩)) s)

end Sys2Proof.Machine
end

