-- ==== Sys2Proof/Machine/LeSys.lean ====
section
/-! DEFINITION. System instructions and system registers (R83-R85). -/

namespace Sys2Proof.Machine

/-- The classes whose cycle starts in tick `n` (R38, R85). DESIGN CHOICE (log 82): an overrunning scan that reads CLASSES in the
tick after its own reads the classes of the tick in which it started. -/
def classesNow (n : Nat) : Word := bits32 (fun k => decide (k < 8) && decide (n % 2 ^ k = 0))

/-- What SYSRD of a system register delivers; an index not listed reads 0 (R85). -/
def sysRead (s : State) (l : BitVec 2) (i : Nat) : Word :=
  match i with
  | 0x00 => wordOf s.le.scanCyc
  | 0x01 => l.zeroExtend 32
  | 0x02 => (lane s l.toNat).flags.zeroExtend 32
  | 0x03 => classesNow s.le.scanTick
  | 0x04 => s.tick.tbase
  | 0x05 => s.tick.runid.zeroExtend 32
  | 0x06 => s.le.poolbase.zeroExtend 32
  | _ => 0

/-- SYSRD: A := system register k[5:0] with tag GOOD; k[22:6] must be zero (R83). -/
def sysrdEff (s : State) (c : At) (a : BitVec 3) (k : BitVec 23) : LaneEff :=
  if 64 ≤ k.toNat then effIllegal c
  else { effNop c with writes := [wrAcc c a ⟨sysRead s c.lane k.toNat, tagGOOD⟩] }

/-- SYSWR: system register k[5:0] := A; a tag of A not of class good suppresses the write and records TAG_WRITE. FLAGS is
the executing lane's and clears by writing 1 (R83, R85). -/
def syswrEff (s : State) (c : At) (a : BitVec 3) (k : BitVec 23) : LaneEff :=
  let A := accA s c a
  if 64 ≤ k.toNat then effIllegal c
  else if tagClass A.tag ≠ 0 then { effNop c with traps := [2] }
  else if k.toNat = 2 then { effNop c with writes := [.flags c.lane 0 (A.val.truncate 5)] }
  else { effNop c with writes := [.sys (k.truncate 6) A.val] }

/-- RAISE: user event k[4:0]; k[22:5] and the accumulator field must be zero (R83). -/
def raiseEff (c : At) (a : BitVec 3) (k : BitVec 23) : LaneEff :=
  if 32 ≤ k.toNat ∨ a ≠ 0 then effIllegal c else { effNop c with writes := [.raise (k.truncate 5)] }

/-- WDSRV: class k[18:16], key k[15:0]; k[22:19] and the accumulator field must be zero (R83). -/
def wdsrvEff (c : At) (a : BitVec 3) (k : BitVec 23) : LaneEff :=
  if 524288 ≤ k.toNat ∨ a ≠ 0 then effIllegal c
  else { effNop c with writes := [.wdsrv (BitVec.ofNat 3 (k.toNat / 65536)) (k.truncate 16)] }

/-- SYSRD (R83, R85). -/
def execLeSysrd (c : At) (a : BitVec 3) (k : BitVec 23) (s : State) : Out :=
  .next (leIssue c (sysrdEff s c a k) s)

/-- SYSWR (R83, R85). -/
def execLeSyswr (c : At) (a : BitVec 3) (k : BitVec 23) (s : State) : Out :=
  .next (leIssue c (syswrEff s c a k) s)

/-- RAISE (R83, R84). -/
def execLeRaise (c : At) (a : BitVec 3) (k : BitVec 23) (s : State) : Out :=
  .next (leIssue c (raiseEff c a k) s)

/-- WDSRV (R83, R84, R301). -/
def execLeWdsrv (c : At) (a : BitVec 3) (k : BitVec 23) (s : State) : Out :=
  .next (leIssue c (wdsrvEff c a k) s)

end Sys2Proof.Machine
end

