-- ==== Sys2Proof/Machine/LeTimer.lean ====
section
/-! DEFINITION. Timer and counter instructions (R75-R79, R91). -/

namespace Sys2Proof.Machine

/-- The fields of a timer block (R75). -/
structure TimerBlk where
  pt : Nat
  et : Nat
  rem : Nat
  last : Nat
  q : Bool
  inp : Bool
  run : Bool
  unit : Nat
  runid : Nat
deriving DecidableEq, Repr

/-- The four timer functions of group TMR. -/
inductive TmrFn where
  | ton | tof | tp | trst
deriving DecidableEq, Repr

/-- UNIT in µs (R75). -/
def unitUs (u : Nat) : Nat := if u = 0 then 1 else if u = 1 then 1000 else if u = 2 then 100000 else 1000000

/-- The timer block whose words are `f 0` to `f 4`. -/
def timerOf (f : Nat → Word) : TimerBlk := {
  pt := (f 0).toNat, et := (f 1).toNat, rem := (f 2).toNat, last := (f 3).toNat
  q := fbit (f 4) 0, inp := fbit (f 4) 1, run := fbit (f 4) 2, unit := fld (f 4) 4 2, runid := fld (f 4) 16 16 }

/-- Word +4 of a timer block. -/
def timerState (t : TimerBlk) : Word :=
  wordOf (b2n t.q + 2 * b2n t.inp + 4 * b2n t.run + 16 * t.unit + 65536 * t.runid)

/-- advance of R77: `d` joins the elapsed time. -/
def tmrAdvance (t : TimerBlk) (d pt : Nat) : TimerBlk :=
  let r := t.rem + d
  { t with et := min (t.et + r / unitUs t.unit) pt, rem := r % unitUs t.unit }

/-- start of R77. -/
def tmrStart (t : TimerBlk) : TimerBlk := { t with et := 0, rem := 0, run := true }
/-- The timer stands at zero. -/
def tmrStop (t : TimerBlk) : TimerBlk := { t with et := 0, rem := 0, run := false }

/-- The case distinction of R77, before Q. -/
def tmrCase (fn : TmrFn) (t : TimerBlk) (inp : Bool) (d pt : Nat) : TimerBlk :=
  match fn with
  | .ton => if inp && !t.inp then tmrStart t else if inp && t.run then tmrAdvance t d pt
            else if !inp then tmrStop t else t
  | .tof => if inp then tmrStop t else if t.inp then tmrStart t else if t.run then tmrAdvance t d pt else t
  | .tp => if inp && !t.inp && !t.run then tmrStart t else if t.run then tmrAdvance t d pt else t
  | .trst => if inp then { tmrStop t with q := false } else t

/-- One execution of a timer block (R77). -/
def tmrEval (fn : TmrFn) (t0 : TimerBlk) (inp : Bool) (pt tbase runid : Nat) : TimerBlk :=
  let d := if t0.runid = runid then (tbase + 4294967296 - t0.last) % 4294967296 else 0
  let t1 := { t0 with last := tbase, runid := runid, pt := if fn = .trst then t0.pt else pt }
  let t2 := tmrCase fn t1 inp d pt
  if fn = .trst then { t2 with inp := inp }
  else
    let t3 := if t2.run && decide (pt ≤ t2.et) then { t2 with et := pt, run := false } else t2
    let t4 := if fn = .tp ∧ inp = false ∧ t3.run = false then { t3 with et := 0, rem := 0 } else t3
    let q := match fn with
      | .ton => inp && decide (pt ≤ t4.et)
      | .tof => inp || t4.run
      | .tp => t4.run
      | .trst => t4.q
    { t4 with q := q, inp := inp }

/-- The line access of an instruction to the 8-word block at `base`: bank accesses, violations and memory faults. -/
def lineEff (s : State) (c : At) (base : Nat) : LaneEff :=
  let ws := (List.range 8).map (fun i => base + i)
  { effNop c with
    reads := [lineKey base], stores := [lineKey base], cycles := 2
    viols := ws.flatMap (readViol s) ++ ws.flatMap (writeViol s), memFaults := ws.flatMap (leReadFaults s) }

/-- The writes of the words of a block that an instruction writes, each with the result tag. -/
def blockWrites (s : State) (base : Nat) (l : List (Nat × Word)) (t : Tag) : List LeWrite :=
  l.flatMap (fun p => storeWrite s (.mem (base + p.1)) 0xFFFFFFFF p.2 t)

/-- The write-back of the line access: the words from +`lo` on, as they were read, with their tags, so that a store of a lower lane to
one of them does not stand (R51, R77, R78, R91). DESIGN CHOICE (log 81): a word with a memory fault is written back as it was read (R24). -/
def lineBack (s : State) (base lo : Nat) : List LeWrite :=
  (List.range (8 - lo)).flatMap (fun i =>
    let d := leRead s (base + lo + i)
    storeWrite s (.mem (base + lo + i)) 0xFFFFFFFF d.val d.tag)

/-- A TMR instruction on block `j` with the preset in accumulator `a` (R77). DESIGN CHOICE (log 81): TRST, which does not write word +0,
does not write it back either, and bit [3] of STATE, which R75 does not list, is written 0. -/
def tmrEff (s : State) (c : At) (fn : TmrFn) (a : BitVec 3) (j : BitVec 13) : LaneEff :=
  if fn = .trst ∧ a ≠ 0 then effIllegal c
  else
    let base := 0x1E0000 + 8 * j.toNat
    let r := (lane s c.lane.toNat).rlo
    let A := accA s c a
    let t := tmrEval fn (timerOf (fun i => (leRead s (base + i)).val)) r.bit A.val.toNat s.tick.tbase.toNat
      s.tick.runid.toNat
    let tg := if fn = .trst then r.tag else tag2 r.tag A.tag
    let body := [(1, wordOf t.et), (2, wordOf t.rem), (3, wordOf t.last), (4, timerState t)]
    let l := if fn = .trst then body else (0, wordOf t.pt) :: body
    { lineEff s c base with
      writes := blockWrites s base l tg ++ lineBack s base 5 ++ (if fn = .trst then [] else [wrRlo c t.q tg]) }

/-- The five counter functions of group CTR. -/
inductive CtrFn where
  | ctu | ctd | ctud | crst | cload
deriving DecidableEq, Repr

/-- A signed count kept within its range (R78). -/
def satCount (i : Int) : Word := (sat32 i).1

/-- The new count of a counter block (R78): `up` and `dn` are rising inputs, `r` is RLO. -/
def ctrCount (fn : CtrFn) (cv pv : Word) (up dn r : Bool) : Word :=
  match fn with
  | .ctu => if up then satCount (cv.toInt + 1) else cv
  | .ctd => if dn then satCount (cv.toInt - 1) else cv
  | .ctud => if up && !dn then satCount (cv.toInt + 1) else if dn && !up then satCount (cv.toInt - 1) else cv
  | .crst => if r then 0 else cv
  | .cload => if r then pv else cv

/-- A CTR instruction on block `j` with the preset in accumulator `a` (R78). DESIGN CHOICE (log 81): bits [31:4] of STATE, which R78 does
not list, are written 0. -/
def ctrEff (s : State) (c : At) (fn : CtrFn) (a : BitVec 3) (j : BitVec 13) : LaneEff :=
  let base := 0x1F0000 + 8 * j.toNat
  let x := lane s c.lane.toNat
  let r := x.rlo
  let A := accA s c a
  let st := (leRead s (base + 2)).val
  match fn, x.stack with
  | .ctud, [] => { lineEff s c base with traps := [5] }
  | _, stack =>
    let top := stack.headD {}
    let cu := match fn with | .ctu | .ctud => r.bit | _ => fbit st 2
    let cd := match fn with | .ctd => r.bit | .ctud => top.bit | _ => fbit st 3
    let cv := ctrCount fn (leRead s (base + 1)).val A.val (cu && !fbit st 2) (cd && !fbit st 3) r.bit
    let qu := decide (A.val.toInt ≤ cv.toInt)
    let qd := decide (cv.toInt ≤ 0)
    let tg := if fn = .ctud then tag2 (tag2 r.tag top.tag) A.tag else tag2 r.tag A.tag
    let st' := wordOf (b2n qu + 2 * b2n qd + 4 * b2n cu + 8 * b2n cd)
    { lineEff s c base with
      writes := blockWrites s base [(0, A.val), (1, cv), (2, st')] tg ++ lineBack s base 3 ++
        (match fn with
          | .ctu => [wrRlo c qu tg]
          | .ctd => [wrRlo c qd tg]
          | .ctud => [.stack c.lane stack.tail, wrRlo c qu tg]
          | _ => []) }

/-- TON (R77). -/
def execLeTon (c : At) (a : BitVec 3) (j : BitVec 13) (s : State) : Out :=
  .next (leIssue c (tmrEff s c .ton a j) s)

/-- TOF (R77). -/
def execLeTof (c : At) (a : BitVec 3) (j : BitVec 13) (s : State) : Out :=
  .next (leIssue c (tmrEff s c .tof a j) s)

/-- TP (R77). -/
def execLeTp (c : At) (a : BitVec 3) (j : BitVec 13) (s : State) : Out :=
  .next (leIssue c (tmrEff s c .tp a j) s)

/-- TRST (R77). -/
def execLeTrst (c : At) (a : BitVec 3) (j : BitVec 13) (s : State) : Out :=
  .next (leIssue c (tmrEff s c .trst a j) s)

/-- CTU (R78). -/
def execLeCtu (c : At) (a : BitVec 3) (j : BitVec 13) (s : State) : Out :=
  .next (leIssue c (ctrEff s c .ctu a j) s)

/-- CTD (R78). -/
def execLeCtd (c : At) (a : BitVec 3) (j : BitVec 13) (s : State) : Out :=
  .next (leIssue c (ctrEff s c .ctd a j) s)

/-- CTUD (R78). -/
def execLeCtud (c : At) (a : BitVec 3) (j : BitVec 13) (s : State) : Out :=
  .next (leIssue c (ctrEff s c .ctud a j) s)

/-- CRST (R78). -/
def execLeCrst (c : At) (a : BitVec 3) (j : BitVec 13) (s : State) : Out :=
  .next (leIssue c (ctrEff s c .crst a j) s)

/-- CLOAD (R78). -/
def execLeCload (c : At) (a : BitVec 3) (j : BitVec 13) (s : State) : Out :=
  .next (leIssue c (ctrEff s c .cload a j) s)

end Sys2Proof.Machine
end

