-- ==== Sys2Proof/Machine/RegRead.lean ====
section
/-! DEFINITION. What every register of the CP address space reads as (R9, R10, and the register tables of the chapters). A
write-only field and a reserved bit read 0, and so does every register of an absent unit (R3). -/

namespace Sys2Proof.Machine

/-- A configuration register as read: RW the value in force, RWL and RWT the value last written (R9). -/
def cfgRead (s : State) (a : Nat) : Word := if (regInfo a).cls = .rw then force s a else written s a

/-- A signed value in `len` bits. -/
def sgn (len : Nat) (i : Int) : Nat := (i % (2 ^ len : Nat)).toNat

/-- The low and high words of a 64-bit value. -/
def loW (n : Nat) : Word := wordOf n
def hiW (n : Nat) : Word := wordOf (n / 4294967296)

/-! ### System and update registers (00, 14, 15) -/

/-- Codes of UPD_STATE.STATE. -/
def updCode (p : UpdPhase) : Nat :=
  match p with
  | .idle => 0 | .staging => 1 | .staged => 2 | .armed => 3 | .probation => 4 | .fallingBack => 5

/-- The operating time in fabric cycles. -/
def opCycles (s : State) : Nat := cycSec (60 * s.btn.opMin.toNat) + (s.time.cyc - s.btn.minCyc)

/-- What is left of the confirm window, in fabric cycles of operating time (R365). -/
def confirmLeft (s : State) : Nat :=
  if s.upd.phase = .probation then
    s.upd.probFrom + cycSec (60 * (s.upd.man.map manConfirm).getD 0) - opCycles s
  else 0

/-- SYS_CAPS (R1, R2). -/
def sysCaps (s : State) : Word :=
  wordOf (nGroups s + 256 * (2 ^ nBus s - 1) + 4096 * b2n (hasTwin s) + 8192 * b2n (hasPanel s) + 65536 * nNodes s
    + 16777216 * s.fixed.variant.toNat)

def sysBlockRead (s : State) (o : Nat) : Word :=
  match o with
  | 0x00 => wordOf (0x0256 + 65536 * s.fixed.revision.toNat)
  | 0x04 => sysCaps s
  | 0x08 => wordOf (stateCode s.pair.mstate + 16 * roleCode s.pair.role + 64 * b2n s.sys.recovery)
  | 0x0C => wordOf (b2n s.sys.cfgDefaulted + 2 * b2n s.sys.backupLost + 4 * b2n s.sys.fatalHold)
  | 0x10 => wordOf (s.sys.cause.toNat + 16 * b2n s.sys.wake + 256 * s.cp.cause.toNat)
  | 0x14 => cfgRead s (aSYS + 0x14) ||| at_ s.sys.sleepResult.toNat 8
  | 0x18 => wordOf (s.sys.slotUse.toNat + 16 * s.sys.result0.toNat + 256 * s.sys.result1.toNat)
  | 0x1C => s.sys.gen
  | 0x24 => s.fixed.serial.truncate 32
  | 0x28 => s.fixed.serial.extractLsb' 32 32
  | 0x40 => wordOf (updCode s.upd.phase + 16 * s.upd.verified.toNat + 65536 * s.upd.result.toNat)
  | 0x48 => loW s.upd.actTick
  | 0x4C => hiW s.upd.actTick
  | 0x50 => s.upd.seq
  | 0x54 => s.upd.confSeq
  | 0x58 => wordOf (s.upd.chunks.length % 1048576)
  | 0x5C => wordOf (((updParts s).map partChunks).foldl (· + ·) 0 % 1048576)
  | 0x60 => wordOf (min 0xFFFF ((confirmLeft s + cycSec 60 - 1) / cycSec 60))
  | 0x64 => wordOf (s.upd.fmtOld.toNat + 16 * s.upd.fmtNew.toNat)
  | _ => 0

/-! ### The fault collector, protection and watchdogs (11) -/

/-- A capture as FCU_FIRST lays it out. -/
def captureWord (c : Capture) : Word :=
  wordOf (c.src.toNat + 1024 * c.reason.toNat + 65536 * c.cls.toNat + 2147483648 * b2n c.valid)

/-- The cause of a captured OVERLOAD is still asserted (R291): after SHORT and OVERCURRENT until the switch is off, at most 10 µs after
the trip (R156); within that time the current, and at any time the junction's temperature, is not the module's to state (log 22). -/
def overloadPresent (s : State) (c : Capture) : Bool :=
  let open_ := Config.freeBit (256 * s.time.cyc + c.src.toNat)
  match c.cause.toNat with
  | 1 | 2 => decide (s.time.cyc = c.cyc) || (decide (s.time.cyc ≤ c.cyc + cycUs 10) && open_)
  | 3 => open_
  | 4 => decide (grpLimit s (c.src.toNat / 8) < (gr s (c.src.toNat / 8)).ma.toNat)
  | _ => false

/-- FCU_PRESENT (R291). -/
def fcuPresent (s : State) : Bool :=
  let c := s.fcu.first
  c.valid && match c.reason.toNat with
    | 0x19 => overloadPresent s c
    | 0x1A | 0x1B => s.wd.expired.getLsbD (c.src.toNat - 480)
    | 0x16 => s.wd.backupFail
    | 0x24 => s.wd.clkBad
    | 0x26 => s.fcu.parityBad.getLsbD s.fcu.selfReg.toNat
    | r => decide (0x30 ≤ r) && s.prot.frozen.getLsbD (r - 0x30)

def fcuRead (s : State) (o : Nat) : Word :=
  match o with
  | 0x00 => captureWord s.fcu.first
  | 0x04 => loW s.fcu.first.time
  | 0x08 => s.fcu.first.timeHi
  | 0x0C => s.fcu.first.tick
  | 0x10 => wordOf (b2n (fcuPresent s))
  | 0x14 => wordOf (s.fcu.overflow + 2147483648 * b2n (decide (s.fcu.overflow ≠ 0)))
  | 0x18 => captureWord s.fcu.fatal
  | 0x1C => loW s.fcu.fatal.time
  | 0x20 => s.fcu.fatal.timeHi
  | 0x24 => wordOf (b2n s.fcu.selfBit + 256 * s.fcu.selfReg.toNat)
  | 0x28 => wordOf s.fcu.corrected
  | 0x2C => wordOf (s.fcu.contained + 65536 * s.fcu.fatalCount)
  | _ => cfgRead s (aFCU + o)

/-- CPWD_LEFT in ms. -/
def cpwdLeft (s : State) : Nat :=
  if s.wd.cpRunning then (s.wd.cpDeadline - s.time.cyc) / cycMs 1 else 2000

def wdRead (s : State) (o : Nat) : Word :=
  if o < 0x20 then cfgRead s (aWD + o) ||| at_ (min 255 (twd s (o / 4)).count) 16
  else match o with
    | 0x20 => wordOf (s.wd.expired.toNat + 256 * s.wd.keyErr.toNat)
    | 0x48 => wordOf (cpwdLeft s)
    | 0x60 => wordOf (b2n s.wd.mainFailed + 2 * b2n s.wd.backupFail + 65536 * sgn 16 s.wd.devPpm)
    | 0x70 => wordOf (s.wd.nCp + 65536 * s.wd.nBackup)
    | 0x74 => wordOf (s.wd.nTask + 65536 * s.wd.nClock)
    | 0x78 => wordOf s.wd.nFatal
    | _ => cfgRead s (aWD + o)

def protRead (s : State) (o : Nat) : Word :=
  if 0x10 ≤ o ∧ o < 0x48 then
    let m := (o - 0x10) / 8
    if o % 8 = 0 then mget (fun _ => 0) s.prot.violAddr m
    else wordOf (b2n (s.prot.violWrite.getLsbD m) + 256 * mget (fun _ => 0) s.prot.violCount m
      + 2147483648 * b2n (s.prot.violValid.getLsbD m))
  else match o with
    | 0x04 => s.prot.frozen.zeroExtend 32
    | 0x08 => wordOf (b2n s.prot.keyErr)
    | _ => cfgRead s (aPROT + o)

/-! ### Time and the pair (08, 09) -/

def timeRead (s : State) (o : Nat) : Word :=
  match o with
  | 0x00 => loW s.time.ns
  | 0x04 => s.time.timeHi
  | 0x14 => wordOf (b2n s.time.valid + 2 * s.time.setSrc.toNat + 8 * s.time.disc.toNat + 32 * b2n s.time.locked
      + 64 * b2n s.time.holdover + 128 * b2n s.time.slewing + 256 * s.time.result.toNat + 4096 * s.time.sets)
  | 0x18 => wordOf (sgn 20 s.time.rate)
  | 0x24 => wordOf (sgn 32 s.time.slewLeft)
  | 0x28 => wordOf (sgn 32 s.time.ppsErr)
  | _ => cfgRead s (aTIME + o)

/-- LANE0_STATUS or LANE1_STATUS. -/
def laneRead (x : LaneStat) : Word :=
  wordOf (b2n x.up + 2 * b2n x.sfp + 4 * b2n x.los + 16 * x.retx + 65536 * x.errors)

def pairRead (s : State) (o : Nat) : Word :=
  match o with
  | 0x04 => pairStatus s
  | 0x08 => wordOf (s.pair.lag + 65536 * s.pair.epochBlocks)
  | 0x10 => wordOf (s.pair.cmdLast.toNat + 256 * s.pair.cmdResult.toNat)
  | 0x14 => loW s.pair.epochTick
  | 0x18 => s.pair.epochTickHi
  | 0x1C => wordOf (min 0xFFFF (hvBudget s))
  | 0x20 => wordOf (s.pair.maxBlocks + 65536 * satN 0xFFFF s.pair.preimgMax)
  | 0x24 => wordOf (s.pair.swept + 32768 * b2n s.pair.progDone)
  | 0x28 => laneRead s.pair.lane0
  | 0x2C => laneRead s.pair.lane1
  | 0x30 => wordOf (s.pair.lastCause.toNat + 2147483648 * b2n s.pair.lastValid)
  | 0x34 => loW s.pair.lastTime
  | 0x38 => s.pair.timeHi
  | 0x3C => wordOf (s.pair.takeovers + 65536 * s.pair.resyncs)
  | _ => cfgRead s (aPAIR + o)

/-! ### The record store, the log and the Graduation monitor (12, 13, 16) -/

/-- The word of four bytes of a list, from byte `4 i`. -/
def byteWord (l : List Byte) (i : Nat) : Word := payloadWord l i

def nvRead (s : State) (o : Nat) : Word :=
  let n := s.nv
  if 0x2C ≤ o ∧ o < 0x40 then byteWord n.rdata ((o - 0x2C) / 4)
  else match o with
    | 0x00 => wordOf (b2n n.test)
    | 0x04 => wordOf (b2n n.mounted + 2 * b2n n.startup + 4 * b2n n.recovery + 8 * b2n n.twinHead.isSome
        + 16 * b2n n.reclaiming.isSome + 256 * n.queue.length)
    | 0x24 => wordOf (n.code.toNat + 16 * n.rlen.toNat + 512 * n.rfmt.toNat + 8192 * b2n n.rtwin)
    | 0x28 => wordOf n.rseq
    | 0x40 => wordOf n.nextSeq
    | 0x44 => wordOf (sgn 20 n.level)
    | 0x48 => wordOf ((erasedSecs s).length + 256 * ((List.range 128).filter (fun i => (sec s i).retired)).length
        + 65536 * n.head.getD 0 + 16777216 * n.twinHead.getD 0xFF)
    | 0x4C => wordOf (min 0xFFF (entries s).length + 65536 * n.torn)
    | 0x68 => wordOf (n.nextRec % 1024 + 65536 * n.deferred)
    | 0x6C => wordOf (min 255 n.holdWritten + 256 * min 255 n.holdLost + 65536 * b2n n.eraseCut)
    | 0x88 => wordOf (b2n n.flBusy.isSome + 2 * b2n n.flDone + 4 * b2n n.flOwn + 8 * b2n n.flBusyRead
        + 16 * b2n n.flVerify)
    | _ => cfgRead s (aNV + o)

/-- The trend area of the log (R380). -/
def trendRead (s : State) (o : Nat) : Word :=
  let g := s.grd
  if o < 0x60 then
    let back := (g.monthNo + 23 - o / 4) % 24
    if g.monthNo = 0 ∨ g.months.length ≤ back then 0
    else match g.months[g.months.length - 1 - back]? with
      | some m => wordOf (m.code + 256 * (m.mhz - 300) + 65536 * m.slack + 16777216 * sgn 8 (m.temp + 64))
      | none => 0
  else if 0x70 ≤ o ∧ o < 0x90 then (mget (fun _ => (0 : BitVec 16)) g.trendRo ((o - 0x70) / 4)).zeroExtend 32
  else match o with
    | 0x60 => wordOf (g.monthNo - 1)
    | 0x64 => wordOf g.trendLife
    | 0x68 => wordOf (g.firstCode.getD 0)
    | 0x6C => wordOf g.trendMonths
    | 0x90 => wordOf (sgn 32 g.trendTcxo)
    | 0x94 => if g.monthNo = 0 then 0 else wordOf (g.trendCell.toNat + 65536 * b2n s.fixed.supercap)
    | 0x98 => wordOf g.trendSram
    | _ => 0

def btnRead (s : State) (o : Nat) : Word :=
  let b := s.btn
  let h := fun (m : SMap Nat) (base : Nat) => wordOf (mget (fun _ => 0) m ((o - base) / 4))
  if 0x2000 ≤ o ∧ o < 0x4000 then
    let r := (o - 0x2000) / 32
    let j := o % 32 / 4
    if j ≠ 0 ∧ b.latchSlot = some r then b.latch.getD (j - 1) 0 else noticeWord (noticeAt s r) j
  else if 0x20 ≤ o ∧ o < 0x30 then b.nonce.extractLsb' (8 * (o - 0x20)) 32
  else if 0x100 ≤ o ∧ o < 0x180 then h b.scanHist 0x100
  else if 0x180 ≤ o ∧ o < 0x200 then h b.supplyHist 0x180
  else if 0x200 ≤ o ∧ o < 0x280 then h b.tempHist 0x200
  else if 0x400 ≤ o ∧ o < 0xC00 then h b.fieldHist 0x400
  else if 0xC00 ≤ o ∧ o < 0x1000 then h b.surgeHist 0xC00
  else if 0x1000 ≤ o ∧ o < 0x1400 then wordOf (ch s ((o - 0x1000) / 4)).cycles
  else if 0x1400 ≤ o ∧ o < 0x1800 then
    wordOf (mget (fun _ => 0) b.curMax ((o - 0x1400) / 4) + 65536 * mget (fun _ => 0xFFFF) b.curMin ((o - 0x1400) / 4))
  else if 0x1800 ≤ o ∧ o < 0x1810 then
    let i := (o - 0x1800) / 4
    wordOf (mget (fun _ => 0) b.tecMax i + 256 * mget (fun _ => 0) b.recMax i + 65536 * mget (fun _ => 0) b.busoff i)
  else if 0x1820 ≤ o ∧ o < 0x1830 then
    wordOf (mget (fun _ => 0) (if o % 8 = 0 then b.laneErr else b.laneRetx) ((o - 0x1820) / 8))
  else if 0x1900 ≤ o ∧ o < 0x1A00 then trendRead s (o - 0x1900)
  else match o with
    | 0x00 => cfgRead s aBTN
    | 0x04 => wordOf (b2n b.busy + 2 * b2n b.restored + 4 * b2n b.backupLost)
    | 0x08 => b.opMin
    | 0x0C => b.pcycle.zeroExtend 32
    | 0x10 => if b.ever then b.serial else 0xFFFFFFFF
    | 0x14 => b.lastRound
    | 0x18 => wordOf b.clears
    | 0x1840 => wordOf (b.takeovers + 65536 * b.resyncs)
    | 0x1844 => wordOf b.overruns
    | 0x1848 => wordOf (b.wdCopy.getD 0 0 + 65536 * b.wdCopy.getD 1 0)
    | 0x184C => wordOf (b.wdCopy.getD 2 0 + 65536 * b.wdCopy.getD 3 0)
    | 0x1850 => wordOf (b.wdCopy.getD 4 0)
    | _ => 0

/-- READOUT: on the service protocol's request, by an interface through which traffic passes, the whole log is returned, whatever the
configuration and the OEM partition are; reading never changes the log (R334). -/
def execReadout (s : State) : Out :=
  let words := (List.range 0x67E).map (fun i => btnRead s (8 + 4 * i))
  let ring := (List.range 256).flatMap (fun r => (List.range 8).map (noticeWord (noticeAt s r)))
  if (List.range 3).any (ifaceLive s) then .next { s with cp := { s.cp with readout := words ++ ring } } else .next s

/-- The highest sector erase count of a CP flash bank. -/
def bankErases (s : State) (b : Nat) : Nat :=
  s.nv.flErases.foldl (fun m p => if p.1 / 64 = b then max m p.2 else m) 0

def grdRead (s : State) (o : Nat) : Word :=
  let g := s.grd
  if 0x20 ≤ o ∧ o < 0x40 then (mget (fun _ => (0 : BitVec 16)) g.ro ((o - 0x20) / 4)).zeroExtend 32
  else if 0x60 ≤ o ∧ o < 0x70 then bits32 (fun j => g.wornSec.contains (32 * ((o - 0x60) / 4) + j))
  else if 0x400 ≤ o ∧ o < 0x800 then
    let n := (o - 0x400) / 4
    if n < nCh s then
      wordOf (satN 0xFFFF (resMohm s n) + 65536 * sgn 8 (mget (fun _ => 0) g.chDrift n / 5)
        + 16777216 * b2n (g.chWorn.contains n))
    else 0
  else if 0x800 ≤ o ∧ o < 0x880 then
    (if (o - 0x800) / 4 < nGroups s then wordOf (mget (fun _ => 0) g.surgeMj ((o - 0x800) / 4) / 1000) else 0)
  else match o with
    | 0x00 => wordOf (g.code + 256 * s.fixed.codeMin)
    | 0x04 => wordOf (g.worst + 256 * g.canary.toNat)
    | 0x08 => 0x02040810
    | 0x0C => wordOf (g.horizon + 65536 * sgn 5 (marginOf g.code s.le.mhz))
    | 0x10 => wordOf (b2n g.urgentSeen + 2 * b2n (decide (g.code = 21)) + 4 * b2n (decide (s.le.mhz = 360)))
    | 0x40 => wordOf (sgn 8 g.base + 256 * sgn 8 g.die)
    | 0x44 => wordOf (g.lifeSec / 3600)
    | 0x48 => wordOf (sramPerDay s)
    | 0x4C => wordOf (sgn 32 g.tcxo)
    | 0x50 => wordOf (g.cell.toNat + 65536 * b2n s.fixed.supercap)
    | 0x70 => wordOf (satN 0xFFFF (bankErases s 0) + 65536 * satN 0xFFFF (bankErases s 1))
    | _ => 0

/-! ### The panel and the Sluice block (07, 17) -/

/-- Codes of PWR_STATE. -/
def pnlCode (p : PnlPhase) : Nat := match p with | .off => 0 | .rising => 1 | .on => 2 | .discharging => 3

def pnlRead (s : State) (o : Nat) : Word :=
  let p := s.pnl
  if 0x8000 ≤ o ∧ o < 0xD000 then
    wordOf ((List.range 4).foldl (fun n i => n + (mget (fun _ => (0 : Byte)) p.fb (o - 0x8000 + i)).toNat * 256 ^ i) 0)
  else if 0x60 ≤ o ∧ o < 0x74 then p.pol.extractLsb' (8 * (o - 0x60)) 32
  else match o with
    | 0x04 => wordOf (pnlCode p.phase + 4 * b2n p.pass + 8 * (p.queue.filter (·.taken)).length + 64 * p.queue.length
        + 1024 * b2n p.fault + 2048 * b2n (s.prot.frozen.getLsbD 5))
    | 0x54 => wordOf (p.code.toNat + 256 * p.doneTag.toNat)
    | 0x78 => wordOf (p.passes + 65536 * p.scrubbed)
    | _ => cfgRead s (aPNL + o)

/-- Codes of SLC_GRP_STATUS.STATE. -/
def slcCode (p : SlcPhase) : Nat := match p with | .idle => 0 | .running => 1 | .rested => 2

def slcRead (s : State) (o : Nat) : Word :=
  if 0x180 ≤ o ∧ o < 0x200 then
    let q := sg s ((o - 0x180) / 4)
    wordOf (min 31 q.step + 32 * slcCode q.phase + 256 * q.cause.toNat + 4096 * b2n q.timeout + 8192 * b2n q.badStep
      + 65536 * q.held.toNat + 16777216 * q.cmd.toNat)
  else match o with
    | 0x04 => wordOf (2147483648 * b2n s.slc.miss)
    | 0x10 => bits32 (fun g => decide (g < nGroups s) && decide ((sg s g).phase = .running))
    | 0x14 => bits32 (fun g => decide (g < nGroups s) && decide ((sg s g).phase = .rested))
    | 0x18 => s.slc.hardoff
    | 0x1C => wordOf (s.slc.lastCause.toNat + 16 * s.slc.lastGroup.toNat + 2147483648 * b2n s.slc.lastValid)
    | 0x20 => loW s.slc.lastTime
    | 0x24 => s.slc.timeHi
    | _ => cfgRead s (aSLC + o)

/-! ### The logic engine and the reflex block (01-05, 10, 14) -/

/-- Codes of EDIT_STATE.STATE. -/
def editCode (p : EditPhase) : Nat :=
  match p with
  | .idle => 0 | .opened => 1 | .staged => 2 | .pending => 3 | .committed => 4 | .undoPending => 5

/-- LE_STATE.STATE: 0 STOPPED, 1 RUNNING, 2 STOPPING. -/
def leStateCode (s : State) : Nat := if s.le.stopping then 2 else if inRun s then 1 else 0

def leRegRead (s : State) (o : Nat) : Word :=
  let l := s.le
  if 0x100 ≤ o ∧ o < 0x180 then wordOf (mget (fun _ => 0) l.hist ((o - 0x100) / 4))
  else match o with
    | 0x04 => wordOf (leStateCode s + 4 * b2n l.warm + 8 * b2n l.autoRun + 16 * l.result.toNat)
    | 0x0C => loW s.tick.num
    | 0x10 => s.tick.countHi
    | 0x14 => wordOf (cyc26 l.cyclesLast)
    | 0x18 => wordOf l.cyclesMax
    | 0x1C => cfgRead s (aLE + 0x1C) ||| wordOf (l.overTotal + 65536 * l.overConsec)
    | 0x24 => cfgRead s (aLE + 0x24) ||| at_ (b2n l.budgetOver) 31
    | 0x28 => wordOf (l.mhz + 65536 * 360)
    | 0x2C => wordOf l.bankStalls
    | 0x30 => wordOf (l.lsPasses + 65536 * l.lsPeriod + 16777216 * b2n l.lsActive)
    | 0x44 => wordOf (editCode s.edit.phase + 8 * b2n s.edit.busy + 16 * min 127 s.edit.stagedSet.length
        + 2048 * b2n s.edit.partnerAck + 4096 * b2n (decide (l.progId ≠ force s (aLE + 0x78)))
        + 65536 * s.edit.code.toNat)
    | 0x74 => l.progId
    | 0x7C => s.edit.landed
    | 0x80 => wordOf (l.trapBundle.toNat + 262144 * l.trapLane.toNat + 1048576 * l.trapReason.toNat
        + 1073741824 * b2n l.trapOvf + 2147483648 * b2n l.trapValid)
    | 0x84 => l.trapTick
    | 0x9C => wordOf (b2n (s.mon.snapReq || s.mon.snapBusy) + 2 * b2n s.mon.snapDone
        + 4 * b2n (s.mon.writeReq || s.mon.writeBusy) + 8 * b2n s.mon.writeDone + 256 * s.mon.skipped)
    | 0xA0 => s.mon.snapTick
    | 0xA4 => wordOf (b2n s.mon.drop + 2 * b2n s.mon.tagErr)
    | _ => cfgRead s (aLE + o)

def rfxRead (s : State) (o : Nat) : Word :=
  if 0x200 ≤ o ∧ o < 0x300 then wordOf (mget (fun _ => 0) s.rfx.trips ((o - 0x200) / 4))
  else match o with
    | 0x08 => s.rfx.cond.truncate 32
    | 0x0C => s.rfx.cond.extractLsb' 32 32
    | 0x10 => s.rfx.latch.truncate 32
    | 0x14 => s.rfx.latch.extractLsb' 32 32
    | 0x1C => bits32 (fun k => decide (k < 16) && sysSignal s k)
    | 0x20 => wordOf (s.rfx.lastEq.toNat + 2147483648 * b2n s.rfx.lastValid)
    | 0x24 => loW s.rfx.lastTime
    | 0x28 => s.rfx.timeHi
    | _ => cfgRead s (aRFX + o)

/-! ### Channels, groups, buses and nodes (06, 09) -/

/-- CH_STATUS. -/
def chStatus (s : State) (n : Nat) : Word :=
  let c := ch s n
  wordOf (b2n (chState s n) + 2 * b2n c.raw + 4 * b2n c.drive + 8 * b2n (c.driveSense && isOut s n)
    + 16 * b2n (decide (0 < c.settleLeft)) + 32 * b2n c.wb + 64 * b2n c.trip + 128 * b2n (calOver s n)
    + 256 * b2n (c.mismatch && decide (chMode s n = 5)) + 512 * b2n ((forceBit s 0 n).isSome || (forceBit s 0x2000 n).isSome)
    + 1024 * b2n (chCfgErr s n)
    + 2048 * b2n (targets (standing s 1) n || targets (standing s 2) n || targets (standing s 3) n)
    + 4096 * b2n (decide ((sg s (n / 8)).phase ≠ .idle)) + 8192 * b2n c.wetLimit
    + 65536 * (chCondTag s n).toNat + 1048576 * min 15 c.settleLeft)

def chRead (s : State) (n o : Nat) : Word :=
  let c := ch s n
  let a := aCH n + o
  match o with
  | 0x08 => cfgRead s a ||| at_ c.winPct 16
  | 0x0C =>
    let w := cfgRead s a
    (if fbit w 9 then (w &&& ~~~0x1FF) ||| wordOf (learntThr s n) else w) ||| wordOf (65536 * c.ioff + 2147483648 * b2n c.learnt)
  | 0x14 => chStatus s n
  | 0x18 => c.measI.zeroExtend 32
  | 0x1C => wordOf (c.termMv.toNat + 65536 * c.onRes.toNat)
  | 0x20 => wordOf (c.tsUs.toNat + 2147483648 * b2n c.tsRising)
  | 0x24 => calWord c.thrTrim c.ilimTrim
  | 0x28 => wordOf (min 0xFFFF (c.calAgeMin / 60) + 65536 * b2n (calOver s n) + 131072 * b2n c.calRetry
      + 524288 * b2n c.calActive + 1048576 * c.calLast.toNat + 16777216 * c.calAborts)
  | 0x2C => wordOf c.cycles
  | 0x30 => wordOf (b2n c.trip + 2 * b2n c.lock + 4 * c.cause.toNat
      + 256 * min 255 (c.trips.filter (fun t => decide (s.time.cyc < t + cycUs 60000000))).length)
  | _ => cfgRead s a

def grpRead (s : State) (g o : Nat) : Word :=
  let q := gr s g
  let a := aGRP g + o
  match o with
  | 0x04 => wordOf (b2n q.low + 2 * b2n q.lowSeen + 4 * b2n q.shed + 8 * b2n q.surge)
  | 0x08 => q.mv.zeroExtend 32
  | 0x0C => wordOf (q.ma.toNat + 65536 * q.peak.toNat)
  | 0x10 => cfgRead s a ||| at_ q.derated 16
  | 0x14 => wordOf (q.surgeLast + 65536 * q.surgeCount)
  | _ => cfgRead s a

/-- Word `o` of a received frame. -/
def frameWord (f : Option CanFrame) (o : Nat) : Word :=
  match f with
  | none => 0
  | some f => match o with
    | 0x00 => f.id.zeroExtend 32 ||| wordOf (536870912 * b2n f.ide + 1073741824 * b2n f.fdf + 2147483648 * b2n f.brs)
    | 0x04 => wordOf (f.dlc.toNat + 16 * b2n f.esi)
    | 0x08 => f.stamp.truncate 32
    | 0x0C => (f.stamp >>> 32).truncate 32
    | _ => if o < 0x50 then byteWord f.data ((o - 0x10) / 4) else 0

def canRead (s : State) (b o : Nat) : Word :=
  let x := bu s b
  let a := aCAN b + o
  let off := decide (canMode s b = 0)
  if 0x40 ≤ o ∧ o < 0x90 then frameWord x.fifo.head? (o - 0x40)
  else if 0x400 ≤ o ∧ o < 0x900 then
    let e := txEntry s b ((o - 0x400) / 0x50)
    match (o - 0x400) % 0x50 with
    | 0x04 => cfgRead s a ||| wordOf (16 * b2n e.esi + 1024 * b2n e.pending + 2048 * b2n e.done + 4096 * b2n e.aborted
        + 8192 * b2n e.badId)
    | 0x08 => e.stamp.truncate 32
    | 0x0C => (e.stamp >>> 32).truncate 32
    | _ => cfgRead s a
  else match o with
    | 0x0C => wordOf ((if off then 3 else x.state.toNat) + 4 * b2n (refMaster s b)
        + 8 * b2n (refSent s b) + 256 * x.rxErrs.toNat + 65536 * x.txErrs.toNat)
    | 0x10 => wordOf (x.busoff + 65536 * x.intrusions)
    | 0x18 => wordOf (x.superseded + 65536 * x.corrections)
    | 0x20 => wordOf (x.fifo.length + 128 * b2n x.ovf)
    | _ => cfgRead s a

def nodeRead (s : State) (k o : Nat) : Word :=
  let x := nd s k
  match o with
  | 0x14 => x.status
  | 0x18 => wordOf (sgn 32 x.lastOfs)
  | 0x1C => wordOf (x.violations + 65536 * x.missedTotal)
  | 0x20 => wordOf (x.pushedTotal + 65536 * x.corrections + 16777216 * x.losses)
  | _ => cfgRead s (aNODE k + o)

/-! ### Serial ports, the interrupt controller and the LE windows (10) -/

def uartRead (s : State) (u o : Nat) : Word :=
  let x := ua s u
  match o with
  | 0x10 => wordOf (sgn 32 x.level)
  | 0x14 => wordOf (x.rx.length + 65536 * x.tx.length + 33554432 * b2n x.keyed + 67108864 * b2n x.holdBit
      + 134217728 * x.lines.toNat + 2147483648 * b2n x.rxErr)
  | 0x18 => match x.rx with
    | (b, pe, fe) :: _ => wordOf (b.toNat + 256 + 512 * b2n pe + 1024 * b2n fe)
    | [] => 0
  | _ => cfgRead s (aUART u + o)

/-- The registers of one event queue: count and losses, and the oldest entry (R269). -/
def eqRead (l : List QEntry) (lost o : Nat) : Word :=
  let e := l.head?
  if o = 0x00 then wordOf (l.length + 65536 * lost)
  else if o = 0x04 then (e.map (fun e => wordOf (e.src.toNat + 2147483648))).getD 0
  else if o = 0x08 then (e.map (fun e => loW e.stamp)).getD 0
  else if o = 0x0C then (e.map (fun e => hiW e.stamp)).getD 0
  else 0

def icRead (s : State) (o : Nat) : Word :=
  if 0x900 ≤ o ∧ o < 0x944 then bits32 (fun j => s.ev.pend.contains (BitVec.ofNat 10 (32 * ((o - 0x900) / 4) + j)))
  else if o = 0xA00 then s.ev.claim.zeroExtend 32
  else if 0xB00 ≤ o ∧ o < 0xB20 then eqRead s.ev.q0 s.ev.lost0 (o - 0xB00)
  else if 0xB20 ≤ o ∧ o < 0xB40 then eqRead s.ev.q1 s.ev.lost1 (o - 0xB20)
  else cfgRead s (aIC + o)

/-- The half of a 36-bit word in a window of the logic engine (R11). -/
def dwordHalf (w : DWord) (hi : Bool) : Word := if hi then w.tag.zeroExtend 32 else w.val

/-- A register of an assigned block of the CP address space, by its block (R397). -/
def blockRead (s : State) (a : Nat) : Word :=
  if a < 0x40010000 then sysBlockRead s (a - aSYS)
  else if a < 0x40020000 then fcuRead s (a - aFCU)
  else if a < 0x40030000 then wdRead s (a - aWD)
  else if a < 0x40040000 then timeRead s (a - aTIME)
  else if a < 0x40050000 then nvRead s (a - aNV)
  else if a < 0x40060000 then btnRead s (a - aBTN)
  else if a < 0x40070000 then pairRead s (a - aPAIR)
  else if a < 0x40080000 then grdRead s (a - aGRD)
  else if a < 0x40090000 then pnlRead s (a - aPNL)
  else if a < 0x400A0000 then slcRead s (a - aSLC)
  else if a < 0x400B0000 then leRegRead s (a - aLE)
  else if a < 0x400C0000 then protRead s (a - aPROT)
  else if a < 0x40100000 then rfxRead s (a - aRFX)
  else if a < 0x40140000 then chRead s ((a - 0x40100000) / 0x40) ((a - 0x40100000) % 0x40)
  else if a < 0x40200000 then grpRead s ((a - 0x40140000) / 0x20) ((a - 0x40140000) % 0x20)
  else if a < 0x40210000 then canRead s ((a - 0x40200000) / 0x1000) ((a - 0x40200000) % 0x1000)
  else if a < 0x40300000 then nodeRead s ((a - 0x40210000) / 0x80) ((a - 0x40210000) % 0x80)
  else if a < 0x40320000 then 0
  else if a < 0x40330000 then uartRead s ((a - 0x40320000) / 0x100) ((a - 0x40320000) % 0x100)
  else if a < 0x40340000 then 0
  else icRead s (a - aIC)

/-- A block-table entry as EDIT_ENT_A and EDIT_ENT_B lay it out (04); a block without an entry reads zero (R109). -/
def entWordA (e : BlockEntry) : Word := wordOf (e.pbase.toNat + 262144 * e.len.toNat)
def entWordB (k : Nat) (e : BlockEntry) : Word :=
  if e = default then 0
  else wordOf (k + 1024 * e.classes.toNat + 262144 * e.poolFirst.toNat + 16777216 * e.poolCount.toNat)

/-! ### The data flash (R307-R310) -/

/-- The eight words of a slot: the seven of its bytes 0 to 27, and their CRC-32C. -/
def withCrc (l : List Word) : List Word := l ++ [crc32c l]

/-- The words of the header of a sector in use; its CRC takes RECLAIMED and RETIRED as 0xFF (R308). -/
def headerWords (x : Sector) : List Word :=
  let marks := x.role.toNat + (if x.reclaimed then 0 else 0xFF00) + (if x.retired then 0 else 0xFF0000) + 0xFF000000
  let body (m : Nat) : List Word :=
    [0x5A3C0001, wordOf x.erases, wordOf x.openSeq, wordOf m, 0xFFFFFFFF, 0xFFFFFFFF, 0xFFFFFFFF]
  body marks ++ [crc32c (body (x.role.toNat + 0xFFFFFF00))]

/-- The words of a record (R309). -/
def recordWords (r : Rec) : List Word :=
  withCrc ([wordOf (r.key.toNat + 65536 * r.len + 16777216 * ((if r.twin then 1 else 0) + (if r.moved then 2 else 0)
      + 16 * r.fmt.toNat)), wordOf r.seq] ++ (List.range 5).map (payloadWord r.data))

/-- Word `j` of slot `k` of sector `i`: erased words read all ones; a sector without a valid header keeps what an erase that was cut
short left, which is open, as are the words of a torn slot (R307, R308, R310, log 78). -/
def flashWord (s : State) (i k j : Nat) : Word :=
  let x := sec s i
  let open_ := Config.freeFlash (1024 * i + 8 * k + j)
  if x.erased then (if x.retired && decide (8 * k + j = 3) then 0xFF00FFFF else 0xFFFFFFFF)
  else if x.role = 0 then (if x.retired && decide (8 * k + j = 3) then open_ &&& 0xFF00FFFF else open_)
  else if k = 0 then (headerWords x).getD j 0
  else match x.slots[k - 1]? with
    | none => 0xFFFFFFFF
    | some none => open_
    | some (some r) => (recordWords r).getD j 0

/-- Word `i` of the two CP flash banks; what an erase that was abandoned or failed left is open (R260, R323, R324). -/
def bankFlash (s : State) (i : Nat) : Word :=
  if s.nv.flOpen.contains (true, i / 16384) || s.nv.flOpen.contains (false, i / 8) then Config.freeBank i
  else mget (fun _ => 0xFFFFFFFF) s.nv.flash i

/-- What the word at a word-aligned CP address reads as: boot ROM, CP flash, data flash, SRAM, the LE windows and the register blocks; unassigned
addresses and absent units read 0 (R3, R260, R397, R398). -/
def readReg (s : State) (a : Nat) : Word :=
  if !assigned a || absentAddr s a then 0
  else if 0x08000000 ≤ a ∧ a < 0x08800000 then bankFlash s ((a - 0x08000000) / 4)
  else if 0x09000000 ≤ a ∧ a < 0x09080000 then
    flashWord s ((a - 0x09000000) / 4096) ((a - 0x09000000) / 32 % 128) ((a - 0x09000000) / 4 % 8)
  else if a < 0x10000 then Config.bootRom (a / 4)
  else if 0x20000000 ≤ a ∧ a < 0x20100000 then mget (fun _ => 0) s.cp.sram ((a - 0x20000000) / 4)
  else if 0x30000000 ≤ a ∧ a < 0x30800000 then
    let w := mget (fun _ => (0 : BitVec 36)) s.mem.prog ((a - 0x30000000) / 8)
    if a % 8 = 0 then w.truncate 32
    else if s.mon.progLatchAddr = some (BitVec.ofNat 20 ((a - 0x30000000) / 8)) then s.mon.progLatch.zeroExtend 32
    else (w >>> 32).truncate 32
  else if 0x30800000 ≤ a ∧ a < 0x30808000 then
    let e := mget (fun _ => ((0 : Word), (0 : Word))) s.mem.pool ((a - 0x30800000) / 8)
    if a % 8 = 0 then e.1 else e.2
  else if 0x30810000 ≤ a ∧ a < 0x30814000 then
    let e := mget (fun _ => (default : BlockEntry)) (if a < 0x30812000 then s.edit.live else s.edit.prev)
      ((a - 0x30810000) % 0x2000 / 8)
    if a % 8 = 0 then entWordA e else entWordB ((a - 0x30810000) % 0x2000 / 8) e
  else if 0x30820000 ≤ a ∧ a < 0x30822000 then
    dwordHalf (mget (fun _ => goodZero) s.mon.buf ((a - 0x30820000) / 8)) (decide (a % 8 = 4))
  else if 0x30822000 ≤ a ∧ a < 0x30822400 then mget (fun _ => 0) s.mon.wlist ((a - 0x30822000) / 4)
  else if 0x31000000 ≤ a ∧ a < 0x32000000 then
    (if a % 8 = 0 then (readWord s ((a - 0x31000000) / 8)).val
     else if s.mon.latchAddr = some (BitVec.ofNat 21 ((a - 0x31000000) / 8)) then s.mon.tagLatch.zeroExtend 32
     else (readWord s ((a - 0x31000000) / 8)).tag.zeroExtend 32)
  else if 0x40000000 ≤ a then blockRead s a
  else 0

/-- What OEM code may read: its own flash partition in the bank that runs, its half of SRAM, the LE windows, and every register block
(R261). -/
def oemMayRead (s : State) (a : Nat) : Bool :=
  let b := 0x08000000 + 0x400000 * s.upd.bank.toNat
  within a (b + 0x200000) (b + 0x3BFFFF) || within a 0x20080000 0x200FFFFF || within a 0x30000000 0x307FFFFF
    || within a 0x31000000 0x31FFFFFF || decide (0x40000000 ≤ a)

/-- What a session may read with its roles: without any, the Bittern log, SYS_ID, SYS_CAPS, SYS_STATE and SYS_STATUS; with VIEW, images,
registers, configuration and snapshots (R278). -/
def sessionMayRead (roles : Byte) (a : Nat) : Bool :=
  within a aBTN (aBTN + 0xFFFF) || within a aSYS (aSYS + 0xF)
    || (roles.getLsbD 0 && (within a 0x30820000 0x308223FF || within a 0x31000000 0x31FFFFFF || decide (0x40000000 ≤ a)))

/-- What the CP reads at an address: a refused read returns zero, of the high word of a data word the tag MEMORY, and a frozen CP reads
nothing, nor a bank that is busy (R298, R324); the freeze and the bus error that such reads bring are PROTECTION_VIOLATION's (R297, R398). -/
def cpRead (s : State) (a : Nat) : Word :=
  if !cpRuns s || frozen s 1 || flBankBusy s a then 0
  else if permitted s 1 a false then readReg s a
  else if within a 0x31000000 0x31FFFFFF && decide (a % 8 = 4) then tagMEMORY.zeroExtend 32 else 0

/-- What an access reads: nothing where its asker may not read (R261, R278); a service call for the record store answers its result and what
a READ returned (R313). -/
def readFor (s : State) (x : CpAccess) : Word :=
  let a := x.addr.toNat
  match x.asker with
  | .vendor => cpRead s a
  | .oem => if oemMayRead s a then cpRead s a else 0
  | .protocol => if s.sys.points.any (fun p => p.addr = x.addr && p.read) then cpRead s a else 0
  | .oemStore => if within a (aNV + 0x24) (aNV + 0x3F) then cpRead s a else 0
  | .oemNotice _ => 0
  | .session i => if sessionMayRead (((session s i.toNat).map (·.roles)).getD 0) a then cpRead s a else 0

end Sys2Proof.Machine
end

