-- ==== Sys2Proof/Machine/Panel.lean ====
section
/-! DEFINITION. The local panel driver (17). -/

namespace Sys2Proof.Machine

/-- A field of a panel register, as in force. -/
def pnlCfg (s : State) (o lo len : Nat) : Nat := fld (force s (aPNL + o)) lo len

/-- The panel driver can be commanded: present, powered, not in reset and not in SLEEP. -/
def pnlUp (s : State) : Bool := hasPanel s && alive s && decide (s.pair.mstate ≠ .sleep)

/-- PWR_STATE changes; the panel's source fires where EVT_PWR is set (R395). -/
def pnlPhaseTo (p : PnlPhase) (s : State) : State :=
  fireIf (decide (pnlCfg s 8 9 1 = 1)) 491 { s with pnl := { s.pnl with phase := p, stopCyc := s.time.cyc } }

/-! ### Rows and rectangles -/

/-- Fabric cycle at which row `y` of the pass in progress has its line start (R384). -/
def lineStart (s : State) (y : Nat) : Nat :=
  s.pnl.passCyc + cycUs ((List.range y).foldl (fun n j => n + if s.pnl.passRows.contains j then 100 else 2) 100)

/-- Length of the pass in progress in cycles (R384). -/
def passLen (s : State) : Nat :=
  cycUs (100 + 100 * s.pnl.passRows.length + 2 * (160 - s.pnl.passRows.length))

/-- Two rectangles share a pixel (R391). -/
def shares (a b : Rect) : Bool := overlap a.x0 a.w b.x0 b.w && overlap a.y0 a.h b.y0 b.h

/-- The queue after a pass has taken its rectangles, from the front: at most four, each sharing no pixel with any rectangle
ahead of it (R391). -/
def takeRects : List Rect → List Rect → Nat → List Rect
  | _, [], _ => []
  | ahead, r :: rs, n =>
    let t := !r.taken && decide (n < 4) && !ahead.any (shares r)
    { r with taken := r.taken || t } :: takeRects (ahead ++ [r]) rs (if t then n + 1 else n)

/-- The rows of a rectangle, clipped to the panel. -/
def rectRows (y0 h : Nat) : List Nat := (List.range 160).filter (fun y => decide (y0 ≤ y) && decide (y < y0 + h))

/-- A byte of the CP address space. -/
def readByte (s : State) (a : Nat) : Byte := BitVec.ofNat 8 (fld (readReg s (a / 4 * 4)) (8 * (a % 4)) 8)

/-- Rectangle `i` of the queue stops at this row (R396). -/
def stopRect (i : Nat) (s : State) : State :=
  match s.pnl.queue[i]? with
  | some r => { s with pnl := { s.pnl with queue := s.pnl.queue.set i { r with stopped := true } } }
  | none => s

/-- The addresses from which row `y` of a rectangle is read (R390). -/
def rectReads (r : Rect) (y : Nat) : List Nat :=
  (List.range (r.w / 2)).map (fun k => (r.src.toNat + r.stride * (y - r.y0) + k) % 4294967296)

/-- The engine copies the share of row `y` of rectangle `i` of the queue into the frame buffer; a refused read freezes master 5, and the
rectangle stops at the row, which keeps its contents as the rows after it do (R390, R392, R396). -/
def copyRow (y : Nat) (s : State) (i : Nat) : State :=
  match s.pnl.queue[i]? with
  | none => s
  | some r =>
    if !r.taken || r.stopped || decide (y < r.y0) || decide (r.y0 + r.h ≤ y) then s
    else if frozen s 5 then stopRect i s
    else match (rectReads r y).find? (fun a => !permitted s 5 a false) with
      | some a => stopRect i (freezeMaster 5 (wordOf a) false s)
      | none =>
        let bytes := (rectReads r y).map (readByte s)
        { s with pnl := { s.pnl with
          fb := (List.range (r.w / 2)).foldl (fun m k => mput (fun _ => (0 : Byte)) m (128 * y + r.x0 / 2 + k) (bytes.getD k 0)) s.pnl.fb } }

/-- The polarity with which the pass in progress writes row `y`: 1 at power-up, the phase of the pass in full refresh, and
inverted in partial update (R385-R387). -/
def rowPol (s : State) (y : Nat) : Bool :=
  if s.pnl.phase = .rising then true else if s.pnl.passMode then s.pnl.passPhase else !s.pnl.pol.getLsbD y

/-- One row of the pass is copied and written; a row that the scrubber added is counted (R388). -/
def passRow (s : State) (y : Nat) : State :=
  let s1 := (List.range s.pnl.queue.length).foldl (copyRow y) s
  let p := rowPol s y
  let bit : BitVec 160 := 1#160 <<< y
  { s1 with pnl := { s1.pnl with
    pol := if p then s1.pnl.pol ||| bit else s1.pnl.pol &&& ~~~bit
    rowCyc := mput (fun _ => 0) s1.pnl.rowCyc y (lineStart s y)
    scrubbed := if s.pnl.passScrub.contains y then satN 0xFFFF (s1.pnl.scrubbed + 1) else s1.pnl.scrubbed
    passScrub := s1.pnl.passScrub.filter (fun j => decide (j ≠ y)) } }

/-- The listed rows are written in order. -/
def passRowsDo (l : List Nat) (s : State) : State :=
  let s1 := l.foldl passRow s
  if s1.prot.frozen.getLsbD 5 = s.prot.frozen.getLsbD 5 then s1 else settle s1

/-- The rows of the pass in progress whose line time has come are copied and written (R384, R392). -/
def panelRows (s : State) : State :=
  if s.pnl.pass then
    let due := (s.pnl.passRows.drop s.pnl.passDone).filter (fun y => decide (lineStart s y ≤ s.time.cyc))
    if due.isEmpty then s
    else passRowsDo due { s with pnl := { s.pnl with passDone := s.pnl.passDone + due.length } }
  else s

/-! ### What the panel shows (R383, R386, R393) -/

/-- The level that a pixel is driven to in the pass in progress or the last one: the FILL of the lowest-numbered blink rectangle that covers
it in its OFF phase, else the frame buffer (R382, R393). -/
def pixelLevel (s : State) (x y : Nat) : Nat :=
  let o := fun (k : Nat) => 0x80 + 0x10 * k
  match (List.range 8).find? (fun k => s.pnl.passBlink.getLsbD k && overlap x 1 (pnlCfg s (o k) 0 8) (pnlCfg s (o k + 4) 0 9)
      && overlap y 1 (pnlCfg s (o k) 8 8) (pnlCfg s (o k + 4) 16 8)) with
  | some k => pnlCfg s (o k + 8) 4 4
  | none => fld ((mget (fun _ => (0 : Byte)) s.pnl.fb (128 * y + x / 2)).zeroExtend 32) (4 * (x % 2)) 4

/-- VCOM during a pass, in units of 10 mV: DC, and in full refresh DC less SWING in phase 1 and DC plus SWING in phase 0 (R386, R387).
DESIGN CHOICE (log 123): the power-up pass runs at the DC to which R385 has brought it, in both modes. -/
def passVcom (dcSwing : Word) (rising full phase : Bool) : Nat :=
  let dc := fld dcSwing 0 9
  if full && !rising then (if phase then dc - fld dcSwing 16 9 else dc + fld dcSwing 16 9) else dc

/-- The cycles at which VGL and VGH reach their levels after a power-up: within 5 ms, and within a further 5 ms (R385, log 123). -/
def vglUp (s : State) : Nat := s.pnl.stopCyc + Config.panelRise (2 * s.pnl.stopCyc) % (cycUs 5000 + 1)
def vghUp (s : State) : Nat := vglUp s + Config.panelRise (2 * s.pnl.stopCyc + 1) % (cycUs 5000 + 1)

/-- Fabric cycles since the trigger of the discharge. -/
def sinceStop (s : State) : Nat := s.time.cyc - s.pnl.stopCyc

/-- The supply rail of a panel: not driven, at its level, or being discharged. -/
def vglRail (s : State) : Rail :=
  match s.pnl.phase with
  | .off => .off
  | .rising => if vglUp s ≤ s.time.cyc then .level else .off
  | .on => .level
  | .discharging => if sinceStop s < cycUs 3500 then .level else .falling

/-- VGH, whose discharge begins 2,010 µs after the trigger (R394). -/
def vghRail (s : State) : Rail :=
  match s.pnl.phase with
  | .off => .off
  | .rising => if vghUp s ≤ s.time.cyc then .level else .off
  | .on => .level
  | .discharging => if sinceStop s < cycUs 2010 then .level else .falling

/-- The voltage of VCOM in units of 10 mV: 0 until step 3 of the power-up, then DC until the first pass, then as the last pass set it, until
the discharge ends (R385-R387, R394). -/
def vcomLevel (s : State) : Nat :=
  match s.pnl.phase with
  | .off => 0
  | .rising => if s.pnl.pass then s.pnl.vcomNow else if vghUp s ≤ s.time.cyc then pnlCfg s 0xC 0 9 else 0
  | _ => s.pnl.vcomNow

/-- ALLON: for 2 ms in the power-up, and through the discharge (R385, R394). -/
def allonPin (s : State) : Bool :=
  match s.pnl.phase with
  | .rising => decide (vghUp s ≤ s.time.cyc) && decide (s.time.cyc < vghUp s + cycUs 2000)
  | .discharging => true
  | _ => false

/-- GSP: the pulse of 100 µs with which a pass begins (R384). -/
def gspPin (s : State) : Bool := s.pnl.pass && decide (s.time.cyc < s.pnl.passCyc + cycUs 100)

/-- The row through which GCK1-GCK4 are clocking the gate shift register (R384). -/
def gateRow (s : State) : Option Nat :=
  if s.pnl.pass then
    (List.range 160).find? (fun y => decide (lineStart s y ≤ s.time.cyc)
      && decide (s.time.cyc < lineStart s y + cycUs (if s.pnl.passRows.contains y then 100 else 2)))
  else none

/-- GOE: asserted for the last 80 µs of the line time of a row that the pass writes (R384). -/
def goePin (s : State) : Bool :=
  (gateRow s).any (fun y => s.pnl.passRows.contains y && decide (lineStart s y + cycUs 20 ≤ s.time.cyc))

/-- The source voltage of a pixel as its row is written, in units of 10 mV: VCOM + A(L) at polarity 1, VCOM - A(L) at polarity 0 (R383). -/
def sourceLevel (s : State) (x y : Nat) : Nat :=
  let l := pixelLevel s x y
  let a := fld (mget (fun i => regReset (aPNL + 0x10 + 4 * i)) s.pnl.gamma (l / 2)) (16 * (l % 2)) 9
  if s.pnl.pol.getLsbD y then vcomLevel s + a else vcomLevel s - a

/-- Source line `x` in units of 10 mV: at VCOM from step 3 of the power-up to its pass and in the discharge, 0 V in OFF, and the voltage of the
pixel while its row is written; the spec states none between rows and passes (R383-R385, R394). -/
def sourcePin (s : State) (x : Nat) : Option Nat :=
  match s.pnl.phase, gateRow s with
  | .off, _ => some 0
  | .discharging, _ => some (vcomLevel s)
  | _, some y => if s.pnl.passRows.contains y then some (sourceLevel s x y) else none
  | .rising, none => if s.pnl.pass then none else some (vcomLevel s)
  | .on, none => none

/-! ### Discharge (R394) -/

/-- The panel discharges: the pass in progress is abandoned where it stands, and the queue is emptied. -/
def panelDischarge (s : State) : State :=
  if hasPanel s ∧ (s.pnl.phase = .rising ∨ s.pnl.phase = .on) then
    let s1 := panelRows s
    pnlPhaseTo .discharging { s1 with pnl := { s1.pnl with
      pass := false, queue := [], passRows := [], passDone := 0, scrubRows := [], passScrub := [], blinkRows := [], fullDue := false } }
  else s

/-- PWR = 1 is written: ignored unless the panel is OFF (R385, R394). -/
def panelOn (s : State) : State :=
  if pnlUp s ∧ s.pnl.phase = .off then pnlPhaseTo .rising (regPut s aPNL 1) else s

/-- PWR = 0 is written. -/
def panelOff (s : State) : State :=
  if s.pnl.phase = .rising ∨ s.pnl.phase = .on then panelDischarge (regPut s aPNL 0) else s

/-- FLUSH: rectangles that have not been taken are discarded. -/
def panelFlush (s : State) : State := { s with pnl := { s.pnl with queue := s.pnl.queue.filter (·.taken) } }

/-- PWR_ON. -/
def execPwrOn (s : State) : Out :=
  cpRow (aPNL) true s <| .next (panelOn s)

/-- PWR_OFF. -/
def execPwrOff (s : State) : Out :=
  cpRow (aPNL) true s <| .next (panelOff s)

/-- DISCHARGE_DONE: 5,000 µs after the trigger PWR_STATE reads OFF and PWR reads 0 (R394). -/
def execDischargeDone (s : State) : Out :=
  if s.pnl.phase = .discharging ∧ s.pnl.stopCyc + cycUs 5000 ≤ s.time.cyc then .next (pnlPhaseTo .off (regPut s aPNL 0))
  else .next s

/-- FLUSH. -/
def execFlush (s : State) : Out :=
  cpRow (aPNL) true s <| .next (panelFlush s)

/-- PANEL_SUPPLY_FAULT (R395). -/
def execPanelSupplyFault (s : State) : Out :=
  if pnlUp s ∧ s.pnl.phase = .on then .next (panelDischarge { s with pnl := { s.pnl with fault := true } }) else .next s

/-! ### Rectangle updates (R390-R392) -/

/-- The rectangle that the registers set up. -/
def regRect (s : State) (tag : Nat) : Rect := {
  x0 := pnlCfg s 0x40 0 8, y0 := pnlCfg s 0x40 8 8, w := pnlCfg s 0x44 0 9, h := pnlCfg s 0x44 16 8
  src := force s (aPNL + 0x48), stride := pnlCfg s 0x4C 0 16, tag := BitVec.ofNat 8 tag, taken := false }

/-- R390: the submission is refused with BAD_RECT. -/
def badRect (r : Rect) : Bool :=
  decide (r.x0 % 2 = 1) || decide (r.w % 2 = 1) || decide (r.w = 0) || decide (r.h = 0) || decide (256 < r.x0 + r.w)
  || decide (160 < r.y0 + r.h) || decide (r.stride < r.w / 2)

/-- RECT_SUBMIT: codes 0 QUEUED, 1 FULL, 2 BAD_RECT, 3 NOT_ON; where several hold, the order of the tests is the model's. -/
def rectSubmitOp (v : Word) (s : State) : State :=
  let r := regRect s (fld v 8 8)
  let code : BitVec 2 := if s.pnl.phase ≠ .on then 3 else if badRect r then 2 else if 8 ≤ s.pnl.queue.length then 1 else 0
  if hasPanel s && fbit v 0 then
    { s with pnl := { s.pnl with code := code, queue := if code = 0 then s.pnl.queue ++ [r] else s.pnl.queue } }
  else s

/-- RECT_SUBMIT. -/
def execRectSubmit (v : Word) (s : State) : Out :=
  cpRow (aPNL + 0x50) true s <| .next (rectSubmitOp v s)

/-- The vendor base submits the next rectangle of the start image, once the panel is ON and its queue has room (17, R385, R391, log 116). -/
def startSubmit (s : State) : State :=
  match s.pnl.start with
  | r :: rest =>
    if s.pnl.phase = .on ∧ s.pnl.queue.length < 8 ∧ cpReach s (aPNL + 0x50) true then
      let s1 := regPut (regPut (regPut (regPut s (aPNL + 0x40) (r.pos &&& 0xFFFF)) (aPNL + 0x44) (r.size &&& 0x00FF01FF))
        (aPNL + 0x48) r.src) (aPNL + 0x4C) (r.stride &&& 0xFFFF)
      rectSubmitOp (r.submit ||| 1) { s1 with pnl := { s1.pnl with start := rest } }
    else s
  | [] => s

/-! ### Passes (R384-R389) -/

/-- The queue as the next pass takes it; a frozen engine takes nothing (R396). -/
def taken (s : State) : List Rect :=
  if s.prot.frozen.getLsbD 5 || decide (s.pnl.phase ≠ .on) then s.pnl.queue else takeRects [] s.pnl.queue 0

/-- A pass has work: the power-up pass, a periodic pass of full refresh, or rows and rectangles of partial update. -/
def passDue (s : State) : Bool :=
  let p := s.pnl
  match p.phase with
  | .rising => decide (vghUp s + cycUs 2000 ≤ s.time.cyc)
  | .on => if p.passMode then p.fullDue
    else p.fullDue || !p.scrubRows.isEmpty || !p.blinkRows.isEmpty || (taken s).any (·.taken)
  | _ => false

/-- Blink rectangle `k` is enabled and in its OFF phase at the present station time. -/
def blinkOffNow (s : State) (k : Nat) : Bool :=
  let c := force s (aPNL + 0x88 + 0x10 * k)
  fbit c 0 && decide (s.time.ns / (if fbit c 1 then 250000000 else 500000000) % 2 = 1)

/-- The phases of all blink rectangles. -/
def blinkNow (s : State) : BitVec 8 :=
  (List.range 8).foldl (fun v k => if blinkOffNow s k then v ||| (1#8 <<< k) else v) 0

/-- PASS_START: settings take effect, rectangles are taken, and the rows of the pass are fixed. -/
def execPassStart (s : State) : Out :=
  let p := s.pnl
  if pnlUp s && !p.pass && passDue s then
    let mode := decide (pnlCfg s 8 0 1 = 1)
    let q := taken s
    let full := mode || p.fullDue || p.cfgFull || decide (p.phase = .rising)
    let rects := (q.filter (·.taken)).flatMap (fun r => rectRows r.y0 r.h)
    let rows := (List.range 160).filter (fun y =>
      full || rects.contains y || p.scrubRows.contains y || p.blinkRows.contains y)
    let phase := if p.phase = .rising then true else if mode then !p.passPhase else p.passPhase
    .next { s with pnl := { p with
      pass := true, passRows := rows, passDone := 0, passBlink := blinkNow s, passCyc := s.time.cyc
      vcom := force s (aPNL + 0xC), gamma := mtab (fun i => regReset (aPNL + 0x10 + 4 * i)) 8 (fun i => force s (aPNL + 0x10 + 4 * i))
      queue := q, passMode := mode, rate := pnlCfg s 8 1 6
      passPhase := phase, vcomNow := passVcom (force s (aPNL + 0xC)) (decide (p.phase = .rising)) mode phase
      fullCyc := if mode then s.time.cyc else p.fullCyc
      passScrub := p.scrubRows, scrubRows := [], blinkRows := [], fullDue := false, cfgFull := false } }
  else .next s

/-- PASS_END: the last rows have been written, taken rectangles complete in queue order, and the power-up pass ends in ON. -/
def execPassEnd (s : State) : Out :=
  if pnlUp s && s.pnl.pass && decide (s.pnl.passCyc + passLen s ≤ s.time.cyc) then
    let s1 := panelRows s
    let done := s1.pnl.queue.filter (·.taken)
    let s2 := { s1 with pnl := { s1.pnl with
      pass := false, passRows := [], passDone := 0, passes := satN 0xFFFF (s1.pnl.passes + 1)
      queue := s1.pnl.queue.filter (fun r => !r.taken)
      doneTag := (done.getLast?.map (·.tag)).getD s1.pnl.doneTag } }
    let s3 := fireIf (!done.isEmpty && decide (pnlCfg s 8 8 1 = 1)) 491 s2
    .next (if s.pnl.phase = .rising then pnlPhaseTo .on s3 else s3)
  else .next s

/-- FULL_REFRESH: a full pass falls due every floor(1,000,000 / RATE) µs (R386). -/
def execFullRefresh (s : State) : Out :=
  if pnlUp s && decide (s.pnl.phase = .on) && s.pnl.passMode && !s.pnl.fullDue
      && decide (s.pnl.fullCyc + cycUs (1000000 / max 1 s.pnl.rate) ≤ s.time.cyc) then
    .next { s with pnl := { s.pnl with fullDue := true } }
  else .next s

/-- Cycles since row `y` was last written. -/
def rowAge (s : State) (y : Nat) : Nat := s.time.cyc - mget (fun _ => 0) s.pnl.rowCyc y

/-- The scrubber has added row `y` to the next pass, or to the pass in progress, which has not written it yet. -/
def rowWaits (s : State) (y : Nat) : Bool := s.pnl.scrubRows.contains y || s.pnl.passScrub.contains y

/-- ROW_SCRUB: a row reaches 1,000 ms, and every row of 750 ms goes with it; partial update only (R388). -/
def execRowScrub (s : State) : Out :=
  if pnlUp s && decide (s.pnl.phase = .on) && !s.pnl.passMode
      && (List.range 160).any (fun y => !rowWaits s y && decide (cycUs 1000000 ≤ rowAge s y)) then
    .next { s with pnl := { s.pnl with
      scrubRows := (List.range 160).filter (fun y =>
        s.pnl.scrubRows.contains y || (!rowWaits s y && decide (cycUs 750000 ≤ rowAge s y))) } }
  else .next s

/-! ### Blink (R393) -/

/-- BLINK_PHASE: the phases follow station time; in partial update the rows of each enabled rectangle whose phase changes join the next pass. -/
def execBlinkPhase (s : State) : Out :=
  if pnlUp s then
    let now := blinkNow s
    let chg := (List.range 8).filter (fun k => fbit (force s (aPNL + 0x88 + 0x10 * k)) 0 &&
      (now.getLsbD k != s.pnl.blinkOff.getLsbD k))
    let rows := chg.flatMap (fun k => rectRows (pnlCfg s (0x80 + 0x10 * k) 8 8) (pnlCfg s (0x84 + 0x10 * k) 16 8))
    let lit := decide (s.pnl.phase = .rising) || decide (s.pnl.phase = .on)
    .next { s with pnl := { s.pnl with
      blinkOff := now
      blinkRows := if s.pnl.passMode || !lit then s.pnl.blinkRows
        else (List.range 160).filter (fun y => s.pnl.blinkRows.contains y || rows.contains y) } }
  else .next s

end Sys2Proof.Machine
end

