-- ==== Sys2Proof/Machine/Slot.lean ====
section
/-! DEFINITION. Configuration slots: their checks, what their settings set up, how they are written, and the pull of a
partner's configuration (00, 08, 14). -/

namespace Sys2Proof.Machine

/-! ### Sections (R341) -/

/-- Section `k` sets up the register at an address (R341, R404, R407, 17 "Panel registers"). PROT_EN belongs to the windows of both
sections that have some. -/
def inSec (k a : Nat) : Bool :=
  match k with
  | 1 => a = aLE + 8 || a = aLE + 0x1C || a = aPAIR || a = aTIME + 0x1C || a = aSLC || within a (aFCU + 0x100) (aFCU + 0x187)
  | 2 => within a 0x40100000 0x40103FFF || within a (aPAIR + 0x40) (aPAIR + 0x5F)
  | 3 => within a 0x40140000 0x401403FF || within a (aSLC + 0x100) (aSLC + 0x1FFF)
  | 4 => within a aRFX (aRFX + 0xFFFF)
  | 5 => within a 0x40200000 0x40203FFF || within a 0x40210000 0x402147FF
  | 6 => a = aPROT || within a (aPROT + 0x100) (aPROT + 0x1FF) || within a aWD (aWD + 0x1F) || within a (aLE + 0xC00) (aLE + 0xC43)
  | 7 => a = aNV + 0x64
  | 8 => within a 0x40320000 0x403203FF || within a aIC (aIC + 4 * 544 - 1) || a = aPROT || within a (aPROT + 0x200) (aPROT + 0x7FF)
  | 9 => within a (aPNL + 8) (aPNL + 0x2F) || within a (aPNL + 0x80) (aPNL + 0xFF)
  | _ => false

/-- The settings that a slot's sections hold, in the order of R341's table. -/
def slotSettings (c : CfgSlot) : List (Word × Word) :=
  (List.range 10).flatMap (fun k => if hasSec c k then c.settings.filter (fun p => inSec k p.1.toNat) else [])

/-- What a slot holds: a field of a section that it does not have stays as after reset (R341). -/
def slotContent (c : CfgSlot) : CfgSlot :=
  let a := hasSec c 6
  let b := hasSec c 8
  { c with
    settings := slotSettings c
    startWarm := hasSec c 1 && c.startWarm, autoRun := hasSec c 1 && c.autoRun
    prog := if a then c.prog else [], pool := if a then c.pool else [], table := if a then c.table else []
    budget := if a then c.budget else 0, initMem := if a then c.initMem else [], mig := if a then c.mig else default
    pmap := if hasSec c 7 then c.pmap else [], pmapCrc := if hasSec c 7 then c.pmapCrc else 0
    stationGroup := if b then c.stationGroup else 0, stationKey := if b then c.stationKey else none
    oemSources := if b then c.oemSources else [], eth := if b then c.eth else {}, points := if b then c.points else []
    start := if hasSec c 9 then c.start else [], startWords := if hasSec c 9 then c.startWords else [] }

/-- The bits of a register that a setting reaches: those of its mask, of a routing word those of sources that exist, and of the
configuration word of a reserved source none (R403, R409). -/
def settingMask (s : State) (a : Nat) : Word :=
  if aLE + 0xC00 ≤ a ∧ a < aLE + 0xC44 then
    bits32 (fun j => srcPresent s (8 * (a - (aLE + 0xC00)) + j))
  else if aIC ≤ a ∧ a < aIC + 4 * 544 ∧ !srcPresent s ((a - aIC) / 4) then 0
  else (regInfo a).mask

/-- Settings that address a register of the present module, as a table of registers at their reset values otherwise (R341). -/
def settingsTable (s : State) (l : List (Word × Word)) : SMap Word :=
  mputs regReset [] ((l.filter (fun p => decide ((regInfo p.1.toNat).cls ≠ .none))).map
    (fun p => (p.1.toNat, p.2 &&& settingMask s p.1.toNat)))

/-- The module as it would be under settings. -/
def underSettings (s : State) (l : List (Word × Word)) : State :=
  { s with regs := { written := settingsTable s l, force := settingsTable s l } }

/-! ### The checks of R342 -/

/-- The periods of R12. -/
def okPeriod (p : Nat) : Bool := decide (periodIdx p < 26)

/-- R140: an enabled equation targets a channel that is no output, or names an absent channel as a literal. -/
def badEquation (s : State) (e : Nat) : Bool :=
  let cfg := force s (aRFX + 0x100 + 4 * e)
  let g := fld cfg 0 5
  rfxEn s e && ((List.range 8).any (fun i => fbit cfg (8 + i) && (decide (nCh s ≤ 8 * g + i) || !isOut s (8 * g + i)))
    || (List.range 8).any (fun t => fbit cfg (24 + t) && (List.range 8).any (fun l =>
      let w := rfxLit s e t l
      decide (0x8000 ≤ w) && decide (w % 512 < 256) && decide (nCh s ≤ w % 512))))

/-- START, LEN and GUARD of node `k` in µs. -/
def nodeSpan (s : State) (k : Nat) : Nat × Nat × Nat :=
  (nodeStart s k, fld (nodeCfg s k 8) 0 16, fld (nodeCfg s k 8) 16 8)

/-- The worst-case end of the reference frame and the output frames of bus `b`, in ns after T0 (R242, R245). -/
def outputsEnd (s : State) (b : Nat) : Nat :=
  (List.range 36).foldl (fun t i =>
    let k := 36 * b + i
    let cfg := nodeCfg s k 0
    if fbit cfg 0 && decide (0 < fld cfg 20 4) then
      let fd := fbit cfg 14 && fbit (canCfg s b 0) 2
      let n := dlcBytes (fld cfg 20 4)
      t + frameNs s b (fbit (nodeCfg s k 0x10) 29) fd (fd && fbit (canCfg s b 0) 3) (if fd then n else min 8 n)
    else t) (10000 + frameNs s b false false false 8)

/-- R245: the schedule of bus `b` breaks a constraint. -/
def badSchedule (s : State) (b : Nat) : Bool :=
  let p := fld (written s (aLE + 8)) 0 17
  let endUs := fld (canCfg s b 0x14) 0 17
  let ks := ((List.range 36).map (fun i => 36 * b + i)).filter (fun k => fbit (nodeCfg s k 0) 0)
  let fin := fun k => let x := nodeSpan s k; x.1 + x.2.1 + x.2.2
  fbit (canCfg s b 0) 5 &&
    (ks.any (fun i => ks.any (fun j =>
      (decide (nodeStart s i < nodeStart s j) || (decide (nodeStart s i = nodeStart s j) && decide (i < j)))
        && decide (nodeStart s j < fin i)))
    || ks.any (fun k => decide (1000 * nodeStart s k ≤ outputsEnd s b))
    || (!ks.isEmpty && decide (endUs ≠ (ks.map fin).foldl max 0))
    || decide (p < endUs + 5)
    || decide (1000 * (p + 5 - endUs) < frameNs s b false false false 8))

/-- R228: the nominal rate of bus `b` lies outside 125 kbit/s to 1 Mbit/s, or its data-phase rate above 5 Mbit/s. -/
def badRates (s : State) (b : Nat) : Bool :=
  let n := bitPs (canCfg s b 4)
  let d := bitPs (canCfg s b 8)
  decide (canMode s b ≠ 0) && (!within n 1000000 8000000 || (fbit (canCfg s b 0) 2 && fbit (canCfg s b 0) 3 && decide (d < 200000)))

/-- The panel's voltages break R383. -/
def badPanel (s : State) : Bool :=
  let dc := pnlCfg s 0xC 0 9
  let sw := pnlCfg s 0xC 16 9
  let a := pnlCfg s 0x2C 16 9
  !within dc 200 400 || decide (150 < sw) || decide (600 < dc + sw + a) || decide (dc < sw + a)
  || (List.range 8).any (fun i => decide (300 < pnlCfg s (0x10 + 4 * i) 0 9) || decide (300 < pnlCfg s (0x10 + 4 * i) 16 9))
  || !within (pnlCfg s 8 1 6) 1 60

/-- A field of the settings lies outside the range or among the reserved codes of its register table (R342). -/
def badField (s : State) : Bool :=
  let pr := force s aPAIR
  let tc := force s (aTIME + 0x1C)
  !okPeriod (fld (written s (aLE + 8)) 0 17) || decide (fld (force s (aLE + 0x1C)) 24 4 = 0)
  || decide (fld (force s aSLC) 0 8 = 0)
  || (hasTwin s && (decide (fld pr 1 4 = 0) || decide (fld pr 5 8 < 4) || !within (fld pr 16 7) 1 100))
  || decide (fld tc 0 2 = 2) || !within (fld tc 16 9) 1 500 || !within (fld tc 25 5) 1 20
  || (List.range (nGroups s)).any (fun g =>
    !within (fld (force s (aGRP g)) 0 8) 100 250 || decide (2500 < fld (force s (aGRP g + 0x10)) 0 12))
  || (List.range 272).any (fun n => decide (fcuReact s n = 3)) || (List.range 272).any (fun n => decide (fcuReact s (272 + n) = 3))
  || (List.range 8).any (fun k => decide (twdTimeout s k = 0))
  || (List.range (nNodes s)).any (fun k =>
    let c := nodeCfg s k 0
    decide (fld c 24 8 = 0) || decide (fld (nodeCfg s k 8) 24 4 = 0) || decide (2 ^ fld c 1 3 ≤ fld c 4 7))
  || !within (fld (force s (aNV + 0x64)) 0 12) 10 3600
  || (List.range 64).any (fun e => (List.range 64).any (fun i =>
    decide (272 ≤ rfxLit s e (i / 8) (i % 8) % 512)))
  || (List.range 4).any (fun u =>
    !within (fld (uartCfg s u 4) 0 18) 300 230400 || decide (fld (uartCfg s u 0xC) 0 8 = 0)
      || decide (100 < fld (uartCfg s u 0xC) 0 8) || decide (fld (uartCfg s u 0xC) 8 8 = 0)
      || decide (fld (uartCfg s u 8) 16 4 = 0) || decide (fld (uartCfg s u 0) 2 2 = 3))
  || (hasPanel s && badPanel s)

/-- A value breaks R140, R144, R245, R228 or a range (R342). -/
def badContent (s : State) : Bool :=
  badField s || (List.range (nCh s)).any (chCfgErr s) || (List.range 64).any (badEquation s)
  || (List.range (nBus s)).any (fun b => badSchedule s b || badRates s b)

/-- The register of group `g`'s sequence lies at offset `o` of the Sluice block. -/
def slcGroupAt (o : Nat) : Option Nat :=
  if 0x100 ≤ o ∧ o < 0x180 then some ((o - 0x100) / 4) else if 0x1000 ≤ o ∧ o < 0x2000 then some ((o - 0x1000) / 128) else none

/-- An event source of a unit that the variant lacks (R1, R4). -/
def srcAbsent (s : State) (n : Nat) : Bool :=
  srcPresent { s with fixed := { s.fixed with variant := 1 } } n && !srcPresent s n

/-- The setting uses an absent unit: its register belongs to the unit's block, to the sequence of an absent group, or to an absent
event source, which it sets up, routes to the image or gives a reaction; or it is a WAITIN step that names an absent channel (R1, R4, R7,
R171). -/
def usesAbsent (s : State) (a : Nat) (v : Word) : Bool :=
  absentAddr s a
  || (decide (aSLC + 0x1000 ≤ a ∧ a < aSLC + 0x2000) && decide (fld v 0 4 = 6) && decide (nCh s ≤ fld v 4 8))
  || (decide (aSLC ≤ a ∧ a < aSLC + 0x2000) && (slcGroupAt (a - aSLC)).any (fun g => decide (nGroups s ≤ g)))
  || (decide (aIC ≤ a ∧ a < aIC + 4 * 544) && srcAbsent s ((a - aIC) / 4))
  || (decide (aLE + 0xC00 ≤ a ∧ a < aLE + 0xC44) && (List.range 32).any (fun j =>
    fbit v j && srcAbsent s (8 * (a - (aLE + 0xC00)) + j)))
  || (decide (aFCU + 0x100 ≤ a ∧ a < aFCU + 0x188) && (List.range 16).any (fun j =>
    decide (fld v (2 * j) 2 ≠ 0) && srcAbsent s (4 * (a - (aFCU + 0x100)) + j)))

/-- The header or a zero field is wrong, or the variant is not permitted. DESIGN CHOICE (log 117): so is a GENERATION outside the range
of R340, which R342 does not name. -/
def badHeader (s : State) (c : CfgSlot) : Bool :=
  let n := slotField c 6 2
  let v := BitVec.ofNat 8 (slotField c 16 1)
  decide (slotMagic c ≠ 0x5A3CC0F6) || decide (slotField c 4 2 ≠ 1) || !within n 1 16
    || !within (slotLen c) (32 + 16 * n + 68) 16777216 || !within (slotGen c).toNat 1 0xFFFFFFFE
    || !zeroBytes c.bytes 17 20 || !zeroBytes c.bytes 24 32 || decide (v &&& 0xF1 ≠ 0) || !v.getLsbD s.fixed.variant.toNat
    || (slotSections c).any (fun x => decide (x.zero ≠ 0))

/-- A section breaks its CRC, lies outside LENGTH, overlaps another, repeats an ID or names an unknown one. DESIGN CHOICE (log 117): a slot
without the required SYSTEM section counts here. -/
def badSections (c : CfgSlot) : Bool :=
  let l := slotSections c
  !hasSec c 1 || decide ¬(l.map (·.id)).Nodup
    || l.any (fun x => !within x.id 1 9 || decide (slotLen c < x.off + x.size)
      || decide ((byteCrc (bytesAt c.bytes x.off x.size)).toNat ≠ x.crc)
      || l.any (fun y => decide (x.id ≠ y.id) && overlap x.off x.size y.off y.size))

/-- The result of a slot (R342): the first check that fails. -/
def slotResult (s : State) (c : CfgSlot) : Nat :=
  let d := slotContent c
  if slotMagic c = 0xFFFFFFFF then 1
  else if badHeader s c then 2
  else if slotCheck c ≠ slotCrc c then 3
  else if badSections c then 4
  else if c.sigOk = false then 5
  else if d.settings.any (fun p => usesAbsent s p.1.toNat p.2) || d.oemSources.any (fun p => srcAbsent s p.1.toNat) then 6
  else if badContent (underSettings s d.settings) || !within (d.eth.ptpLog + 3).toNat 0 4 || decide (d.eth.ptpLog < -3) then 7
  else 0

/-! ### Writing slots (R343) -/

/-- A slot of the store. -/
def slotOf (s : State) (i : BitVec 1) : CfgSlot := if i = 0 then s.sys.slot0 else s.sys.slot1

/-- A slot of the store takes new contents. -/
def slotPut (i : BitVec 1) (c : CfgSlot) (s : State) : State :=
  if i = 0 then { s with sys := { s.sys with slot0 := c } } else { s with sys := { s.sys with slot1 := c } }

/-- The slot without the last `n` bytes of its LENGTH, which read erased; its signature does not verify. -/
def slotCut (n : Nat) (c : CfgSlot) : CfgSlot := { c with bytes := c.bytes.take (slotLen c - n), sigOk := false }

/-- A slot with GENERATION `g`, and the check word that goes with it (R340, R343). -/
def slotStamp (g : Word) (c : CfgSlot) : CfgSlot :=
  let d := { c with bytes := putBytes c.bytes 8 (byteList 4 g.toNat) }
  if within (slotLen c) 68 16777216 then
    { d with bytes := putBytes d.bytes (slotLen c - 68) (byteList 4 (slotCrc d).toNat) } else d

/-- A slot write begins with the header and the sections (R343). -/
def slotWrite (i : BitVec 1) (pulled : Bool) (c : CfgSlot) (s : State) : State :=
  let s1 := slotPut i (slotCut 68 c) s
  { s1 with sys := { s1.sys with slotWr := some { slot := i, stage := 0, cfg := c, pulled := pulled } } }

/-- A slot write goes on: the check word, then the signature, each in a cycle of its own (R343, log 117); the reset that takes a
pulled slot up follows (R224). -/
def slotStep (s : State) : State :=
  match s.sys.slotWr with
  | none => s
  | some w =>
    if w.stage = 0 then
      let s1 := slotPut w.slot (slotCut 64 w.cfg) s
      { s1 with sys := { s1.sys with slotWr := some { w with stage := 1 } } }
    else
      let s1 := slotPut w.slot w.cfg s
      let s2 := { s1 with sys := { s1.sys with slotWr := none } }
      if w.pulled then callReset 5 s2 else s2

/-- RESULT is reported: the update source fires, and a notice of KIND UPDATE is written (R368). -/
def updNote (r : Nat) (s : State) : State :=
  fire 493 s.time.ns (notice 0x0D 493 r s.upd.seq { s with upd := { s.upd with result := BitVec.ofNat 8 r } })

/-- CONFIG_SLOT_WRITE: the vendor base writes the slot not in use for a session that holds ENGINEER, with GENERATION one above the slot in
use (R278, R343); refused with BUSY while an update is under way (R360, R368). -/
def execConfigSlotWrite (slot : CfgSlot) (s : State) : Out :=
  if !cpRuns s || !sessionHolds s 4 then .next s
  else if updBusy s then .next (updNote 21 s)
  else .next (slotWrite (s.sys.slotUse + 1) false (slotStamp (s.sys.gen + 1) slot) s)

/-! ### The pull of a partner's configuration (R224) -/

/-- The newest valid slot of the module. -/
def newestSlot (s : State) : Option CfgSlot :=
  let l := [s.sys.slot0, s.sys.slot1].filter (fun c => decide (slotResult s c = 0))
  l.foldl (fun b c => match b with
    | none => some c
    | some d => if (slotGen d).toNat < (slotGen c).toNat then some c else some d) none

/-- The slot that a pulled configuration replaces: never the slot in use, and on factory defaults, where none is, the one of the lower
GENERATION, an EMPTY or BAD_HEADER slot before any other (R224, R343). -/
def olderSlot (s : State) : BitVec 1 :=
  let g := fun (c : CfgSlot) => if slotResult s c = 1 ∨ slotResult s c = 2 then 0 else (slotGen c).toNat
  if s.sys.cfgDefaulted then (if g s.sys.slot0 < g s.sys.slot1 then 0 else 1) else s.sys.slotUse + 1

/-- CFG_REQ: the active sends its newest valid slot, with the link capacity that epochs leave free (log 86). -/
def execCfgReq (h : FrameHdr) (s : State) : Out :=
  .next (settle (onFrame true h (fun a =>
    match a.pair.role, newestSlot a with
    | .active, some c => sendLow (.frame .cfgEnd) (sendLow (.frame (.cfgData c)) a)
    | _, _ => a) s))

/-- CFG_DATA: a module that may pull keeps what it receives. -/
def execCfgData (h : FrameHdr) (slot : CfgSlot) (s : State) : Out :=
  .next (settle (onFrame true h (fun a =>
    if a.pair.role = .undecided then { a with pair := { a.pair with cfgPull := some slot } } else a) s))

/-- CFG_END: a slot that passes its checks is written into the older slot, and the module resets with cause SOFT; otherwise it
stays UNDECIDED, with SIG_FAIL and a notice. DESIGN CHOICE (log 118): the slot stands as received, with the GENERATION that its signature
and the partner's check word cover. -/
def execCfgEnd (h : FrameHdr) (s : State) : Out :=
  .next (settle (onFrame true h (fun a =>
    match a.pair.cfgPull with
    | some c =>
      let a1 := { a with pair := { a.pair with cfgPull := none, pullSent := false } }
      if slotResult a c = 0 then slotWrite (olderSlot a) true c a1
      else pairNotice 434 (pairResult 2 6 a1)
    | none => a) s))

end Sys2Proof.Machine
end

