-- ==== Sys2Proof/Machine/Update.lean ====
section
/-! DEFINITION. Updating in the field: staging, the decision, activation, probation, confirmation and fallback (15). -/

namespace Sys2Proof.Machine

/-- STATE and RESULT; a change of STATE is reported. -/
def updTo (p : UpdPhase) (r : Nat) (s : State) : State :=
  if s.upd.phase = p then { s with upd := { s.upd with result := BitVec.ofNat 8 r } }
  else updNote r { s with upd := { s.upd with phase := p } }

/-- A message of the vendor base leaves for the partner's CP (R200, R360). -/
def cpSend (m : CpMsg) (s : State) : State := if linkOpen s then sendLow (.frame (.cpMsg m)) s else s

/-- The ACTIVE module sends it. -/
def activeSend (m : CpMsg) (s : State) : State := if s.pair.role = .active then cpSend m s else s

/-- The staged part of a type. -/
def partOf (s : State) (type : Nat) : Option Part := (updParts s).find? (fun p => decide (p.type = type))

/-- The bit of a part type in VERIFIED. -/
def typeBit (type : Nat) : BitVec 6 := 1#6 <<< (type - 1)

/-- Every part of the set has its bit in `m`. -/
def coversSet (s : State) (m : BitVec 6) : Bool := (updParts s).all (fun p => m.getLsbD (p.type - 1))

/-- The set has a part of one of the types. -/
def hasPart (s : State) (l : List Nat) : Bool := (updParts s).any (fun p => l.contains p.type)

/-! ### Manifests (R354, R356) -/

/-- The form of a part: its TYPE and TARGET, and zero bytes (R354, R355). -/
def partForm (p : Part) : Bool :=
  within p.type 1 6 && decide (p.target ≤ if p.type = 1 ∨ p.type = 2 ∨ p.type = 4 then 1 else 0) && decide (p.zero = 0)

/-- The form of R355. -/
def manifestForm (m : ManifestMsg) : Bool :=
  let n := manField m 6 1
  decide (manField m 0 4 = 0x5A3C0D15) && decide (manField m 4 2 = 1) && within n 1 6 && decide (manFlags m < 4)
    && within (manSeq m).toNat 1 0xFFFFFFFE && decide (BitVec.ofNat 8 (manField m 38 1) &&& 0xF1 = 0)
    && within (manField m 39 1) 1 15 && within (manConfirm m) 1 10080 && zeroBytes m.bytes 42 48
    && decide (m.bytes.length = 48 + 48 * n + 64) && (manParts m).all partForm && decide (((manParts m).map (·.type)).Nodup)

/-- A part names the bank or slot that is free (R354). -/
def targetFree (s : State) (p : Part) : Bool :=
  if p.type = 1 ∨ p.type = 2 then decide (p.target ≠ s.upd.bank.toNat)
  else if p.type = 4 then decide (p.target ≠ s.sys.slotUse.toNat) else true

/-- A length exceeds R354. -/
def tooLarge (m : ManifestMsg) : Bool :=
  (manParts m).any (fun p => decide ((match p.type with | 1 => 2097152 | 2 => 1835008 | 4 => 16777216 | _ => 33488896) < p.length))
  || decide (33488896 < ((manParts m).filter stagedPart).foldl (fun n p => n + p.length) 0)

/-- The code with which a manifest is refused, the first of R368 that applies; 0 accepts it. DESIGN CHOICE (log 119): while a set has
been decided, or is in probation or falling back, no other manifest is taken, with BUSY. -/
def manifestCode (s : State) (m : ManifestMsg) : Nat :=
  let has := fun (t : Nat) => (manParts m).any (fun p => decide (p.type = t))
  let a := (s.fixed.serial.toNat)
  if !manifestForm m then 1
  else if !m.sigOk then 2
  else if a ≠ manField m 20 8 ∧ (a ≠ manField m 28 8 ∨ manField m 28 8 = 0) then 3
  else if !(BitVec.ofNat 8 (manField m 38 1)).getLsbD s.fixed.variant.toNat then 4
  else if !(manParts m).all (targetFree s) then 5
  else if tooLarge m then 6
  else if (manSeq m).toNat ≤ s.upd.confSeq.toNat then 7
  else if (has 3 || has 5 || has 6) && !has 4 then 10
  else if s.upd.decided ∨ s.upd.phase = .probation ∨ s.upd.phase = .fallingBack then 21
  else 0

/-- A part of the old manifest stays staged under the new one (R356). -/
def partKept (m : ManifestMsg) (p : Part) : Bool :=
  (manParts m).any (fun q => decide (q.type = p.type) && decide (q.target = p.target) && decide (q.hash = p.hash))

/-- The bytes of the staging area, moved to where the new manifest's order puts the parts that are kept. -/
def stagingMove (old new : List Part) (kept : List Part) (m : SMap Byte) : SMap Byte :=
  mputs (fun _ => 0xFF) [] ((kept.filter stagedPart).flatMap (fun p =>
    (m.filter (fun q => within q.1 (stagedAt old p.type) (stagedAt old p.type + p.length - 1) && decide (0 < p.length))).map (fun q =>
      (q.1 - stagedAt old p.type + stagedAt new p.type, q.2))))

/-- The number of the activation tick: the first whole multiple of 128 whose T0 is at or after ACT_TIME (R361). -/
def actTickOf (s : State) (actTime : Nat) : Nat :=
  let p := 1000 * s.tick.period
  ceilTo (s.tick.num + (actTime * 1000000000 - s.tick.t0 + p - 1) / p) 128

/-- All parts are VERIFIED: the module becomes ARMED, or stays STAGED with TIME_INVALID or TOO_LATE (R361). -/
def updArm (s : State) : State :=
  let a := actTickOf s ((s.upd.man.map (fun m => manField m 12 8)).getD 0)
  let s1 := { s with upd := { s.upd with actTick := a } }
  if !s.time.valid ∨ !tickRuns s then updNote 11 { s with upd := { s.upd with phase := .staged } }
  else if actT0 s1 < s.time.ns + 61000000000 then updNote 12 { s with upd := { s.upd with phase := .staged } }
  else updTo .armed 0 { s1 with upd := { s1.upd with
    decided := false, goSent := false, migDone := false, partnerReady := none, armSec := 0 } }

/-- The set is complete. -/
def armIfStaged (s : State) : State :=
  if s.upd.man.isSome ∧ coversSet s s.upd.verified then updArm s else s

/-- An activation that stands armed is withdrawn: CANCEL goes to the nodes, for the activation that they know (R253). -/
def withdraw (s : State) : State := if s.upd.phase = .armed then queueActivate 3 s else s

/-- A manifest arrives: refused with its code, or accepted, with equal parts kept (R356). -/
def manifestTake (m : ManifestMsg) (s0 : State) : State :=
  let code := manifestCode s0 m
  if code ≠ 0 then updNote code s0
  else
    let s := withdraw s0
    let kept := (updParts s).filter (partKept m)
    let is := fun (t : Nat) => kept.any (fun p => decide (p.type = t))
    let keep := fun (v : BitVec 6) => (List.range 6).foldl (fun v t => if is (t + 1) then v else v &&& ~~~(1#6 <<< t)) v
    let s1 := { s with upd := { s.upd with
      man := some m, seq := manSeq m, fmtNew := manFmt m
      chunks := s.upd.chunks.filter (fun c => is c.1), verified := keep s.upd.verified, erased := keep s.upd.erased
      staging := stagingMove (updParts s) (manParts m) kept s.upd.staging
      tail := if is 4 then s.upd.tail else [], img := if kept.isEmpty then none else s.upd.img, actTick := 0 } }
    activeSend (.manifest m) (armIfStaged (updTo .staging 0 s1))

/-- MANIFEST, from a session that holds ENGINEER (R278, R356). -/
def execManifest (m : ManifestMsg) (s : State) : Out :=
  if cpRuns s && sessionHolds s 4 then .next (manifestTake m s) else .next s

/-! ### Chunks (R357, R358) -/

/-- The bank of the CP flash that a part goes to. -/
def partBank (p : Part) : BitVec 1 := BitVec.ofNat 1 p.target

/-- The CP flash word at which a part of the CP firmware starts (R260, R354). -/
def partWord (p : Part) : Nat := 0x100000 * p.target + if p.type = 2 then 0x80000 else 0

/-- The sectors that the target of a part of the CP firmware covers: the vendor base area or the OEM partition of the bank not running,
and the sector of its bank header, which is left erased (R359). -/
def partSectors (p : Part) : List Nat :=
  let b := 64 * p.target
  if p.type = 1 then (List.range 32).map (b + ·) ++ [b + 63]
  else if p.type = 2 then (List.range 28).map (b + 32 + ·) ++ [b + 63] else []

/-- Before a part's first chunk its target is erased and marked: flash sectors are counted, the bank header reads erased, and the slot no
longer holds a configuration (R357, R359). The part's bits are clear. -/
def eraseTarget (p : Part) (s : State) : State :=
  let l := partSectors p
  let old := stagedAt (updParts s) p.type
  let s1 := flWear l { s with
    nv := { s.nv with
      flash := s.nv.flash.filter (fun q => !l.contains (q.1 / 16384))
      flOpen := s.nv.flOpen.filter (fun p => !l.contains (if p.1 then p.2 else p.2 / 2048)) }
    upd := { s.upd with
      chunks := s.upd.chunks.filter (fun c => decide (c.1 ≠ p.type)), erased := s.upd.erased ||| typeBit p.type
      tail := if p.type = 4 then [] else s.upd.tail
      staging := if stagedPart p then s.upd.staging.filter (fun q => !within q.1 old (old + p.length - 1)) else s.upd.staging } }
  if p.type = 4 then slotPut (BitVec.ofNat 1 p.target) default s1
  else bankVerdict (partBank p) (if p.type = 1 then some false else none) (if p.type = 2 then some false else none) s1

/-- The bytes of a slot as staged: its target, and its last 68 bytes in the staging area (R359). -/
def stagedSlot (s : State) (p : Part) : List Byte :=
  bytesAt (slotOf s (BitVec.ofNat 1 p.target)).bytes 0 (p.length - 68) ++ bytesAt s.upd.tail 0 68

/-- The staged bytes of a part. -/
def partBytes (s : State) (p : Part) : List Byte :=
  if p.type = 1 ∨ p.type = 2 then
    (List.range p.length).map (fun i =>
      BitVec.ofNat 8 (fld (mget (fun _ => 0xFFFFFFFF) s.nv.flash (partWord p + i / 4)) (8 * (i % 4)) 8))
  else if p.type = 4 then (stagedSlot s p).take p.length
  else (List.range p.length).map (fun i => mget (fun _ => 0xFF) s.upd.staging (stagedAt (updParts s) p.type + i))

/-- The slot that the set stages, as it stands after GO. -/
def updSlot (s : State) : Option CfgSlot :=
  match partOf s 4, s.upd.img with
  | some p, some g => some { g.slot with bytes := (stagedSlot s p).take p.length }
  | _, _ => none

/-- Every bit of a part is set: VERIFIED where its SHA-256 matches, and HASH_FAIL otherwise, with the part to be sent again; a slot is
checked under R342 too (R358). What was verified stays without its check word and signature until GO (R359). -/
def partDone (p : Part) (s : State) : State :=
  let ok : State → State := fun a => armIfStaged { a with upd := { a.upd with verified := a.upd.verified ||| typeBit p.type } }
  if bytesBE (sha256 (partBytes s p)) ≠ p.hash then eraseTarget p (updNote 8 s)
  else if p.type = 4 then
    match updSlot s with
    | some c => if slotResult s c = 0 then ok (slotPut (BitVec.ofNat 1 p.target) (slotCut 68 c) s) else updNote 9 s
    | none => updNote 9 s
  else ok (bankVerdict (partBank p) (if p.type = 1 then s.upd.img.map (·.fwSig) else none)
    (if p.type = 2 then s.upd.img.map (·.oemSig) else none) s)

/-- The bytes of a chunk go to their target: the bank that does not run, the slot not in use without its last 68 bytes, or the staging area
(R260, R354, R357, R359). -/
def chunkStore (p : Part) (c : Nat) (data : List Byte) (s : State) : State :=
  if p.type = 1 ∨ p.type = 2 then flashPut (partWord p + 128 * c) data s
  else if p.type = 4 then
    let i : BitVec 1 := BitVec.ofNat 1 p.target
    let here := data.take (p.length - 68 - 512 * c)
    let rest := data.drop (p.length - 68 - 512 * c)
    let s1 := if here = [] then s else slotPut i { slotOf s i with bytes := putBytes (slotOf s i).bytes (512 * c) here } s
    { s1 with upd := { s1.upd with
      tail := if rest = [] then s.upd.tail else putBytes s.upd.tail (512 * c + here.length - (p.length - 68)) rest } }
  else
    let o := stagedAt (updParts s) p.type + 512 * c
    { s with upd := { s.upd with
      staging := (List.range data.length).foldl (fun m i => mput (fun _ => 0xFF) m (o + i) (data.getD i 0)) s.upd.staging } }

/-- A chunk arrives; one with a bad CRC, or outside its part, is discarded, and so is one of a part that is complete. An accepted chunk is
written to its target, and its bit is programmed once it reads back. An erase of the target that was abandoned is repeated first
(R324, R357). -/
def chunkTake (type : BitVec 4) (c : Nat) (data : List Byte) (crc : Word) (readOk : Bool) (img : Option UpdImage) (s : State) : State :=
  match partOf s type.toNat with
  | some p =>
    let n := partChunks p
    let want := if c + 1 = n then p.length - 512 * c else 512
    if decide (byteCrc data ≠ crc) || decide (n ≤ c) || decide (data.length ≠ want) || s.upd.verified.getLsbD (p.type - 1)
        || !(s.upd.phase = .staging || s.upd.phase = .staged) then s
    else
      let fresh := !s.upd.erased.getLsbD (p.type - 1) || (partSectors p).any (fun k => s.nv.flOpen.contains (true, k))
      let s1 := chunkStore p c data (if fresh then eraseTarget p s else s)
      let s2 := { s1 with upd := { s1.upd with
        busy := true, img := if img.isSome then img else s1.upd.img
        chunks := if readOk then addNew (p.type, c) s1.upd.chunks else s1.upd.chunks } }
      let full := decide (n ≤ (s2.upd.chunks.filter (fun q => decide (q.1 = p.type))).length)
      activeSend (.chunk type c data crc true img) (if full then partDone p s2 else s2)
  | none => s

/-- CHUNK, from a session that holds ENGINEER (R278). -/
def execChunk (type : BitVec 4) (c : Nat) (data : List Byte) (crc : Word) (readOk : Bool) (img : Option UpdImage) (s : State) : Out :=
  if cpRuns s && sessionHolds s 4 then .next (chunkTake type c data crc readOk img s) else .next s

/-! ### The decision (R362, R367) -/

/-- The target of part 4. -/
def updTarget (s : State) : BitVec 1 := ((partOf s 4).map (fun p => BitVec.ofNat 1 p.target)).getD s.sys.slotUse

/-- The settings of the set, as a table of registers. -/
def newTable (s : State) (c : CfgSlot) : SMap Word := settingsTable s (slotSettings c)

/-- The tick period under the new set, in µs. -/
def newPeriod (s : State) : Nat :=
  match updSlot s with
  | some c => fld (mget regReset (newTable s c) (aLE + 8)) 0 17
  | none => s.tick.period

/-- The module with the program of the new set in its program store. -/
def withProgram (c : CfgSlot) (s : State) : State :=
  { s with mem := { s.mem with
    prog := mputs (fun _ => 0) [] (slotContent c).prog
    pool := mputs (fun _ => ((0 : Word), (0 : Word))) [] (slotContent c).pool
    upset := s.mem.upset.filter (fun p => !within p.1 (progKey 0) (poolKey 0xFFF)) } }

/-- The decision point d = a − max(2, ceil(10,000 µs / P)). -/
def decisionTick (s : State) : Nat := s.upd.actTick - max 2 ((10000 + s.tick.period - 1) / s.tick.period)

/-- The code with which the decision cancels; 0 is GO. -/
def decisionCode (s : State) : Nat :=
  let slice := (newPeriod s - 12) * 360
  let pr := match s.upd.partnerReady with
    | some (t, q) => decide (q = s.upd.seq) && decide (s.time.cyc ≤ t + cycSec 2)
    | none => false
  let prog := match updSlot s with
    | some c =>
      let s1 := withProgram c s
      let d := slotContent c
      if slice < d.budget.toNat then 13
      else if migTooLarge s1 d.mig then 14
      else if slice < migCycles s1 d.mig + fld (force s (aLE + 0x24)) 0 26 then 14
      else 0
    | none => 0
  if !coversSet s s.upd.verified then 10
  else if prog ≠ 0 then prog
  else if s.pair.role = .active ∧ (s.upd.man.map manFlags).getD 0 / 2 % 2 = 0
      ∧ ¬ (s.pair.partnerRole = .standby ∧ s.pair.partnerState = some .shadow ∧ s.pair.partnerCurrent = true ∧ pr = true) then 15
  else 0

/-- NV_FMT_KEEP. -/
def fmtKeep (s : State) : Word := force s (aNV + 0x60)

/-- The bit of a record format. -/
def fmtBit (f : BitVec 4) : Word := 1#32 <<< f.toNat

/-- The update-state record; its layout is internal to the vendor base (log 31). -/
def updRec (s : State) : NvReq := {
  key := 0x0030, fmt := ownFmt s, crit := true, data := [s.upd.result], seq := 0 }

/-- The bank that the set's firmware goes to. -/
def newBank (s : State) : Option (BitVec 1) := ((updParts s).find? (fun p => within p.type 1 2)).map partBank

/-- A set that carries only one of types 1 and 2 leaves the other part of the firmware as it is: the new bank takes it from the bank that
runs, so that it holds one complete firmware set (R260). DESIGN CHOICE (log 119). -/
def completeBank (b : BitVec 1) (s : State) : State :=
  let copy := fun (type first words : Nat) (a : State) =>
    if hasPart s [type] then a
    else
      let from_ := 0x100000 * s.upd.bank.toNat + first
      let dst := 0x100000 * b.toNat + first
      let old := a.nv.flash.filter (fun p => !within p.1 dst (dst + words - 1))
      let new := (a.nv.flash.filter (fun p => within p.1 from_ (from_ + words - 1))).map (fun p => (p.1 - from_ + dst, p.2))
      { a with nv := { a.nv with flash := mputs (fun _ => 0xFFFFFFFF) old new } }
  let s1 := copy 2 0x80000 0x70000 (copy 1 0 0x80000 s)
  bankVerdict b (if hasPart s [1] then none else some (bankSig s s.upd.bank)) (if hasPart s [2] then none else some (oemSig s s.upd.bank)) s1

/-- GO: the update-state record, the slot's check word and signature, the bank header, and the formats to be kept. -/
def commitGo (s : State) : State :=
  let s1 := nvEnqueue (updRec s) { s with upd := { s.upd with decided := true } }
  let s2 := match updSlot s1 with
    | some c => slotPut (updTarget s1) c s1
    | none => s1
  let s3 := match newBank s with
    | some b => bankHeader b (bankSeq s s.upd.bank + 1) (completeBank b s2)
    | none => s2
  regPut s3 (aNV + 0x60) (fmtKeep s3 ||| ((fmtBit s.upd.fmtNew ||| fmtBit s.upd.fmtOld) &&& 0xFFFF))

/-- The update is cancelled: CANCEL goes to the nodes and the partner, and the module becomes STAGED. -/
def updCancelWith (r : Nat) (s : State) : State := updTo .staged r (activeSend .cancel (queueActivate 3 s))

/-- DECISION (R362). -/
def execDecision (s : State) : Out :=
  if decide (s.upd.phase = .armed) && !s.upd.decided && tickRuns s && decide (decisionTick s ≤ s.tick.num)
      && (decide (s.pair.role = .solo) || decide (s.pair.role = .active)) then
    let code := decisionCode s
    .next (if code ≠ 0 then updCancelWith code s
      else
        let s1 := commitGo s
        activeSend (.go s.upd.seq) { s1 with upd := { s1.upd with goSent := true } })
  else .next s

/-! ### Activation (R118, R363, R364) -/

/-- Every edit ends in IDLE with code SUPERSEDED (R118). DESIGN CHOICE (log 108): the code and source 475 follow also where no edit was
in progress. -/
def editSupersede (s : State) : State :=
  fire 475 s.time.ns { s with edit := { s.edit with
    phase := .idle, code := 0x0D, stagedSet := [], ranges := [], openRange := none, prev := [], changed := []
    migFwd := default, migBack := default, migDone := false, partnerPend := false } }

/-- The address belongs to the I/O fabric tables of part 5: channels, groups, reflex, Sluice, buses, and PAIR_DS. -/
def fabricAddr (a : Nat) : Bool :=
  within a 0x40090000 0x4009FFFF || within a 0x400C0000 0x400CFFFF || within a 0x40100000 0x40147FFF
  || within a 0x40200000 0x4021FFFF || within a (aPAIR + 0x40) (aPAIR + 0x5F)

/-- The address belongs to the registers that the PROGRAM section sets up: the windows of master 0 and the task watchdogs. -/
def programAddr (a : Nat) : Bool := within a (aPROT + 0x100) (aPROT + 0x1FF) || within a aWD (aWD + 0x1F)

/-- The settings of the registers chosen by `sel` give way to those of the slot. -/
def takeSettings (sel : Nat → Bool) (c : CfgSlot) (s : State) : State :=
  let new := (newTable s c).filter (fun p => sel p.1)
  let f := fun (m : SMap Word) => mputs regReset (m.filter (fun p => !sel p.1)) new
  { s with regs := { written := f s.regs.written, force := f s.regs.force } }

/-- A program's bundles and pool pages. -/
def progSize (t : List (Nat × BlockEntry)) : Nat × Nat :=
  t.foldl (fun n p => (n.1 + p.2.len.toNat, n.2 + p.2.poolCount.toNat)) (0, 0)

/-- The new program does not fit beside the old one, in the program store's bundles or the pool's pages (R364). -/
def noFit (s : State) (c : CfgSlot) : Bool :=
  let a := progSize s.edit.live
  let b := progSize (slotContent c).table
  hasPart s [3] && (decide (262144 < a.1 + b.1) || decide (64 < a.2 + b.2))

/-- The set resets the module (R364): RESTART, or a change of the tick period, of PAIR_CFG or of the persistent map, or a program that does
not fit. -/
def restarts (s : State) : Bool :=
  decide ((s.upd.man.map manFlags).getD 0 % 2 = 1) ||
    (match updSlot s with
     | some c =>
       decide (newPeriod s ≠ s.tick.period) || decide (mget regReset (newTable s c) aPAIR ≠ force s aPAIR)
         || decide ((slotContent c).pmap ≠ s.nv.pmap) || noFit s c
     | none => false)

/-- The migration table of the new program is applied at the seal of the last scan before the activation tick, by the copy engine, on the
module whose scans run; what it writes reaches the standby by Harvest (R119, R120, R362). DESIGN CHOICE (log 119): not where the
activation restarts the module, which goes on with the old program. -/
def migDueUpd (s : State) : Bool :=
  decide (s.upd.phase = .armed) && s.upd.decided && !s.upd.migDone && tickRuns s && inRun s && s.tick.scanDone && !s.le.running
    && decide (s.upd.actTick = s.tick.num + 1) && hasPart s [3] && !restarts s && !frozen s 2

/-- The copy engine applies the migration table of the new program. -/
def updMigrate (s : State) : State :=
  match updSlot s with
  | some c =>
    if migDueUpd s then
      let a := migRun (slotContent c).mig (withProgram c s)
      settle { a with upd := { a.upd with migDone := !frozen a 2 } }
    else s
  | none => s

/-- The new program is taken up: store, pool, block table, budget, identity; its migration table has been applied, or is now. -/
def takeProgram (c : CfgSlot) (s : State) : State :=
  let d := slotContent c
  let s0 := withProgram c s
  let s1 := if s.upd.migDone || receives s then s0 else migRun d.mig s0
  let s2 := regPut s1 (aLE + 0x24) (d.budget.zeroExtend 32)
  { s2 with
    edit := { s2.edit with live := mputs (fun _ => default) [] d.table }
    le := { s2.le with progId := slotProgId c, dataId := slotProgId c, newVersion := true }
    sys := { s2.sys with initMem := d.initMem } }

/-- The slot in use changes to the one that the set has written. -/
def takeSlot (c : CfgSlot) (s : State) : State :=
  { regPut s (aLE + 0x78) (slotProgId c) with
    sys := { s.sys with
      slotUse := updTarget s, gen := slotGen c, checkWord := slotCheck c
      result0 := if updTarget s = 0 then 0 else s.sys.result0, result1 := if updTarget s = 1 then 0 else s.sys.result1 } }

/-- A run-locked register (R9). -/
def isRwl (a : Nat) : Bool := decide ((regInfo a).cls = .rwl)

/-- The panel resources of part 6 take effect; a change of MODE, RATE, PNL_VCOM or PNL_GAMMA makes the next pass a full pass (R389). -/
def takePanel (c : CfgSlot) (s : State) : State :=
  let s1 := takeSettings (fun x => within x (aPNL + 8) (aPNL + 0xFF)) c s
  let chg := (List.range 10).any (fun i =>
    let a := aPNL + 8 + 4 * i
    let m : Word := if i = 0 then 0x7F else 0xFFFFFFFF
    decide (force s a &&& m ≠ force s1 a &&& m))
  { s1 with pnl := { s1.pnl with cfgFull := s.pnl.cfgFull || chg } }

/-- The settings of a set that lands without a restart (R363): the run-locked ones of its PROGRAM section with part 3 and of the fabric
tables of part 5, whose step words are stored with new parity (R190), and the panel resources of part 6. -/
def landSettings (s : State) : State :=
  match updSlot s with
  | some c =>
    let a := if hasPart s [3] then takeSettings (fun x => programAddr x && isRwl x) c s else s
    let b := if hasPart s [5] then
        let a1 := takeSettings (fun x => fabricAddr x && isRwl x) c a
        { a1 with slc := { a1.slc with parityBad := [] } }
      else a
    if hasPart s [6] then takePanel c b else b
  | none => s

/-- The rest of an activation without restart (R363): every edit is superseded, the program is taken up, the slot in use changes, and
the CP restarts. -/
def landRest (s : State) : State :=
  let a := editSupersede s
  let b := match updSlot s with
    | some c => takeSlot c (if hasPart s [3] then takeProgram c a else a)
    | none => a
  cpReset 4 { b with upd := { b.upd with bank := if hasPart s [1, 2] then s.upd.bank + 1 else s.upd.bank } }

/-- Probation begins (R365). -/
def probation (s : State) : State :=
  updTo .probation 0 { s with upd := { s.upd with
    probFrom := opCycles s, confirmed := 0, partnerConfirmed := false, healthCyc := s.time.cyc
    fatalCyc := s.time.cyc } }

/-- A module in RUN starts every group's table before a reset (R364). -/
def stopForReset (cause : BitVec 4) (s : State) : State :=
  callReset cause (if inRun s then slcStartTables s else s)

/-- The set lands now: its tick has begun, the decision has been GO, and no scan runs (R362, R363). -/
def actDue (s : State) : Bool :=
  decide (s.upd.phase = .armed) && s.upd.decided && tickRuns s && decide (s.upd.actTick ≤ s.tick.num) && !s.le.running

/-- The settings of the set that lands now, if it lands without a restart. -/
def actSettings (s : State) : State := if actDue s && !restarts s then landSettings s else s

/-- The set lands: without a restart, or by the reset of R364, which supersedes every edit too (R118). -/
def actLand (s : State) : State :=
  let s1 := probation s
  if restarts s then stopForReset 6 (editSupersede s1) else landRest s1

/-- ACTIVATION where a scan has overrun the boundary of the activation tick: the set lands as it ends, and the settings that change
begin to settle then (R117, R162, R363). -/
def execActivation (s : State) : Out :=
  if actDue s then
    let s1 := landSettings s
    .next (settle (actLand (if restarts s then s else settleChanged s false s1)))
  else .next s

/-! ### The boundary of a tick (R17) -/

/-- TICK_BOUNDARY (R17): the tick begins, settings take effect with those of a set that lands (R9, R363), the set or a swap lands
(R116, R118), and the inputs are latched. -/
def execTickBoundary (s : State) : Out :=
  if !boundaryDue s then .next s
  else
    let first := !s.tick.on
    let s0 := tickStep s
    let act := actDue s0
    let s1 := leBoundary (settingsTurn s first (actSettings (regLatch s0)))
    let s2 := if first then listenStart s1 else s1
    let s3 := if runDue s2 then mergeStanding (enterRun s2.pair.r220 s2) else s2
    let s4 := if act then actLand s3 else if swapDue s3 then swapNow s3 else s3
    let s5 := twdBoundary { s4 with wd := { s4.wd with bwdFrom := s4.time.cyc, bwdHalf := false } }
    .next (settle (shipStart (inputLatch (lagFollow s5))))

/-! ### Confirmation (R365) -/

/-- The set is confirmed: every new part, and in PAIR mode the partner has confirmed or is lost. -/
def updConfirmed (s : State) : Bool :=
  decide (s.upd.phase = .probation) && coversSet s s.upd.confirmed
    && (decide (s.pair.role ≠ .active) || s.upd.partnerConfirmed || !partnerAlive s)

/-- On confirmation the state returns to IDLE, and the old format is no longer kept (R365, R367). -/
def updFinish (s : State) : State :=
  if updConfirmed s then
    let s1 := if s.upd.fmtOld = s.upd.fmtNew then s else regPut s (aNV + 0x60) (fmtKeep s &&& ~~~fmtBit s.upd.fmtOld)
    let s2 := updTo .idle 17 { s1 with upd := { s1.upd with
      confSeq := s.upd.seq, fmtOld := s.upd.fmtNew, decided := false, busy := false, chunks := [], verified := 0
      man := none, img := none, staging := [], tail := [], erased := 0 } }
    if s.pair.role = .standby then cpSend (.confirmed s.upd.seq) s2 else s2
  else s

/-- The conditions under which the vendor base confirms parts 3 to 6. -/
def healthy (s : State) : Bool :=
  decide (s.upd.healthCyc + cycSec 60 ≤ s.time.cyc)
    && (if s.pair.role = .standby then decide (s.pair.mstate = .shadow) && s.pair.current else inRun s)

/-- The parts that the vendor base confirms now. -/
def vendorParts (s : State) : BitVec 6 :=
  let one := decide (s.upd.fatalCyc + cycSec 60 ≤ s.time.cyc)
  (if hasPart s [1] && one then 1 else 0) ||| (if healthy s then 0x3C else 0)

/-- CONFIRM: the vendor base confirms its own part, and those of the program and the tables. -/
def execConfirm (s : State) : Out :=
  if decide (s.upd.phase = .probation) && cpRuns s then
    .next (updFinish { s with upd := { s.upd with confirmed := s.upd.confirmed ||| vendorParts s } })
  else .next s

/-- OEM_CONFIRM: the OEM partition calls the confirm service. -/
def execOemConfirm (s : State) : Out :=
  if decide (s.upd.phase = .probation) && cpRuns s && s.cp.oemValid && !s.cp.oemStopped then
    .next (updFinish { s with upd := { s.upd with confirmed := s.upd.confirmed ||| 2 } })
  else .next s

/-! ### Fallback (R366) -/

/-- A fallback is called for; it acts at the next boundary. -/
def fallCall (r : Nat) (s : State) : State :=
  if s.upd.phase = .probation then updTo .fallingBack r { s with upd := { s.upd with fallNs := s.time.ns } } else s

/-- CONFIRM_TIMEOUT: the confirm window expires unconfirmed. -/
def execConfirmTimeout (s : State) : Out :=
  if alive s && decide (s.upd.phase = .probation) && decide (confirmLeft s = 0) then .next (fallCall 18 s) else .next s

/-- The new set is withdrawn from every later start: its bank is rejected, its slot loses its MAGIC, its record format is no longer kept,
and nothing of it stays staged (R366, R367). -/
def dropSet (s : State) : State :=
  let s1 := match partOf s 4 with
    | some p =>
      let i : BitVec 1 := BitVec.ofNat 1 p.target
      slotPut i { slotOf s i with bytes := putBytes (slotOf s i).bytes 0 [0, 0, 0, 0] } s
    | none => s
  let s2 := match newBank s with | some b => bankReject b s1 | none => s1
  let s3 := if s.upd.fmtOld = s.upd.fmtNew then s2 else regPut s2 (aNV + 0x60) (fmtKeep s2 &&& ~~~fmtBit s.upd.fmtNew)
  { s3 with upd := { s3.upd with
    decided := false, busy := false, chunks := [], verified := 0, man := none, img := none, staging := [], tail := [], erased := 0 } }

/-- FALLBACK: at the next tick boundary the new bank is rejected and the new slot loses its MAGIC; the partner is told, and
the module restarts on the previous set (R364, R366, R367). -/
def execFallback (s : State) : Out :=
  if decide (s.upd.phase = .fallingBack) && tickRuns s && decide (s.upd.fallNs < s.tick.t0) then
    .next (settle (stopForReset 7 (updTo .idle s.upd.result.toNat (cpSend .fallback (dropSet s)))))
  else .next s

/-! ### UPD_CMD (R368) -/

/-- CANCEL, before the decision point. -/
def updCancelOp (s : State) : State :=
  if s.upd.phase = .armed ∧ s.upd.decided = false then updCancelWith 16 s else s

/-- CONFIRM by command: every part of the set in probation is confirmed. -/
def updConfirmOp (s : State) : State :=
  if s.upd.phase = .probation then updFinish { s with upd := { s.upd with confirmed := 0x3F } } else s

/-- DISCARD, not in PROBATION: what is staged is dropped, with CANCEL to the nodes and to the partner where it stood armed. DESIGN CHOICE
(log 119): a set that the decision has committed is withdrawn from every later start, and in FALLING_BACK the fallback itself drops
it at the next boundary. -/
def updDiscardOp (s : State) : State :=
  if s.upd.phase = .probation ∨ s.upd.phase = .fallingBack then s
  else
    let s1 := if s.upd.phase = .armed then activeSend .cancel (withdraw s) else s
    let s2 := if s.upd.decided then dropSet s1 else s1
    updTo .idle 0 { s2 with upd := { s2.upd with
      man := none, chunks := [], verified := 0, img := none, actTick := 0, busy := false, staging := [], tail := [], erased := 0 } }

/-- UPD_CMD CANCEL. -/
def execUpdCancel (key : BitVec 16) (s : State) : Out :=
  cpRow (aSYS + 0x44) true s <| .next (if key = cmdKey then updCancelOp s else s)

/-- UPD_CMD CONFIRM. -/
def execUpdConfirm (key : BitVec 16) (s : State) : Out :=
  cpRow (aSYS + 0x44) true s <| .next (if key = cmdKey then updConfirmOp s else s)

/-- UPD_CMD FALLBACK. -/
def execUpdFallback (key : BitVec 16) (s : State) : Out :=
  cpRow (aSYS + 0x44) true s <| .next (if key = cmdKey then fallCall 19 s else s)

/-- UPD_CMD DISCARD. -/
def execUpdDiscard (key : BitVec 16) (s : State) : Out :=
  cpRow (aSYS + 0x44) true s <| .next (if key = cmdKey then updDiscardOp s else s)

/-! ### Messages between the CPs (R360, R362, R365, R366) -/

/-- A standby checks the CRC of a range that its partner has closed, and acknowledges it; the range then counts as downloaded here
too (R122, R124, log 85). -/
def editRangeTake (r : DlRange) (crc : Word) (s : State) : State :=
  if crc32c (rangeWords s r) = crc then
    sendLow (.frame (.rangeAck r.base r.pool)) { s with edit := { s.edit with
      phase := if s.edit.phase = .idle then .staged else s.edit.phase
      ranges := s.edit.ranges.filter (fun q => !(q.base = r.base && q.pool = r.pool)) ++ [r] } }
  else s

/-- A message of the partner's CP. -/
def cpMsgTake (p : CpMsg) (s : State) : State :=
  match p with
  | .manifest m => manifestTake m s
  | .chunk t c data crc readOk img => chunkTake t c data crc readOk img s
  | .ready q => { s with upd := { s.upd with partnerReady := some (s.time.cyc, q) } }
  | .go q =>
    if s.upd.phase = .armed ∧ s.upd.decided = false ∧ q = s.upd.seq then commitGo s else s
  | .cancel =>
    if s.upd.phase = .armed then
      (if s.upd.decided then updTo .idle 16 (dropSet s) else updTo .staged 16 s)
    else s
  | .confirmed q => if q = s.upd.seq then updFinish { s with upd := { s.upd with partnerConfirmed := true } } else s
  | .fallback => fallCall 19 s
  | .editRange b n pool crc => if receives s then editRangeTake { base := b, len := n, pool := pool, ack := true } crc s else s
  | .editStage k e => if receives s then { s with edit := { s.edit with
      phase := if s.edit.phase = .idle then .staged else s.edit.phase
      stagedSet := s.edit.stagedSet.filter (fun q => decide (q.1 ≠ k)) ++ [(k, e)] } } else s
  | .editPend on => if receives s then { s with edit := { s.edit with partnerPend := on } } else s
  | .other _ => s

/-- CP_MSG: lost while the CP is down. -/
def execCpMsg (h : FrameHdr) (p : CpMsg) (s : State) : Out :=
  .next (settle (onFrame true h (fun a => if cpRuns a then cpMsgTake p a else a) s))

end Sys2Proof.Machine
end

