-- ==== Sys2Proof/Machine/Power.lean ====
section
/-! DEFINITION. Power, resets and start-up: supply loss, module resets, the power-up sequence, starting and stopping the logic
engine, and deep sleep (07, 11, 12, 13, 14). -/

namespace Sys2Proof.Machine

/-! ### What a module reset leaves (R351, R292, R306, R348, R374) -/

/-- A channel through a reset: the terminal, the stored trims and their age, and the switching count stay. -/
def chanReset (c : ChanSt) : ChanSt := {
  raw := c.raw && decide (c.feMode ≠ 4), feMode := c.feMode, fePulsed := c.fePulsed, fePeriod := c.fePeriod, thrTrim := c.thrTrim, ilimTrim := c.ilimTrim, thrFirst := c.thrFirst
  calAgeMin := c.calAgeMin, calOverdue := c.calOverdue, calAborts := c.calAborts, cycles := c.cycles }

/-- A group through a reset: its supply and the limits of the Graduation monitor stay; a hard-off ends. -/
def grpReset (q : GrpSt) : GrpSt := {
  lost := q.lost, low := q.low, lowSeen := q.low, mv := q.mv, ma := q.ma, derated := q.deratedNew, deratedNew := q.deratedNew
  surgeCount := q.surgeCount }

/-- A lane through a reset: its module and signal pins stay. -/
def laneReset (x : LaneStat) : LaneStat := { sfp := x.sfp, los := x.los }

/-- The record in programming completes at once (R188). -/
def finishRec (s : State) : State :=
  match s.nv.cur with
  | some (r, twin) =>
    let s1 := if twin then twinAppend (some (mkRec r true)) (if twinFree s then s else openSec 2 true s)
      else logSaved r.key.toNat (headAppend true (some (mkRec r false)) s)
    { s1 with nv := { s1.nv with cur := none, level := s1.nv.level - 16 } }
  | none => s

/-- Every register at its reset value, except what the spec keeps over a module reset: the backup domain, the stores, the log,
the update state, the words of Q, M and T, the counts since power-up, and what the pins and field terminals show. -/
def afterReset (s0 : State) : State :=
  let s := eraseCut (finishRec s0)
  { State.reset with
    pending := s.pending
    fixed := s.fixed
    mem := {
      words := s.mem.words.filter (fun p => keptWord p.1), lgen := s.mem.lgen
      upset := s.mem.upset.filter (fun p => keptWord p.1 || decide (0x400000 ≤ p.1)) }
    le := {
      dataId := s.le.dataId, uncommitted := s.le.uncommitted, mhz := s.le.mhz, overTotal := s.le.overTotal, cyclesMax := s.le.cyclesMax, lsPasses := s.le.lsPasses }
    tick := { runid := s.tick.runid, runidFresh := s.tick.runidFresh }
    chan := mtab (fun _ => ({} : ChanSt)) (nCh s) (fun n => chanReset (ch s n))
    grp := mtab (fun _ => ({} : GrpSt)) (nGroups s) (fun g => grpReset (gr s g))
    slc := { hardoff := bits32 (fun g => (gr s g).hardOff) }
    pair := {
      seatB := s.pair.seatB, tokenIn := s.pair.tokenIn, lane0 := laneReset s.pair.lane0, lane1 := laneReset s.pair.lane1
      maxBlocks := s.pair.maxBlocks, takeovers := s.pair.takeovers, resyncs := s.pair.resyncs }
    time := { cyc := s.time.cyc }
    cp := {
      sram := s.cp.sram, oemValid := s.cp.oemValid, link := s.cp.link, usb := s.cp.usb, nonceGen := s.cp.nonceGen
      uart := mtab (fun _ => ({} : UartSt)) 4 (fun u => { lines := (ua s u).lines }) }
    fcu := {
      first := s.fcu.first, fatal := s.fcu.fatal, overflow := s.fcu.overflow, selfBit := s.fcu.selfBit
      selfReg := s.fcu.selfReg, corrected := s.fcu.corrected, contained := s.fcu.contained, fatalCount := s.fcu.fatalCount }
    prot := { violCount := s.prot.violCount }
    wd := {
      mainFailed := s.wd.mainFailed, backupFail := s.wd.backupFail, nCp := s.wd.nCp, nBackup := s.wd.nBackup
      nTask := s.wd.nTask, nClock := s.wd.nClock, nFatal := s.wd.nFatal, fatalTimes := s.wd.fatalTimes
      clkFailCyc := s.wd.clkFailCyc, clkBad := s.wd.clkBad, clkRestart := s.wd.clkRestart, devPpm := s.wd.devPpm
      bwdFrom := s.time.cyc }
    nv := {
      sectors := s.nv.sectors, level := s.nv.level, holdWritten := s.nv.holdWritten, holdLost := s.nv.holdLost
      eraseCut := s.nv.eraseCut, flash := s.nv.flash, flOpen := s.nv.flOpen, flErases := s.nv.flErases }
    btn := {
      scanRem := s.btn.scanRem, opMin := s.btn.opMin, pcycle := s.btn.pcycle, lastRound := s.btn.lastRound, minCyc := s.btn.minCyc
      nonceGen := s.btn.nonceGen, nonce := s.btn.nonce, savedHist := s.btn.savedHist, savedRing := s.btn.savedRing
      savedSerial := s.btn.savedSerial, savedEver := s.btn.savedEver, savedMin := s.btn.savedMin, savedPc := s.btn.savedPc
      savedCounts := s.btn.savedCounts }
    sys := {
      cause := s.sys.cause, wake := s.sys.wake, backupLost := s.sys.backupLost, backupOk := s.sys.backupOk
      powered := s.sys.powered, supplyLow := s.sys.supplyLow, slot0 := s.sys.slot0, slot1 := s.sys.slot1
      fatalHold := s.sys.fatalHold }
    upd := { s.upd with actTick := 0 }
    grd := { s.grd with
      code := min 21 (s.grd.code + 2), monthCode := max s.grd.monthCode (min 21 (s.grd.code + 2)), clockPend := none, codePend := none, evalCyc := s.time.cyc, worst := 0xFF, canary := 0
      horizon := 4095, urgentSeen := false, urgentTick := none, base := 0, die := 0, sramDay := [], sramWords := [], chDrift := [] }
    pnl := {
      phase := if s.pnl.phase = .off then .off else .discharging
      stopCyc := if s.pnl.phase = .discharging then s.pnl.stopCyc else s.time.cyc, vcomNow := s.pnl.vcomNow } }

/-- A reset of cause BACKUP_WDG or FCU_FATAL is counted, the latter with its operating minute (R286, R306). -/
def fatalCount (cause : BitVec 4) (s : State) : State :=
  if cause = 3 then wdCopied { s with wd := { s.wd with nBackup := satN 0xFFFF (s.wd.nBackup + 1) } }
  else if cause = 4 then { s with wd := { s.wd with
    nFatal := satN 0xFFFF (s.wd.nFatal + 1)
    fatalTimes := s.wd.fatalTimes.filter (fun t => decide (s.btn.opMin.toNat < t + 60)) ++ [s.btn.opMin.toNat] } }
  else s

/-- A fatal fault or a hung module during PROBATION falls back (R366). -/
def fatalFall (cause : BitVec 4) (s : State) : State := if cause = 3 ∨ cause = 4 then fallCall 20 s else s

/-- The module resets with a cause other than POWER: INIT, with the notices of the reset and of expired hard-off timers. -/
def resetNow (cause : BitVec 4) (s : State) : State :=
  let s1 := afterReset (fatalCount cause s)
  let s2 := { s1 with sys := { s1.sys with cause := cause, wake := s.sys.wake && decide (cause = 5) && decide (s.pair.mstate = .sleep) } }
  let s3 := notice 0x04 noSrc 0 (wordOf cause.toNat) s2
  settle (fatalFall cause (noticeIf (decide (s3.slc.hardoff ≠ 0)) 0x08 noSrc 0 s3.slc.hardoff s3))

/-- MODULE_RESET: a reset that has been called for proceeds once no group is RUNNING (R184); supply loss comes first. -/
def execModuleReset (s : State) : Out :=
  match s.sys.pendReset with
  | some c => if s.sys.powered && !s.sys.inReset && !s.sys.supplyLost && !anyRunning s then .next (resetNow c s) else .next s
  | none => .next s

/-- SYS_CMD SOFT_RESET: ignored without its key. -/
def execSoftReset (v : Word) (s : State) : Out :=
  cpRow (aSYS + 0x20) true s <|
  .next (if fld v 16 16 = cmdKey.toNat ∧ fld v 0 4 = 1 ∧ alive s then callReset 5 s else s)

/-- The clock is in tolerance again and 100 ms have passed since its failure: the module restarts with cause FCU_FATAL; every group
whose L+ was present has had its outputs switched off by its hard-off timer (R186, R305). -/
def clockRestart (s : State) : State :=
  match s.wd.clkFailCyc with
  | some t =>
    if s.sys.powered && s.sys.inReset && !s.wd.clkBad && !s.sys.supplyLost && decide (t + cycMs 100 ≤ s.time.cyc) then
      resetNow 4 { s with
        wd := { s.wd with clkFailCyc := none, clkRestart := true }
        grp := mtab (fun _ => ({} : GrpSt)) (nGroups s) (fun g => { gr s g with hardOff := !(gr s g).lost }) }
    else s
  | none => s

/-- CLOCK_RECOVERY: the main clock is in tolerance; the restart waits for the rest of the 100 ms (R305). -/
def execClockRecovery (s : State) : Out :=
  if s.wd.clkFailCyc.isSome then .next (clockRestart { s with wd := { s.wd with clkBad := false } }) else .next s

/-! ### The logic supply (R129, R187, R319, R332) -/

/-- SUPPLY_LOW: the supply crosses its low threshold; source 494 fires on each change. -/
def execSupplyLow (low : Bool) (s : State) : Out :=
  if alive s && decide (s.sys.supplyLow ≠ low) then
    .next (settle (fire 494 s.time.ns { s with sys := { s.sys with supplyLow := low } }))
  else .next s

/-- A hold-up record is written: a full head gives way to an ERASED sector, without a reclaim. A queued record keeps its SEQ, and another
takes the next (R312, R319). -/
def holdWrite (s : State) (p : NvReq × Bool) : State :=
  let r := if p.2 then p.1 else { p.1 with seq := s.nv.nextSeq }
  let s1 := headAppend true (some (mkRec r false)) s
  if s1.nv.sectors = s.nv.sectors then s
  else logSaved r.key.toNat { s1 with nv := { s1.nv with
    nextSeq := if p.2 then s.nv.nextSeq else s.nv.nextSeq + 1, level := s.nv.level - 16, holdWritten := s.nv.holdWritten + 1 } }

/-- The notices changed since the last round, newest first, as records. -/
def dirtyRecs (s : State) : List NvReq :=
  let l := ((List.range 256).map (fun i => (s.btn.serial.toNat + 256 - i) % 256)).filter (fun r => s.btn.dirty.contains r)
  (l.map (noticeRec s)).foldl (fun m r => if m.any (fun q => q.key = r.key) then m else m ++ [r]) []

/-- The hold-up records in the order of R319 and R332, each with whether it was queued: at most 32 of the log, then queued critical records,
then persistent records whose words at the last seal differ from the store, after the record that names their map; at most 96 in all. -/
def holdRecs (s : State) : List (NvReq × Bool) :=
  let log := (stampRec s :: dirtyRecs s).take 32
  let crit := (s.nv.queue ++ s.nv.waiting).filter (fun q => q.crit && !log.any (sameEntry q))
  let ws := s.nv.atSeal.getD (mapWords s)
  let pers := ((List.range (pmapRecs s)).map (mapRec ws)).filter (recDiffers s)
  let name := if !pers.isEmpty && recDiffers s (pmapRec s) then [pmapRec s] else []
  (log.map (·, false) ++ crit.map (fun q => (q, s.nv.queue.contains q)) ++ (name ++ pers).map (·, false)).take 96

/-- A queued record is in the store, or a later one of its entry. -/
def landed (s : State) (q : NvReq) : Bool := (winner s q.key q.fmt).any (fun w => decide (q.seq ≤ w.seq))

/-- The NV controller's hold-up work; a CP flash line completes, and an erase of either flash is abandoned (R319, R324). -/
def holdUp (s : State) : State :=
  let s1 := eraseCut { s with nv := { s.nv with
    eraseCut := s.nv.reclaiming.isSome, holdWritten := 0, holdLost := 0, flBusy := none
    flOpen := match s.nv.flBusy with | some (_, true, i) => addNew (true, i) s.nv.flOpen | _ => s.nv.flOpen } }
  if !s1.nv.mounted then s1
  else
    let s2 := wdCopied (finishRec s1)
    let s3 := (holdRecs s2).foldl holdWrite s2
    { s3 with nv := { s3.nv with
      queue := [], waiting := [], moving := [], holdLost := (s2.nv.queue.filter (fun q => !landed s3 q)).length } }

/-- SUPPLY_LOSS (R187): sequences stop, outputs go off, an ACTIVE module gives up, the panel discharges, and the hold-up
records are written. -/
def execSupplyLoss (s : State) : Out :=
  if s.sys.powered && !s.sys.supplyLost then
    let s1 := fire 494 s.time.ns { s with
      sys := { s.sys with supplyLost := true, supplyLow := true, lossCyc := s.time.cyc, powerBack := none }
      slc := { s.slc with grp := [], relPending := 0 } }
    let s2 := if s.pair.role = .active ∧ inRun s then giveUpOp 2 0x3FF 0 s1 else s1
    let s3 := notice 0x03 noSrc 0 0 { s2 with pair := { s2.pair with tokenOut := false } }
    .next (settle (holdUp (panelDischarge s3)))
  else .next s

/-! ### Power-up (R344-R349, R404-R406) -/

/-- The default of IC_SRC_CFG for a source: priority, with EN and QEN (R406). -/
def icDefault (n : Nat) : Nat :=
  if n < 256 then 5 + 0x30
  else if n < 400 then 6 + 0x30
  else if n < 416 then 9 + 0x10
  else if n < 424 then 10 + 0x10
  else if n < 432 then 9 + 0x10
  else if n = 436 ∨ n = 437 then 14 + 0x30
  else if n < 440 then 13 + 0x30
  else if n < 472 then 7 + 0x30
  else if n = 472 then 0
  else if n = 473 ∨ n = 476 then 13 + 0x30
  else if n < 478 then 11 + 0x30
  else if n < 480 then 0
  else if n < 488 then 11 + 0x30
  else if n < 491 then 8 + 0x30
  else if n = 491 then 3 + 0x10
  else if n < 494 then 8 + 0x30
  else if n < 497 then 13 + 0x30
  else if n < 504 then 0
  else if n < 536 then 4 + 0x30
  else if n = 536 then 2 + 0x10
  else if n = 537 ∨ n = 539 then 12 + 0x30
  else if n = 538 ∨ n = 541 then 15 + 0x30
  else if n = 540 then 14 + 0x30
  else 0

/-- The source belongs to a serial port that the OEM partition owns (R273). -/
def oemPort (s : State) (n : Nat) : Bool := within n 424 431 && fbit (uartCfg s ((n - 424) / 2) 0) 1

/-- The OEM partition may own a source (R404). -/
def oemMayOwn (s : State) (n : Nat) : Bool :=
  decide (n < 416) || within n 440 471 || oemPort s n || decide (n = 472) || within n 480 487 || within n 504 535

/-- The interrupt controller at start-up: the priorities of the COMMS section, the defaults elsewhere, and the sources that
the OEM partition owns, those of its serial ports among them, at most at priority 12 (R404-R406). -/
def icSetup (named : Nat → Option Word) (oem : List (BitVec 10 × BitVec 4)) (s : State) : State :=
  (List.range 544).foldl (fun a n =>
    let base := (named n).getD (wordOf (icDefault n))
    let put := fun (v : Word) (x : State) => if srcPresent x n then regPut x (aIC + 4 * n) v else x
    let own := fun (prio : Nat) => (base &&& 0x30) ||| 0x40 ||| wordOf (min 12 prio)
    match oem.find? (fun p => p.1.toNat = n) with
    | some p =>
      if oemMayOwn s n then put (own p.2.toNat) a
      else notice 0x05 noSrc 0 (wordOf n) (put (wordOf (icDefault n)) a)
    | none => put (if oemPort s n then own (fld base 0 4) else base) a) s

/-- The captures are reported as notices, and capture is armed again (R292). -/
def reportCaptures (s : State) : State :=
  let one := fun (c : Capture) (a : State) => noticeIf c.valid 0x01 c.src.toNat c.reason.toNat (wordOf s.fcu.overflow) a
  let s1 := one s.fcu.fatal (one s.fcu.first s)
  { s1 with fcu := { s1.fcu with
    first := { s1.fcu.first with valid := false }, fatal := { s1.fcu.fatal with valid := false }, overflow := 0 } }

/-- A register is written directly in READY: RW at once, RWL and RWT until tick 0 (R345). -/
def settingPut (s : State) (p : Word × Word) : State :=
  let i := regInfo p.1.toNat
  let v := p.2 &&& settingMask s p.1.toNat
  match i.cls with
  | .none => s
  | .rw => regPut s p.1.toNat v
  | _ => regStage s p.1.toNat v

/-- A chosen slot is applied, section by section (R341, R345). -/
def applySlot (i : BitVec 1) (slot : CfgSlot) (s : State) : State :=
  let c := slotContent slot
  let s1 := c.settings.foldl settingPut s
  let named := fun (n : Nat) => (c.settings.find? (fun p => p.1.toNat = aIC + 4 * n)).map (fun p => p.2 &&& 0x3F)
  let s2 := icSetup named c.oemSources s1
  let s3 := regPut (regPut s2 (aLE + 0x24) (c.budget.zeroExtend 32 &&& 0x03FFFFFF)) (aLE + 0x78) (slotProgId c)
  let sram := mputs (fun _ => 0) s3.cp.sram (c.startWords.filter (fun p => decide (p.1 < 0x20000)))
  { s3 with
    mem := (withProgram slot s3).mem
    edit := { s3.edit with live := mputs (fun _ => default) [] c.table }
    le := { s3.le with progId := slotProgId c, autoRun := c.autoRun }
    nv := { s3.nv with pmap := c.pmap, pmapCrc := c.pmapCrc }
    cp := { s3.cp with eth := c.eth, sram := sram }
    sys := { s3.sys with
      slotUse := i, gen := slotGen c, checkWord := slotCheck c, startWarm := c.startWarm, initMem := c.initMem
      stationGroup := c.stationGroup, stationKey := c.stationKey, points := c.points, cfgDefaulted := false } }

/-- The Ethernet settings of factory defaults: Ethernet 0 at 192.168.250.1/24 (R271). -/
def defaultEth : EthCfg := { ip0 := 0xC0A8FA01, mask0 := 0xFFFFFF00 }

/-- Factory defaults (R349); a module in PAIR mode stays UNDECIDED, with a notice (R197). -/
def applyDefaults (s : State) : State :=
  let s1 := (List.range (nCh s)).foldl (fun a n =>
    regStage (regStage (regStage a (aCH n) 2) (aCH n + 4) 3000) (aCH n + 0xC) 0xC8) s
  let s2 := icSetup (fun _ => none) [] { s1 with sys := { s1.sys with cfgDefaulted := true } }
  let s3 := { s2 with cp := { s2.cp with eth := defaultEth } }
  let s4 := notice 0x05 noSrc 4 0 s3
  if hasTwin s then notice 0x06 434 s4.pair.lastCause.toNat (pairStatus s4) s4 else s4

/-- The results of both slots and the slot in use, if one is OK (R342, R344). -/
def slotChoice (s : State) : Nat × Nat × Option (BitVec 1) :=
  let r0 := slotResult s s.sys.slot0
  let r1 := slotResult s s.sys.slot1
  let g0 := (slotGen s.sys.slot0).toNat
  let g1 := (slotGen s.sys.slot1).toNat
  let h0 := decide (2 < r0) || decide (r0 = 0)
  let h1 := decide (2 < r1) || decide (r1 = 0)
  let first0 := h0 && (!h1 || decide (g1 ≤ g0))
  if first0 then
    (if r0 = 0 then (0, (if h1 then 8 else r1), some 0) else (r0, r1, if r1 = 0 then some 1 else none))
  else if h1 then
    (if r1 = 0 then ((if h0 then 8 else r0), 0, some 1) else (r0, r1, if r0 = 0 then some 0 else none))
  else (r0, r1, none)

/-- The tick period of the configuration is in force before tick 0 (R345). -/
def periodStart (s : State) : State := { s with tick := { s.tick with period := fld (written s (aLE + 8)) 0 17 } }

/-- The configuration store is read, and its choice applied. -/
def configure (s : State) : State :=
  let c := slotChoice s
  let s1 := { s with sys := { s.sys with result0 := BitVec.ofNat 4 c.1, result1 := BitVec.ofNat 4 c.2.1 } }
  periodStart (match c.2.2 with
    | some i => applySlot i (slotOf s1 i) s1
    | none => applyDefaults s1)

/-- The bank that the boot ROM starts: the higher BANK_SEQ of those that are valid, not rejected, and verify (R359). -/
def bootBank (s : State) : Option (BitVec 1) :=
  if bankGood s 0 && (!bankGood s 1 || decide (bankSeq s 1 ≤ bankSeq s 0)) then some 0 else if bankGood s 1 then some 1 else none

/-- The update state at a start: a set whose decision was GO is in PROBATION, and a start from the old bank falls back (R362, R366).
A set that was armed has lost the station time that its tick number rests on, and becomes STAGED with TIME_INVALID (R361, log 119). -/
def updStart (b : BitVec 1) (s : State) : State :=
  let s1 := if s.upd.phase = .armed then (if s.upd.decided then probation s else updTo .staged 11 s) else s
  let s2 := { s1 with upd := { s1.upd with bank := b, healthCyc := s.time.cyc, fatalCyc := s.time.cyc } }
  match newBank s1 with
  | some n => if s2.upd.phase = .probation ∧ n ≠ b then fallCall 20 s2 else s2
  | none => s2

/-- The third reset of cause FCU_FATAL within 60 operating minutes holds the module; POWER and SOFT end the hold (R286). -/
def fatalHoldSet (s : State) : State :=
  let hold := decide (s.sys.cause = 4) && decide (3 ≤ s.wd.fatalTimes.length)
  let out := decide (s.sys.cause = 1) || decide (s.sys.cause = 5)
  noticeIf hold 0x10 noSrc 0 (wordOf s.wd.nFatal)
    { s with sys := { s.sys with fatalHold := !out && (hold || s.sys.fatalHold) } }

/-- The module leaves INIT for READY, SOLO or UNDECIDED (R193, R195). -/
def leaveInit (s : State) : State :=
  let solo := !hasTwin s || !fbit (written s aPAIR) 0
  { s with pair := { s.pair with mstate := .ready, role := if solo then .solo else .undecided } }

/-- The CP watchdog starts with the boot ROM (R303, R344). -/
def cpwdStart (s : State) : State :=
  { s with wd := { s.wd with cpTimeout := 2000, cpRunning := true, cpDeadline := s.time.cyc + cycMs 2000 } }

/-- The panel of a slot with a PANEL section: PWR is written, and the rectangles of the start image wait for the panel to be ON, before
which their submission would be refused (R385, log 116). -/
def panelStart (s : State) : State :=
  if s.sys.cfgDefaulted || !hasSec (slotOf s s.sys.slotUse) 9 then s
  else panelOn { s with pnl := { s.pnl with start := (slotContent (slotOf s s.sys.slotUse)).start } }

/-- A start that brings CODE to 21 for the first time in a power cycle raises VCORE_LIMIT (R374, R379). -/
def limitNote (s : State) : State :=
  let raise := decide (s.grd.code = 21) && !s.grd.atLimitSeen
  gradNotice raise 2 (wordOf s.le.mhz) { s with grd := { s.grd with atLimitSeen := s.grd.atLimitSeen || raise } }

/-- The vendor base starts from a bank: captures, configuration, holds and the first events of the start. -/
def bootFrom (b : BitVec 1) (seatB : Bool) (s : State) : State :=
  let s0 := cpwdStart s
  let s1 := { s0 with pair := { s0.pair with seatB := hasTwin s && seatB }, wd := { s0.wd with clkRestart := false } }
  let s2 := configure (reportCaptures s1)
  let s3 := panelStart (leaveInit (fatalHoldSet (oemCheck (updStart b (freshNonce (limitNote s2))))))
  settle (fireIf s.wd.clkRestart 496 (fireIf (decide (s.sys.cause = 3)) 495 s3))

/-- The counts that run since power-up start at 0: overruns, the longest scan, self-test passes, aborted calibrations, surges, the largest
epoch, takeovers and resyncs, the FCU's counts and violations (01, 03, 06, 08, 11). -/
def countsReset (s : State) : State :=
  { s with
    le := { s.le with overTotal := 0, cyclesMax := 0, lsPasses := 0 }
    chan := mtab (fun _ => ({} : ChanSt)) (nCh s) (fun n => { ch s n with calAborts := 0 })
    grp := mtab (fun _ => ({} : GrpSt)) (nGroups s) (fun g => { gr s g with surgeCount := 0 })
    pair := { s.pair with maxBlocks := 0, takeovers := 0, resyncs := 0 }
    fcu := { s.fcu with corrected := 0, contained := 0, fatalCount := 0 }
    prot := { s.prot with violCount := [] } }

/-- Supply good after a loss of power: the backup domain increments the power-cycle count and latches the cause; what lay in
volatile memory is gone, and what lay in the backup domain is gone with it if that lost power (R306, R327, R344, R374, R425, log 121). -/
def powerReset (s : State) : State :=
  let lost := !s.sys.backupOk || !Config.backupHeld s.time.cyc
  let s0 := countsReset s
  let s1 := afterReset { s0 with sys := { s.sys with powered := true }, nv := { s.nv with cur := none } }
  noticeIf (decide (s1.slc.hardoff ≠ 0)) 0x08 noSrc 0 s1.slc.hardoff { s1 with
    mem := { lgen := s.mem.lgen }
    le := { mhz := if lost then 400 else s.le.mhz }
    tick := { runid := if lost then 0 else s.tick.runid, runidFresh := lost || s.tick.runidFresh }
    cp := { s1.cp with sram := [] }
    fcu := if lost then {} else s1.fcu
    wd := if lost then { bwdFrom := s.time.cyc } else s1.wd
    nv := { s1.nv with
      level := if lost then 0 else s1.nv.level, holdWritten := if lost then 0 else s1.nv.holdWritten
      holdLost := if lost then 0 else s1.nv.holdLost, eraseCut := !lost && s1.nv.eraseCut }
    btn := { s1.btn with
      scanRem := [], opMin := if lost then 0 else s.btn.opMin, pcycle := satPc ((if lost then 0 else s.btn.pcycle.toNat) + 1) }
    sys := { s1.sys with cause := 1, wake := false, backupLost := lost, backupOk := true, supplyLow := false }
    grd := { s1.grd with
      code := if lost then 21 else s1.grd.code, monthCode := if lost then 21 else s1.grd.monthCode, atLimitSeen := false }
    pnl := {} }

/-- The vendor base starts, `cold` where the supply had gone; without a valid bank the module stays in INIT with RECOVERY set. -/
def powerStart (cold seatB : Bool) (s : State) : State :=
  let s1 := if cold then powerReset s else s
  match bootBank s1 with
  | some b => bootFrom b seatB s1
  | none => cpwdStart { s1 with sys := { s1.sys with recovery := true } }

/-- The work of the hold-up has been done, or the module is without power (R187, R188). -/
def holdUpOver (s : State) : Bool := !s.sys.powered || decide (s.sys.lossCyc + cycMs 8 ≤ s.time.cyc)

/-- POWER_UP (R344): supply good, or the start of the vendor base after another reset. A supply that returns during the hold-up work
waits for its end (R187). -/
def execPowerUp (seatB : Bool) (s : State) : Out :=
  let cold := !s.sys.powered || s.sys.supplyLost
  if cold && !holdUpOver s then .next { s with sys := { s.sys with powerBack := some seatB } }
  else if cold || (decide (s.pair.mstate = .init) && !s.sys.inReset && !s.sys.recovery) then .next (powerStart cold seatB s)
  else .next s

/-- USB_LOADER: in RECOVERY the boot ROM's loader takes a signed vendor base into bank A, with which the start goes on (R344, log 119). -/
def execUsbLoader (sigOk : Bool) (s : State) : Out :=
  if s.sys.powered && s.sys.recovery && decide (s.pair.mstate = .init) && sigOk then
    let s1 := { s with
      nv := { s.nv with
        flash := s.nv.flash.filter (fun p => decide (p.1 / 16384 ≠ 63)), flOpen := s.nv.flOpen.filter (fun p => decide (p ≠ (true, 63))) }
      sys := { s.sys with recovery := false }
      wd := { s.wd with bwdFrom := s.time.cyc } }
    .next (bankVerdict 0 (some true) none (bankHeader 0 (max (bankSeq s 0) (bankSeq s 1) + 1) s1))
  else .next s

/-- TICK_GO: tick 0 begins at the first whole multiple of the tick period in force that lies strictly after the write (R13, R344). -/
def execTickGo (v : Word) (s : State) : Out :=
  cpRow (aSYS + 0x20) true s <|
  if fld v 16 16 = cmdKey.toNat ∧ fld v 0 4 = 2 ∧ s.pair.mstate = .ready ∧ s.tick.on = false ∧ s.tick.goAt = none then
    let p := 1000 * s.tick.period
    let t := (s.time.ns / p + 1) * p
    .next { s with tick := { s.tick with goAt := some t, next := t } }
  else .next s

/-! ### Starting and stopping the logic engine (R350) -/

/-- LE_STATE.RESULT takes a code. -/
def leResult (r : Nat) (s : State) : State := { s with le := { s.le with result := BitVec.ofNat 4 r } }

/-- LE_CTRL RUN. -/
def leRunOp (v : Word) (s : State) : State :=
  if fld v 16 16 ≠ cmdKey.toNat then leResult 1 s
  else if s.pair.role = .active ∨ s.pair.role = .standby then leResult 5 s
  else if s.pair.mstate ≠ .ready then leResult 2 s
  else if s.sys.fatalHold then leResult 6 s
  else if !hasProg s then leResult 3 s
  else if !budgetOk s then budgetRefuse s
  else leResult 0 { s with le := { s.le with runPending := true } }

/-- LE_CTRL STOP: every group starts its sequence as an explicit start. -/
def leStopOp (v : Word) (s : State) : State :=
  if fld v 16 16 ≠ cmdKey.toNat then leResult 1 s
  else if s.pair.role ≠ .solo then leResult 5 s
  else if ¬ inRun s then leResult 2 s
  else leResult 0 (settle (slcStartTables { s with le := { s.le with stopping := true } }))

/-- LE_CTRL RUN. -/
def execLeRun (v : Word) (s : State) : Out :=
  svcRow 4 (aLE) true s <| .next (leRunOp v s)

/-- LE_CTRL STOP. -/
def execLeStop (v : Word) (s : State) : Out :=
  svcRow 4 (aLE) true s <| .next (leStopOp v s)

/-- STOP_COMPLETE: no group is RUNNING, so the module enters READY at the next boundary. -/
def execStopComplete (s : State) : Out :=
  if s.le.stopping && inRun s && !anyRunning s then .next { s with le := { s.le with stopReady := true } } else .next s

/-! ### Deep sleep (R352, R353) -/

/-- SYS_SLEEP.RESULT takes a code. -/
def sleepResult (r : Nat) (s : State) : State := { s with sys := { s.sys with sleepResult := BitVec.ofNat 4 r } }

/-- SLEEP is entered: a pending edit is cancelled (R118), the panel discharges, the clocks stop, the wake timer starts. -/
def enterSleep (s : State) : State :=
  let s1 := panelDischarge (editCancel s)
  settle { s1 with pair := { s1.pair with mstate := .sleep }, wd := { s1.wd with bwdFrom := s1.time.cyc } }

/-- SLEEP may be entered: READY, in role SOLO or UNDECIDED, with no group RUNNING (R352). -/
def maySleep (s : State) : Bool :=
  decide (s.pair.mstate = .ready) && (decide (s.pair.role = .solo) || decide (s.pair.role = .undecided)) && !anyRunning s

/-- A SYS_SLEEP request. -/
def sleepOp (v : Word) (s : State) : State :=
  if !fbit v 0 then s
  else if fld v 16 16 ≠ cmdKey.toNat then sleepResult 1 s
  else if s.pair.mstate ≠ .ready ∨ (s.pair.role ≠ .solo ∧ s.pair.role ≠ .undecided) then sleepResult 2 s
  else if anyRunning s then sleepResult 3 s
  else sleepResult 0 { s with sys := { s.sys with sleepPend := true, sleepRound := false } }

/-- An accepted request: a persistence round is completed and the NV queue emptied at the governor's rate, then the module enters SLEEP
(R315, R352). DESIGN CHOICE (log 114): it waits for the mount and the restore, and lapses where SLEEP may no longer be entered. -/
def sleepStep (s : State) : State :=
  if !s.sys.sleepPend then s
  else if !maySleep s then { s with sys := { s.sys with sleepPend := false } }
  else if !s.sys.sleepRound then
    (if roundFree s then roundStart { s with sys := { s.sys with sleepRound := true } } else s)
  else if s.btn.busy || nvBusy s then s
  else enterSleep { s with sys := { s.sys with sleepPend := false } }

/-- SLEEP. -/
def execSleep (v : Word) (s : State) : Out :=
  cpRow (aSYS + 0x14) true s <| .next (sleepOp v s)

/-- The bit of a wake source in SYS_SLEEP. -/
def wakeBit (w : WakeSrc) : Nat := match w with | .timer => 1 | .dcd0 => 2 | .dcd1 => 3 | .vbus => 4 | .tokenIn => 5

/-- WAKE: an enabled source ends SLEEP with a reset of cause SOFT; the timer runs WAKE_S. -/
def execWake (src : WakeSrc) (s : State) : Out :=
  if s.pair.mstate = .sleep ∧ fbit (force s (aSYS + 0x14)) (wakeBit src) ∧ (src ≠ .timer ∨ bwdRan s 1) then
    .next (callReset 5 { s with sys := { s.sys with wake := true } })
  else .next s

end Sys2Proof.Machine
end

