-- ==== Sys2Proof/Machine/RegWrite.lean ====
section
/-! DEFINITION. Register writes by the communication processor (R9-R11): access types, fields that clear on writing 1, settings
that follow from other rules, and the command registers, which act as their own commands do. -/

namespace Sys2Proof.Machine

/-! ### Reserved codes (R10) -/

/-- A literal half word names a reserved source (R128). -/
def badLiteral (h : Nat) : Bool := decide (0x8000 ≤ h) && decide (272 ≤ h % 512)

/-- The value gives a field of the register a code that its table reserves. -/
def badCode (a : Nat) (v : Word) : Bool :=
  if a = aLE + 0x1C then decide (fld v 24 4 = 0)
  else if a = aSLC then decide (fld v 0 8 = 0)
  else if a = aPAIR then decide (fld v 1 4 = 0)
  else if a = aTIME + 0x1C then decide (fld v 0 2 = 2)
  else if 0x40210000 ≤ a ∧ a < 0x40214800 ∧ a % 0x80 = 0 then decide (fld v 24 8 = 0)
  else if aWD ≤ a ∧ a < aWD + 0x20 then decide (fld v 8 8 = 0)
  else if aFCU + 0x100 ≤ a ∧ a < aFCU + 0x188 then (List.range 16).any (fun j => decide (fld v (2 * j) 2 = 3))
  else if aRFX + 0x2000 ≤ a ∧ a < aRFX + 0x4000 then badLiteral (fld v 0 16) || badLiteral (fld v 16 16)
  else if 0x40320000 ≤ a ∧ a < 0x40320400 ∧ a % 0x100 = 0 then decide (fld v 2 2 = 3)
  else false

/-- The fault of a reserved code. -/
def resFault (a : Nat) : Out := .fault (.reservedCode (wordOf a))

/-! ### Values that a register ignores -/

/-- The panel's voltages would break R383 with the value in place. -/
def panelBreaks (s : State) (a : Nat) (v : Word) : Bool := badPanel (regPut s a (v &&& (regInfo a).mask))

/-- The value lies outside a range whose register table says that other values are ignored, or would break R383 (R12, R303,
R376, R383). -/
def ignored (s : State) (a : Nat) (v : Word) : Bool :=
  if a = aLE + 8 then !okPeriod (fld v 0 17)
  else if 0x40140000 ≤ a ∧ a < 0x40140400 ∧ a % 0x20 = 0x10 then decide (2500 < fld v 0 12)
  else if 0x40320000 ≤ a ∧ a < 0x40320400 ∧ a % 0x100 = 4 then !within (fld v 0 18) 300 230400
  else if a = aWD + 0x40 then !within (fld v 0 16) 10 60000
  else if aPNL + 8 ≤ a ∧ a < aPNL + 0x30 then panelBreaks s a v
  else false

/-! ### Command registers -/

/-- LE_CTRL and EDIT_CMD. -/
def writeLeCtrl (v : Word) (s : State) : Out :=
  match fld v 0 2 with | 1 => execLeRun v s | 2 => execLeStop v s | _ => resFault aLE

def writeEditCmd (v : Word) (s : State) : Out :=
  match fld v 0 4 with
  | 1 => execEditOpen s | 2 => execEditClose s | 3 => execEditStage s | 4 => execEditCommit s | 5 => execEditAccept s
  | 6 => execEditUndo s | 7 => execEditDiscard s | _ => resFault (aLE + 0x40)

/-- The upper half of a keyed command. -/
def keyOf (v : Word) : BitVec 16 := v.extractLsb' 16 16

/-- PAIR_CMD, TIME_CMD, UPD_CMD and SYS_CMD. -/
def writePairCmd (v : Word) (s : State) : Out :=
  match fld v 0 4 with
  | 1 => execHandover (keyOf v) s | 2 => execPull (keyOf v) s | 3 => execResync (keyOf v) s | _ => resFault (aPAIR + 0xC)

def writeTimeCmd (v : Word) (s : State) : Out :=
  match fld v 0 4 with
  | 1 => execTimeSet (keyOf v) s | 2 => execSlew (keyOf v) s | 3 => execSlewStop (keyOf v) s | _ => resFault (aTIME + 0x10)

def writeUpdCmd (v : Word) (s : State) : Out :=
  match fld v 0 4 with
  | 1 => execUpdCancel (keyOf v) s | 2 => execUpdConfirm (keyOf v) s | 3 => execUpdFallback (keyOf v) s
  | 4 => execUpdDiscard (keyOf v) s | _ => .next s

def writeSysCmd (v : Word) (s : State) : Out :=
  match fld v 0 4 with | 1 => execSoftReset v s | 2 => execTickGo v s | _ => .next s

/-- NV_CMD and NV_FL_CMD; the instruction comes from the bank that runs. -/
def writeNvCmd (v : Word) (s : State) : Out :=
  match fld v 0 2 with | 1 => execNvWrite s | 2 => execNvRead s | _ => resFault (aNV + 0x20)

def writeFlCmd (v : Word) (s : State) : Out :=
  match fld v 1 2 with
  | 1 => execFlProgram v (s.upd.bank.zeroExtend 2) s | 2 => execFlErase v (s.upd.bank.zeroExtend 2) s
  | _ => resFault (aNV + 0x84)

/-- MON_CMD. -/
def writeMonCmd (v : Word) (s : State) : State :=
  { s with mon := { s.mon with snapReq := s.mon.snapReq || fbit v 0, writeReq := s.mon.writeReq || fbit v 1 } }

/-- PNL_CTRL: FLUSH, and PWR as written. -/
def writePnlCtrl (v : Word) (s : State) : State :=
  let s1 := if fbit v 1 then panelFlush s else s
  if fbit v 0 then panelOn s1 else panelOff s1

/-- SYS_SLEEP: WAKE_EN, and the request. -/
def writeSleep (v : Word) (s : State) : State := sleepOp v (regPut s (aSYS + 0x14) (v &&& 0x3E))

/-- BTN_CTRL: the event enable, and PERSIST. -/
def writeBtnCtrl (v : Word) (s : State) : Out := execPersist v (regPut s aBTN (v &&& 2))

/-! ### Fields that clear on writing 1 (R9) -/

/-- A clearing write in the system, FCU, watchdog, NV, pair, Graduation, panel, Sluice, LE, protection and reflex blocks. -/
def clearBits (a : Nat) (v : Word) (s : State) : State :=
  let b := fbit v
  if a = aFCU then { s with fcu := { s.fcu with first := { s.fcu.first with valid := s.fcu.first.valid && !b 31 } } }
  else if a = aFCU + 0x14 then { s with fcu := { s.fcu with overflow := if b 31 then 0 else s.fcu.overflow } }
  else if a = aFCU + 0x18 then { s with fcu := { s.fcu with fatal := { s.fcu.fatal with valid := s.fcu.fatal.valid && !b 31 } } }
  else if a = aFCU + 0x24 then { s with fcu := { s.fcu with selfBit := (s.fcu.selfBit && !b 0) || decide (s.fcu.parityBad ≠ 0) } }
  else if a = aWD + 0x20 then { s with wd := { s.wd with keyErr := s.wd.keyErr &&& ~~~(v.extractLsb' 8 8) } }
  else if a = aWD + 0x60 then { s with wd := { s.wd with mainFailed := s.wd.mainFailed && !b 0 } }
  else if a = aNV + 0x88 then
    { s with nv := { s.nv with
      flDone := s.nv.flDone && !b 1, flOwn := s.nv.flOwn && !b 2, flBusyRead := s.nv.flBusyRead && !b 3
      flVerify := s.nv.flVerify && !b 4 } }
  else if a = aPAIR + 0x30 then { s with pair := { s.pair with lastValid := s.pair.lastValid && !b 31 } }
  else if a = aGRD + 0x10 then { s with grd := { s.grd with urgentSeen := s.grd.urgentSeen && !b 0 } }
  else if a = aPNL + 4 then { s with pnl := { s.pnl with fault := s.pnl.fault && !b 10 } }
  else if a = aSLC + 0x18 then { s with slc := { s.slc with hardoff := s.slc.hardoff &&& ~~~v } }
  else if a = aSLC + 0x1C then { s with slc := { s.slc with lastValid := s.slc.lastValid && !b 31 } }
  else if a = aLE + 0x80 then
    { s with le := { s.le with trapOvf := s.le.trapOvf && !b 30, trapValid := s.le.trapValid && !b 31 } }
  else if a = aLE + 0x9C then
    { s with mon := { s.mon with snapDone := s.mon.snapDone && !b 1, writeDone := s.mon.writeDone && !b 3 } }
  else if a = aLE + 0xA4 then { s with mon := { s.mon with drop := s.mon.drop && !b 0, tagErr := s.mon.tagErr && !b 1 } }
  else if a = aPROT + 8 then { s with prot := { s.prot with keyErr := s.prot.keyErr && !b 0 } }
  else if aPROT + 0x10 ≤ a ∧ a < aPROT + 0x48 ∧ a % 8 = 4 then
    { s with prot := { s.prot with
      violValid := if b 31 then s.prot.violValid &&& ~~~(1#7 <<< ((a - aPROT - 0x10) / 8)) else s.prot.violValid } }
  else if a = aRFX + 0x20 then { s with rfx := { s.rfx with lastValid := s.rfx.lastValid && !b 31 } }
  else s

/-! ### Writes to the arrays of units -/

/-- A channel: CH_CAL_STATUS.REQ and CH_FAULT.REARM. -/
def writeChan (n o : Nat) (v : Word) (s : State) : Option Out :=
  if o = 0x28 then some (if fbit v 18 then execCalReq (BitVec.ofNat 8 n) s else .next s)
  else if o = 0x30 then some (if fbit v 16 then execChFaultRearm (BitVec.ofNat 8 n) s else .next s)
  else none

/-- GRP_STATUS: LOW_SEEN, SHED and SURGE clear on writing 1; LOW_SEEN stays while the supply is low. -/
def writeGrp (g o : Nat) (v : Word) (s : State) : Option Out :=
  if o = 4 then
    let q := gr s g
    some (.next (grPut s g { q with
      lowSeen := (q.lowSeen && !fbit v 1) || q.low, shed := q.shed && !fbit v 2, surge := q.surge && !fbit v 3 }))
  else none

/-- A transmit entry's control word: W1C bits, the DLC, ABORT and REQ. -/
def writeTxCtrl (b e : Nat) (v : Word) (s : State) : Out :=
  let x := txEntry s b e
  let s1 := regPut (txPut s b e { x with
    done := x.done && !fbit v 11, aborted := x.aborted && !fbit v 12, badId := x.badId && !fbit v 13 })
    (txAddr b e 4) (v &&& 0xF)
  if fbit v 9 then execTxAbort (BitVec.ofNat 2 b) (BitVec.ofNat 4 e) s1
  else if fbit v 8 then execTxReq (BitVec.ofNat 2 b) (BitVec.ofNat 4 e) s1
  else .next s1

/-- A CAN bus: the event enables, with which a filled receive FIFO reports at once (R254, R401), the receive FIFO, and the transmit
entries. -/
def writeCan (b o : Nat) (v : Word) (s : State) : Option Out :=
  if o = 0x1C then
    let now := fbit v 0 && !fbit (canCfg s b 0x1C) 0 && !(bu s b).fifo.isEmpty
    some (.next (fireIf now (400 + 4 * b) (regPut s (aCAN b + 0x1C) (v &&& 0x3F))))
  else if o = 0x20 then some (.next (buPut s b { bu s b with ovf := (bu s b).ovf && !fbit v 7 }))
  else if o = 0x24 then some (execCanRxPop (BitVec.ofNat 2 b) v s)
  else if 0x400 ≤ o ∧ o < 0x900 ∧ (o - 0x400) % 0x50 = 4 then some (writeTxCtrl b ((o - 0x400) / 0x50) v s)
  else none

/-- A serial port: its status bits and its data register; a change of the governor caps B (R275). -/
def writeUart (u o : Nat) (v : Word) (s : State) : Option Out :=
  let x := ua s u
  if o = 0x14 then some (.next (uaPut s u { x with holdBit := (x.holdBit && !fbit v 26) || x.hold, rxErr := x.rxErr && !fbit v 31 }))
  else if o = 0x18 then some (execUartDataWrite (BitVec.ofNat 2 u) (v.truncate 8) s)
  else if o = 0x00 then some (.next (uartStart u (regPut s (aUART u) (v &&& (uartReg u 0).mask))))
  else if o = 0x0C then
    let s1 := regPut s (aUART u + 0xC) v
    some (.next (uaPut s1 u { x with level := min x.level (govCap s1 u) }))
  else none

/-- The interrupt controller and the event queues; a configuration word of a reserved or absent source is not kept (R403). -/
def writeIc (o : Nat) (v : Word) (s : State) : Option Out :=
  if o = 0xA04 then some (execIcComplete (v.truncate 10) s)
  else if o = 0xB10 then some (execEqPop 0 v s)
  else if o = 0xB30 then some (execEqPop 1 v s)
  else if o = 0xB00 then some (.next { s with ev := { s.ev with lost0 := if fld v 16 10 = 0 then s.ev.lost0 else 0 } })
  else if o = 0xB20 then some (.next { s with ev := { s.ev with lost1 := if fld v 16 10 = 0 then s.ev.lost1 else 0 } })
  else if o < 4 * 544 ∧ !srcPresent s (o / 4) then some (.next s)
  else none

/-! ### Registers with a rule of their own -/

/-- An image word that belongs to an absent unit: channel, packed view or node (R5, R265). -/
def absentWord (s : State) (a : Nat) : Bool :=
  let o := a % 0x2000
  if o < 0x100 then decide (nCh s ≤ o)
  else if o < 0x108 then decide (nCh s ≤ 32 * (o - 0x100))
  else if 0x400 ≤ o ∧ o < 0xD00 then decide (nNodes s ≤ (o - 0x400) / 16)
  else if 0xE00 ≤ o ∧ o < 0xE90 then decide (nNodes s ≤ o - 0xE00)
  else false

/-- A force entry that acts on a word of an absent unit is not written (R265). -/
def forceRefused (s : State) (a : Nat) (v : Word) : Bool := decide (a % 8 = 0) && fbit v 15 && absentWord s (fld v 0 14)

/-- A force entry changes: RWT, with a notice; an ACTIVE module sends the change in the epoch of the tick in which it takes effect
(R204, R265, R266). -/
def writeForce (a : Nat) (v : Word) (s : State) : State :=
  if forceRefused s a v then s else
  let f := (a - (aLE + 0x400)) / 8
  let s1 := notice 0x0B noSrc 1 (wordOf f) (regStage s a (v &&& (regInfo a).mask))
  let c : ForceChange := {
    idx := BitVec.ofNat 8 f, en := fbit (written s1 (aLE + 0x400 + 8 * f)) 15
    addr := (written s1 (aLE + 0x400 + 8 * f)).truncate 14, value := written s1 (aLE + 0x404 + 8 * f) }
  if harvestSends s then { s1 with pair := { s1.pair with forcesOut := s1.pair.forcesOut ++ [(nextLatch s, c)] } } else s1

/-- IMG_ROUTE: bits of reserved and absent sources are ignored (R409). -/
def routeMask (s : State) (w : Nat) : Word := bits32 (fun j => srcPresent s (32 * w + j))

/-- TIME_RATE: writable while the discipline is CP, within ±200,000 units (R235). -/
def writeRate (v : Word) (s : State) : State :=
  let r : Int := (v.truncate 20 : BitVec 20).toInt
  if s.time.disc = 3 then { s with time := { s.time with rate := max (-200000) (min 200000 r) } } else s

/-- A panel setting; a change of MODE, RATE, PNL_VCOM or PNL_GAMMA makes the next pass a full pass (R389). -/
def writePanel (a : Nat) (v : Word) (s : State) : State :=
  let s1 := regPut s a (v &&& (regInfo a).mask)
  let m : Word := if a = aPNL + 8 then 0x7F else 0xFFFFFFFF
  { s1 with pnl := { s1.pnl with
    cfgFull := s.pnl.cfgFull || (decide (a < aPNL + 0x30) && decide (force s a &&& m ≠ force s1 a &&& m)) } }

/-- FCU_REACT: a written word carries good parity again (R293). -/
def writeReact (a : Nat) (v : Word) (s : State) : State :=
  let w := (a - (aFCU + 0x100)) / 4
  let s1 := regStage s a v
  { s1 with fcu := { s1.fcu with parityBad := s1.fcu.parityBad &&& ~~~(1#34 <<< w) } }

/-- A configuration register by its access type (R9): RW at once, RWT at the next boundary, RWL in READY only. -/
def cfgWrite (a : Nat) (v : Word) (s : State) : State :=
  let i := regInfo a
  let x := v &&& i.mask
  match i.cls with
  | .none => s
  | .rw =>
    if a = aTIME + 0x18 then writeRate v s
    else if aPNL ≤ a ∧ a < aPNL + 0x100 then writePanel a v s
    else regPut s a x
  | .rwt =>
    if aLE + 0x400 ≤ a ∧ a < aLE + 0xC00 then writeForce a v s
    else if aLE + 0xC00 ≤ a ∧ a < aLE + 0xC44 then regStage s a (x &&& routeMask s ((a - (aLE + 0xC00)) / 4))
    else regStage s a x
  | .rwl =>
    if s.pair.mstate ≠ .ready then s
    else if aFCU + 0x100 ≤ a ∧ a < aFCU + 0x188 then writeReact a v s
    else if aSLC + 0x1000 ≤ a ∧ a < aSLC + 0x2000 then
      let s1 := regStage s a x
      { s1 with slc := { s1.slc with parityBad := mput (fun _ => false) s1.slc.parityBad ((a - aSLC - 0x1000) / 4) false } }
    else regStage s a x

/-- A write to the Sluice block other than SLC_KEY, SLC_START and SLC_RELEASE disarms (R180). -/
def disarm (a : Nat) (s : State) : State := if inSluice a then { s with slc := { s.slc with armed := false } } else s

/-- The command registers and arrays: the effect of the register's own command. -/
def writeCmd (a : Nat) (v : Word) (s : State) : Option Out :=
  if a = aLE then some (writeLeCtrl v s)
  else if a = aLE + 0x20 then some (execScanHistClr v s)
  else if a = aLE + 0x40 then some (writeEditCmd v s)
  else if a = aLE + 0x98 then some (.next (writeMonCmd v s))
  else if a = aPAIR + 0xC then some (writePairCmd v s)
  else if a = aTIME + 0x10 then some (writeTimeCmd v s)
  else if a = aSYS + 0x14 then some (.next (writeSleep v s))
  else if a = aSYS + 0x20 then some (writeSysCmd v s)
  else if a = aSYS + 0x44 then some (writeUpdCmd v s)
  else if a = aNV then some (execNvTest v s)
  else if a = aNV + 0x20 then some (writeNvCmd v s)
  else if a = aNV + 0x84 then some (writeFlCmd v s)
  else if a = aBTN then some (writeBtnCtrl v s)
  else if a = aBTN + 0x30 then some (execBtnClear v s)
  else if a = aWD + 0x44 then some (execCpwdService (v &&& 0xFFFF) s)
  else if a = aSLC + 4 then some (execSlcKey v s)
  else if a = aSLC + 8 then some (execSlcStart v s)
  else if a = aSLC + 0xC then some (execSlcRelease v s)
  else if a = aPROT + 0xC then some (execFreezeClr v s)
  else if a = aRFX + 0x10 then some (execRfxLatch false v s)
  else if a = aRFX + 0x14 then some (execRfxLatch true v s)
  else if a = aRFX + 0x18 then some (execRfxSoft v s)
  else if a = aPNL then some (.next (writePnlCtrl v s))
  else if a = aPNL + 0x50 then some (execRectSubmit v s)
  else if 0x40100000 ≤ a ∧ a < 0x40104000 then writeChan ((a - 0x40100000) / 0x40) (a % 0x40) v s
  else if 0x40140000 ≤ a ∧ a < 0x40140400 then writeGrp ((a - 0x40140000) / 0x20) (a % 0x20) v s
  else if 0x40200000 ≤ a ∧ a < 0x40204000 then writeCan ((a - 0x40200000) / 0x1000) (a % 0x1000) v s
  else if 0x40320000 ≤ a ∧ a < 0x40320400 then writeUart ((a - 0x40320000) / 0x100) (a % 0x100) v s
  else if aIC ≤ a then writeIc (a - aIC) v s
  else none

/-- A write to a register block, past the checks of reserved and ignored values. -/
def blockWrite (a : Nat) (v : Word) (s : State) : Out :=
  match writeCmd a v s with
  | some o => o
  | none => .next (settle (cfgWrite a v (clearBits a v (disarm a s))))

/-- A write to the LE windows, SRAM or a register block (R11, R260, R397). -/
def spaceWrite (a : Nat) (v : Word) (s : State) : Out :=
  if 0x20000000 ≤ a ∧ a < 0x20100000 then
    .next { s with
      cp := { s.cp with sram := mput (fun _ => 0) s.cp.sram ((a - 0x20000000) / 4) v }
      mem := { s.mem with upset := mput (fun _ => 0) s.mem.upset (sramKey ((a - 0x20000000) / 4)) 0 } }
  else if 0x30000000 ≤ a ∧ a < 0x30800000 then .next (progWinWrite ((a - 0x30000000) / 8) (decide (a % 8 = 4)) v s)
  else if 0x30800000 ≤ a ∧ a < 0x30808000 then .next (poolWinWrite ((a - 0x30800000) / 8) (decide (a % 8 = 4)) v s)
  else if 0x30822000 ≤ a ∧ a < 0x30822400 then
    .next { s with mon := { s.mon with wlist := mput (fun _ => 0) s.mon.wlist ((a - 0x30822000) / 4) v } }
  else if 0x31000000 ≤ a ∧ a < 0x32000000 then
    (if a % 8 = 0 then execDataWindowLowWrite (BitVec.ofNat 21 ((a - 0x31000000) / 8)) v s
     else execDataWindowHighWrite (BitVec.ofNat 21 ((a - 0x31000000) / 8)) v s)
  else if 0x40000000 ≤ a then
    (if badCode a v then resFault a else if ignored s a v then .next (disarm a s) else blockWrite a v s)
  else .next s

/-- What OEM code may write: its half of SRAM, the LE data window, the CAN buses and nodes, CH_FAULT.REARM, CH_CAL_STATUS.REQ, the
UARTs that it owns, and event queue 1 (R261). -/
def oemMayWrite (s : State) (a : Nat) : Bool :=
  within a 0x20080000 0x200FFFFF || within a 0x31000000 0x31FFFFFF || within a 0x40200000 0x402147FF
    || (within a 0x40100000 0x40103FFF && (decide (a % 0x40 = 0x28) || decide (a % 0x40 = 0x30)))
    || (within a 0x40320000 0x403203FF && fbit (uartCfg s ((a - 0x40320000) / 0x100) 0) 1)
    || within a (aIC + 0xB20) (aIC + 0xB3F)

/-- The roles that a write through service access needs, by the operation of R278 that it makes or takes part in; none where the table
names no such operation, and then it is not offered. Bit 0 VIEW, 1 OPERATE, 2 ENGINEER, 3 MAINTAIN. -/
def rolesFor (a : Nat) (v : Word) : Option Byte :=
  if a = aLE + 0x98 then some ((if fbit v 0 then 1 else 0) ||| (if fbit v 1 then 2 else 0))
  else if a = aLE + 0x90 ∨ a = aLE + 0x94 then some 1
  else if within a (aLE + 0x400) (aLE + 0xBFF) || within a 0x30822000 0x308223FF || within a (aSLC + 4) (aSLC + 0xF)
      || a = aRFX + 0x10 || a = aRFX + 0x14 || a = aFCU || a = aFCU + 0x14 || a = aFCU + 0x18
      || (within a 0x40100000 0x40103FFF && decide (a % 0x40 = 0x30)) then some 2
  else if a = aLE || within a (aLE + 0x40) (aLE + 0x7F) || within a (aLE + 0xC00) (aLE + 0xC43)
      || within a 0x30000000 0x307FFFFF || within a 0x30800000 0x30807FFF || a = aSYS + 0x44 || a = aPAIR + 0xC
      || within a (aTIME + 8) (aTIME + 0x13) || a = aTIME + 0x20 || (a = aSYS + 0x20 && decide (fld v 0 4 = 1)) || a = aSYS + 0x14
      || a = aPROT + 0xC then some 4
  else none

/-- The session of interface `i` holds every role that the write needs (R278). -/
def sessionMay (s : State) (i : Nat) (a : Nat) (v : Word) : Bool :=
  match rolesFor a v, session s i with
  | some r, some x => decide (x.roles &&& r = r)
  | _, _ => false

/-- The roles of the session for which alone the vendor base itself makes a write: to the force table (R266), to LE_CTRL (R350), to
EDIT_CMD (R111), and in RUN to the image routing (R407). -/
def vendorNeeds (s : State) (a : Nat) : Option Byte :=
  if within a (aLE + 0x400) (aLE + 0xBFF) then some 2
  else if a = aLE || a = aLE + 0x40 || (within a (aLE + 0xC00) (aLE + 0xC43) && inRun s) then some 4
  else none

/-- A CP write to one 32-bit register. A write to an unassigned address raises a bus error and is ignored; one to an absent unit, or at an
offset that is no multiple of 4 and so names no register, is ignored; a refused access freezes the CP (R3, R297, R298, R398, R399). -/
def cpWrite (n : Nat) (v : Word) (s : State) : Out :=
  if !assigned n then .next { s with cp := { s.cp with busErrors := s.cp.busErrors + 1 } }
  else if n % 4 ≠ 0 || absentAddr s n then .next s
  else if !permitted s 1 n true then .next (settle (freezeMaster 1 (wordOf n) true s))
  else spaceWrite n v s

/-- A write of the OEM partition; it never writes UART_CFG.OWNER (R261, R273). -/
def oemWrite (n : Nat) (v : Word) (s : State) : Out :=
  if !s.cp.oemValid || s.cp.oemStopped then .next s
  else if !oemMayWrite s n then execOemViolation s
  else cpWrite n (if within n 0x40320000 0x403203FF ∧ n % 0x100 = 0 then v ||| 2 else v) s

/-- The OEM partition runs. -/
def oemRuns (s : State) : Bool := s.cp.oemValid && !s.cp.oemStopped

/-- A service call of the OEM partition for the record store: the vendor base writes NV_KEY, NV_DATA and NV_CMD for it; a WRITE outside the
partition's keys is refused with BAD_KEY (R313). -/
def oemStoreCall (n : Nat) (v : Word) (s : State) : Out :=
  let key := fld (force s (aNV + 8)) 0 16
  if n = aNV + 0x20 ∧ fld v 0 2 = 1 ∧ s.nv.mounted ∧ within key 0x4000 0x7FFF = false then .next (nvCode 4 s)
  else if within n (aNV + 8) (aNV + 0x23) then cpWrite n v s
  else .next s

/-- REGISTER_WRITE (R9): a CP write to one 32-bit register, by the vendor base, by the OEM partition within its limits (R261) or through a
service call (R313, R330), for protocol traffic at a point that may be written, or for a service session that holds the roles (R278). A CP that does not run, or is frozen, makes no access (R299). -/
def execRegisterWrite (a : CpAccess) (v : Word) (s : State) : Out :=
  let n := a.addr.toNat
  if !cpRuns s || frozen s 1 then .next s
  else match a.asker with
    | .vendor => if (vendorNeeds s n).all (sessionHolds s) then cpWrite n v s else .next s
    | .oem => oemWrite n v s
    | .session i => if ifaceLive s i.toNat && sessionMay s i.toNat n v then cpWrite n v s else .next s
    | .protocol => if s.sys.points.any (fun p => p.addr = a.addr && p.write) then cpWrite n v s else .next s
    | .oemStore => if oemRuns s then oemStoreCall n v s else .next s
    | .oemNotice r => .next (noticeIf (oemRuns s) 0x11 noSrc r.toNat v s)

end Sys2Proof.Machine
end

