-- ==== Sys2Proof/Machine/Dispatch.lean ====
section
/-! DEFINITION. The commands of the module, one arm for each row of the table of operations and events. -/

namespace Sys2Proof.Machine

def exec (i : Instr) (s : State) : Host.Outcome State Fault Refusal :=
  match i with
  | .tickBoundary => Sys2Proof.Machine.execTickBoundary s
  | .outputCommit => Sys2Proof.Machine.execOutputCommit s
  | .scanStart => Sys2Proof.Machine.execScanStart s
  | .overrun => Sys2Proof.Machine.execOverrun s
  | .refreshTimeout => Sys2Proof.Machine.execRefreshTimeout s
  | .evaluationPoint => Sys2Proof.Machine.execEvaluationPoint s
  | .scanHistClr v => Sys2Proof.Machine.execScanHistClr v s
  | .leNop c => Sys2Proof.Machine.execLeNop c s
  | .leLd c n st w b => Sys2Proof.Machine.execLeLd c n st w b s
  | .leAnd c n st w b => Sys2Proof.Machine.execLeAnd c n st w b s
  | .leOr c n st w b => Sys2Proof.Machine.execLeOr c n st w b s
  | .leXor c n st w b => Sys2Proof.Machine.execLeXor c n st w b s
  | .leSt c n st w b => Sys2Proof.Machine.execLeSt c n st w b s
  | .leSet c st w b => Sys2Proof.Machine.execLeSet c st w b s
  | .leRst c st w b => Sys2Proof.Machine.execLeRst c st w b s
  | .leTrgr c st w b => Sys2Proof.Machine.execLeTrgr c st w b s
  | .leTrgf c st w b => Sys2Proof.Machine.execLeTrgf c st w b s
  | .lePush c => Sys2Proof.Machine.execLePush c s
  | .lePop c => Sys2Proof.Machine.execLePop c s
  | .lePopand c => Sys2Proof.Machine.execLePopand c s
  | .lePopor c => Sys2Proof.Machine.execLePopor c s
  | .lePopxor c => Sys2Proof.Machine.execLePopxor c s
  | .leNot c => Sys2Proof.Machine.execLeNot c s
  | .leOne c => Sys2Proof.Machine.execLeOne c s
  | .leZero c => Sys2Proof.Machine.execLeZero c s
  | .leQgood c => Sys2Proof.Machine.execLeQgood c s
  | .leQuse c => Sys2Proof.Machine.execLeQuse c s
  | .leQsub c => Sys2Proof.Machine.execLeQsub c s
  | .leRlall c ix w => Sys2Proof.Machine.execLeRlall c ix w s
  | .leRlany c ix w => Sys2Proof.Machine.execLeRlany c ix w s
  | .leRaall c ix w => Sys2Proof.Machine.execLeRaall c ix w s
  | .leRaany c ix w => Sys2Proof.Machine.execLeRaany c ix w s
  | .leRoall c ix w => Sys2Proof.Machine.execLeRoall c ix w s
  | .leRoany c ix w => Sys2Proof.Machine.execLeRoany c ix w s
  | .leMovLd c a m w => Sys2Proof.Machine.execLeMovLd c a m w s
  | .leMovSt c a m w => Sys2Proof.Machine.execLeMovSt c a m w s
  | .leClr c a m w => Sys2Proof.Machine.execLeClr c a m w s
  | .leAdd c a m w => Sys2Proof.Machine.execLeAdd c a m w s
  | .leSub c a m w => Sys2Proof.Machine.execLeSub c a m w s
  | .leRsb c a m w => Sys2Proof.Machine.execLeRsb c a m w s
  | .leMul c a m w => Sys2Proof.Machine.execLeMul c a m w s
  | .leDiv c a m w => Sys2Proof.Machine.execLeDiv c a m w s
  | .leMod c a m w => Sys2Proof.Machine.execLeMod c a m w s
  | .leAdds c a m w => Sys2Proof.Machine.execLeAdds c a m w s
  | .leSubs c a m w => Sys2Proof.Machine.execLeSubs c a m w s
  | .leMin c a m w => Sys2Proof.Machine.execLeMin c a m w s
  | .leMax c a m w => Sys2Proof.Machine.execLeMax c a m w s
  | .leAbs c a m w => Sys2Proof.Machine.execLeAbs c a m w s
  | .leNeg c a m w => Sys2Proof.Machine.execLeNeg c a m w s
  | .leMulh c a m w => Sys2Proof.Machine.execLeMulh c a m w s
  | .leDivu c a m w => Sys2Proof.Machine.execLeDivu c a m w s
  | .leModu c a m w => Sys2Proof.Machine.execLeModu c a m w s
  | .leFadd c a m w => Sys2Proof.Machine.execLeFadd c a m w s
  | .leFsub c a m w => Sys2Proof.Machine.execLeFsub c a m w s
  | .leFmul c a m w => Sys2Proof.Machine.execLeFmul c a m w s
  | .leFdiv c a m w => Sys2Proof.Machine.execLeFdiv c a m w s
  | .leFmin c a m w => Sys2Proof.Machine.execLeFmin c a m w s
  | .leFmax c a m w => Sys2Proof.Machine.execLeFmax c a m w s
  | .leFabs c a m w => Sys2Proof.Machine.execLeFabs c a m w s
  | .leFneg c a m w => Sys2Proof.Machine.execLeFneg c a m w s
  | .leLogAnd c a m w => Sys2Proof.Machine.execLeLogAnd c a m w s
  | .leLogOr c a m w => Sys2Proof.Machine.execLeLogOr c a m w s
  | .leLogXor c a m w => Sys2Proof.Machine.execLeLogXor c a m w s
  | .leLogAndn c a m w => Sys2Proof.Machine.execLeLogAndn c a m w s
  | .leLogNot c a m w => Sys2Proof.Machine.execLeLogNot c a m w s
  | .leShl c a m w => Sys2Proof.Machine.execLeShl c a m w s
  | .leShr c a m w => Sys2Proof.Machine.execLeShr c a m w s
  | .leSar c a m w => Sys2Proof.Machine.execLeSar c a m w s
  | .leRol c a m w => Sys2Proof.Machine.execLeRol c a m w s
  | .leRor c a m w => Sys2Proof.Machine.execLeRor c a m w s
  | .leItof c a m w => Sys2Proof.Machine.execLeItof c a m w s
  | .leFtoi c a m w => Sys2Proof.Machine.execLeFtoi c a m w s
  | .leFtoiz c a m w => Sys2Proof.Machine.execLeFtoiz c a m w s
  | .leSx8 c a m w => Sys2Proof.Machine.execLeSx8 c a m w s
  | .leSx16 c a m w => Sys2Proof.Machine.execLeSx16 c a m w s
  | .leZx8 c a m w => Sys2Proof.Machine.execLeZx8 c a m w s
  | .leZx16 c a m w => Sys2Proof.Machine.execLeZx16 c a m w s
  | .leBcdi c a m w => Sys2Proof.Machine.execLeBcdi c a m w s
  | .leIbcd c a m w => Sys2Proof.Machine.execLeIbcd c a m w s
  | .leBswap c a m w => Sys2Proof.Machine.execLeBswap c a m w s
  | .leEq c a m w => Sys2Proof.Machine.execLeEq c a m w s
  | .leNe c a m w => Sys2Proof.Machine.execLeNe c a m w s
  | .leLt c a m w => Sys2Proof.Machine.execLeLt c a m w s
  | .leLe c a m w => Sys2Proof.Machine.execLeLe c a m w s
  | .leGt c a m w => Sys2Proof.Machine.execLeGt c a m w s
  | .leGe c a m w => Sys2Proof.Machine.execLeGe c a m w s
  | .leLtu c a m w => Sys2Proof.Machine.execLeLtu c a m w s
  | .leGeu c a m w => Sys2Proof.Machine.execLeGeu c a m w s
  | .leFeq c a m w => Sys2Proof.Machine.execLeFeq c a m w s
  | .leFne c a m w => Sys2Proof.Machine.execLeFne c a m w s
  | .leFlt c a m w => Sys2Proof.Machine.execLeFlt c a m w s
  | .leFle c a m w => Sys2Proof.Machine.execLeFle c a m w s
  | .leFgt c a m w => Sys2Proof.Machine.execLeFgt c a m w s
  | .leFge c a m w => Sys2Proof.Machine.execLeFge c a m w s
  | .leFun c a m w => Sys2Proof.Machine.execLeFun c a m w s
  | .leLdi c a k => Sys2Proof.Machine.execLeLdi c a k s
  | .leLdih c a k => Sys2Proof.Machine.execLeLdih c a k s
  | .leAddi c a k => Sys2Proof.Machine.execLeAddi c a k s
  | .leMuli c a k => Sys2Proof.Machine.execLeMuli c a k s
  | .leAndi c a k => Sys2Proof.Machine.execLeAndi c a k s
  | .leOri c a k => Sys2Proof.Machine.execLeOri c a k s
  | .leXori c a k => Sys2Proof.Machine.execLeXori c a k s
  | .leShli c a k => Sys2Proof.Machine.execLeShli c a k s
  | .leShri c a k => Sys2Proof.Machine.execLeShri c a k s
  | .leSari c a k => Sys2Proof.Machine.execLeSari c a k s
  | .leCeqi c a k => Sys2Proof.Machine.execLeCeqi c a k s
  | .leClti c a k => Sys2Proof.Machine.execLeClti c a k s
  | .leCgti c a k => Sys2Proof.Machine.execLeCgti c a k s
  | .leMini c a k => Sys2Proof.Machine.execLeMini c a k s
  | .leMaxi c a k => Sys2Proof.Machine.execLeMaxi c a k s
  | .leGtag c a m w => Sys2Proof.Machine.execLeGtag c a m w s
  | .leStag c a m w => Sys2Proof.Machine.execLeStag c a m w s
  | .leCtag c a m w => Sys2Proof.Machine.execLeCtag c a m w s
  | .leIsgood c a m w => Sys2Proof.Machine.execLeIsgood c a m w s
  | .leIsuse c a m w => Sys2Proof.Machine.execLeIsuse c a m w s
  | .leIsbad c a m w => Sys2Proof.Machine.execLeIsbad c a m w s
  | .leIsnp c a m w => Sys2Proof.Machine.execLeIsnp c a m w s
  | .leSubst c a m w => Sys2Proof.Machine.execLeSubst c a m w s
  | .leWorst c a m w => Sys2Proof.Machine.execLeWorst c a m w s
  | .leTeq c a m w => Sys2Proof.Machine.execLeTeq c a m w s
  | .leSysrd c a k => Sys2Proof.Machine.execLeSysrd c a k s
  | .leSyswr c a k => Sys2Proof.Machine.execLeSyswr c a k s
  | .leRaise c a k => Sys2Proof.Machine.execLeRaise c a k s
  | .leWdsrv c a k => Sys2Proof.Machine.execLeWdsrv c a k s
  | .leTon c a j => Sys2Proof.Machine.execLeTon c a j s
  | .leTof c a j => Sys2Proof.Machine.execLeTof c a j s
  | .leTp c a j => Sys2Proof.Machine.execLeTp c a j s
  | .leTrst c a j => Sys2Proof.Machine.execLeTrst c a j s
  | .leCtu c a j => Sys2Proof.Machine.execLeCtu c a j s
  | .leCtd c a j => Sys2Proof.Machine.execLeCtd c a j s
  | .leCtud c a j => Sys2Proof.Machine.execLeCtud c a j s
  | .leCrst c a j => Sys2Proof.Machine.execLeCrst c a j s
  | .leCload c a j => Sys2Proof.Machine.execLeCload c a j s
  | .leJmp c cond a t slot => Sys2Proof.Machine.execLeJmp c cond a t slot s
  | .leCall c cond a t slot => Sys2Proof.Machine.execLeCall c cond a t slot s
  | .leRet c cond a => Sys2Proof.Machine.execLeRet c cond a s
  | .leLoop c cond a t slot => Sys2Proof.Machine.execLeLoop c cond a t slot s
  | .leEnds c cond a => Sys2Proof.Machine.execLeEnds c cond a s
  | .illegalInstruction c => Sys2Proof.Machine.execIllegalInstruction c s
  | .lockstepMismatch => Sys2Proof.Machine.execLockstepMismatch s
  | .lockstepSelfTest pass => Sys2Proof.Machine.execLockstepSelfTest pass s
  | .selfTestPassStart => Sys2Proof.Machine.execSelfTestPassStart s
  | .dbProg => Sys2Proof.Machine.execDbProg s
  | .editOpen => Sys2Proof.Machine.execEditOpen s
  | .editClose => Sys2Proof.Machine.execEditClose s
  | .editStage => Sys2Proof.Machine.execEditStage s
  | .editCommit => Sys2Proof.Machine.execEditCommit s
  | .editAccept => Sys2Proof.Machine.execEditAccept s
  | .editUndo => Sys2Proof.Machine.execEditUndo s
  | .editDiscard => Sys2Proof.Machine.execEditDiscard s
  | .editSwap => Sys2Proof.Machine.execEditSwap s
  | .migrationApply => Sys2Proof.Machine.execMigrationApply s
  | .monSnap => Sys2Proof.Machine.execMonSnap s
  | .monWrite => Sys2Proof.Machine.execMonWrite s
  | .snapshot => Sys2Proof.Machine.execSnapshot s
  | .writeList => Sys2Proof.Machine.execWriteList s
  | .dataWindowLowWrite a v => Sys2Proof.Machine.execDataWindowLowWrite a v s
  | .dataWindowHighWrite a v => Sys2Proof.Machine.execDataWindowHighWrite a v s
  | .dataWindowLowRead a => Sys2Proof.Machine.execDataWindowLowRead a s
  | .rfxLatch hi v => Sys2Proof.Machine.execRfxLatch hi v s
  | .rfxSoft v => Sys2Proof.Machine.execRfxSoft v s
  | .rfxLastTime => Sys2Proof.Machine.execRfxLastTime s
  | .rawEdge n x => Sys2Proof.Machine.execRawEdge n x s
  | .debouncedEdge n => Sys2Proof.Machine.execDebouncedEdge n s
  | .wettingSample n level => Sys2Proof.Machine.execWettingSample n level s
  | .wettingConfirm n level => Sys2Proof.Machine.execWettingConfirm n level s
  | .wettingAdapt n settle => Sys2Proof.Machine.execWettingAdapt n settle s
  | .wirebreak n ua us => Sys2Proof.Machine.execWirebreak n ua us s
  | .wirebreakClear n ua us => Sys2Proof.Machine.execWirebreakClear n ua us s
  | .wbLearn n ua => Sys2Proof.Machine.execWbLearn n ua s
  | .short n us => Sys2Proof.Machine.execShort n us s
  | .overcurrent n ma us => Sys2Proof.Machine.execOvercurrent n ma us s
  | .thermal n => Sys2Proof.Machine.execThermal n s
  | .groupShed g ma us => Sys2Proof.Machine.execGroupShed g ma us s
  | .chFaultRearm n => Sys2Proof.Machine.execChFaultRearm n s
  | .mismatch n us => Sys2Proof.Machine.execMismatch n us s
  | .driveSense n on => Sys2Proof.Machine.execDriveSense n on s
  | .settlingEnd n => Sys2Proof.Machine.execSettlingEnd n s
  | .calDue n => Sys2Proof.Machine.execCalDue n s
  | .calWindow n => Sys2Proof.Machine.execCalWindow n s
  | .calResult n thr ilim terminal => Sys2Proof.Machine.execCalResult n thr ilim terminal s
  | .abortEdge n => Sys2Proof.Machine.execAbortEdge n s
  | .calOverdue n => Sys2Proof.Machine.execCalOverdue n s
  | .calReq n => Sys2Proof.Machine.execCalReq n s
  | .fieldSupplyLost g => Sys2Proof.Machine.execFieldSupplyLost g s
  | .fieldSupplyReturn g => Sys2Proof.Machine.execFieldSupplyReturn g s
  | .low g mv => Sys2Proof.Machine.execLow g mv s
  | .surge g uj => Sys2Proof.Machine.execSurge g uj s
  | .slcKey v => Sys2Proof.Machine.execSlcKey v s
  | .slcStart v => Sys2Proof.Machine.execSlcStart v s
  | .slcRelease v => Sys2Proof.Machine.execSlcRelease v s
  | .setch g => Sys2Proof.Machine.execSetch g s
  | .clrch g => Sys2Proof.Machine.execClrch g s
  | .slcHold g => Sys2Proof.Machine.execSlcHold g s
  | .pulse g => Sys2Proof.Machine.execPulse g s
  | .pulseEnd g => Sys2Proof.Machine.execPulseEnd g s
  | .slcWait g => Sys2Proof.Machine.execSlcWait g s
  | .waitEnd g => Sys2Proof.Machine.execWaitEnd g s
  | .waitin g => Sys2Proof.Machine.execWaitin g s
  | .waitinSatisfied g => Sys2Proof.Machine.execWaitinSatisfied g s
  | .waitinTimeout g => Sys2Proof.Machine.execWaitinTimeout g s
  | .slcEnd g => Sys2Proof.Machine.execSlcEnd g s
  | .hardOff g => Sys2Proof.Machine.execHardOff g s
  | .supplyLoss => Sys2Proof.Machine.execSupplyLoss s
  | .supplyLow low => Sys2Proof.Machine.execSupplyLow low s
  | .heartbeatSend lane => Sys2Proof.Machine.execHeartbeatSend lane s
  | .heartbeat h p => Sys2Proof.Machine.execHeartbeat h p s
  | .laneDown lane => Sys2Proof.Machine.execLaneDown lane s
  | .linkResend seq => Sys2Proof.Machine.execLinkResend seq s
  | .giveUp h p => Sys2Proof.Machine.execGiveUp h p s
  | .takeover => Sys2Proof.Machine.execTakeover s
  | .taken h tick => Sys2Proof.Machine.execTaken h tick s
  | .giveupExpired => Sys2Proof.Machine.execGiveupExpired s
  | .tokenIn on => Sys2Proof.Machine.execTokenIn on s
  | .epochBegin h p => Sys2Proof.Machine.execEpochBegin h p s
  | .block h sweep a ws => Sys2Proof.Machine.execBlock h sweep a ws s
  | .edit h p => Sys2Proof.Machine.execEdit h p s
  | .force h p => Sys2Proof.Machine.execForce h p s
  | .epochEnd h seq crcOk => Sys2Proof.Machine.execEpochEnd h seq crcOk s
  | .epochLost h seq => Sys2Proof.Machine.execEpochLost h seq s
  | .epochShipped => Sys2Proof.Machine.execEpochShipped s
  | .program h bundle ws => Sys2Proof.Machine.execProgram h bundle ws s
  | .rangeAck h base pool => Sys2Proof.Machine.execRangeAck h base pool s
  | .blockTable h live prev => Sys2Proof.Machine.execBlockTable h live prev s
  | .cfgReq h => Sys2Proof.Machine.execCfgReq h s
  | .cfgData h slot => Sys2Proof.Machine.execCfgData h slot s
  | .cfgEnd h => Sys2Proof.Machine.execCfgEnd h s
  | .cpMsg h p => Sys2Proof.Machine.execCpMsg h p s
  | .handover key => Sys2Proof.Machine.execHandover key s
  | .handoverFail => Sys2Proof.Machine.execHandoverFail s
  | .pull key => Sys2Proof.Machine.execPull key s
  | .resync key => Sys2Proof.Machine.execResync key s
  | .listenEnd => Sys2Proof.Machine.execListenEnd s
  | .pairLastTime => Sys2Proof.Machine.execPairLastTime s
  | .pairEpochTick => Sys2Proof.Machine.execPairEpochTick s
  | .timeSet key => Sys2Proof.Machine.execTimeSet key s
  | .slew key => Sys2Proof.Machine.execSlew key s
  | .slewStop key => Sys2Proof.Machine.execSlewStop key s
  | .ppsIn => Sys2Proof.Machine.execPpsIn s
  | .ppsHoldover => Sys2Proof.Machine.execPpsHoldover s
  | .timeOfDay u utc ageMs => Sys2Proof.Machine.execTimeOfDay u utc ageMs s
  | .ppsOut => Sys2Proof.Machine.execPpsOut s
  | .timeLo => Sys2Proof.Machine.execTimeLo s
  | .countLo => Sys2Proof.Machine.execCountLo s
  | .referenceFrame b delay => Sys2Proof.Machine.execReferenceFrame b delay s
  | .referenceFrameHeard b id byte0 => Sys2Proof.Machine.execReferenceFrameHeard b id byte0 s
  | .freeWindow b => Sys2Proof.Machine.execFreeWindow b s
  | .activateArm => Sys2Proof.Machine.execActivateArm s
  | .nodeInputFrame k sof eof busy data => Sys2Proof.Machine.execNodeInputFrame k sof eof busy data s
  | .rxFrame b f => Sys2Proof.Machine.execRxFrame b f s
  | .canRxPop b v => Sys2Proof.Machine.execCanRxPop b v s
  | .txReq b e => Sys2Proof.Machine.execTxReq b e s
  | .txAbort b e => Sys2Proof.Machine.execTxAbort b e s
  | .txDone b e stamp esi => Sys2Proof.Machine.execTxDone b e stamp esi s
  | .busError b tec rec => Sys2Proof.Machine.execBusError b tec rec s
  | .errorStateChange b tec rec st => Sys2Proof.Machine.execErrorStateChange b tec rec st s
  | .busOffRecovery b => Sys2Proof.Machine.execBusOffRecovery b s
  | .icClaim => Sys2Proof.Machine.execIcClaim s
  | .icComplete src => Sys2Proof.Machine.execIcComplete src s
  | .eqPop q v => Sys2Proof.Machine.execEqPop q v s
  | .cpWdg => Sys2Proof.Machine.execCpWdg s
  | .cpwdService v => Sys2Proof.Machine.execCpwdService v s
  | .cpLockstep => Sys2Proof.Machine.execCpLockstep s
  | .dbCpSram => Sys2Proof.Machine.execDbCpSram s
  | .cpResetRequest => Sys2Proof.Machine.execCpResetRequest s
  | .cpRestart => Sys2Proof.Machine.execCpRestart s
  | .oemViolation => Sys2Proof.Machine.execOemViolation s
  | .oemRestart => Sys2Proof.Machine.execOemRestart s
  | .uartDataWrite u v => Sys2Proof.Machine.execUartDataWrite u v s
  | .uartDataRead u => Sys2Proof.Machine.execUartDataRead u s
  | .leadEnd u => Sys2Proof.Machine.execLeadEnd u s
  | .tailEnd u => Sys2Proof.Machine.execTailEnd u s
  | .govHold u => Sys2Proof.Machine.execGovHold u s
  | .govResume u => Sys2Proof.Machine.execGovResume u s
  | .uartRxByte u v perr ferr => Sys2Proof.Machine.execUartRxByte u v perr ferr s
  | .idleGap u => Sys2Proof.Machine.execIdleGap u s
  | .uartTxComplete u => Sys2Proof.Machine.execUartTxComplete u s
  | .modemLineChange u lines => Sys2Proof.Machine.execModemLineChange u lines s
  | .ethernetFrame e len tagged fcsOk => Sys2Proof.Machine.execEthernetFrame e len tagged fcsOk s
  | .ethernetLink e up => Sys2Proof.Machine.execEthernetLink e up s
  | .sessionOpen ix => Sys2Proof.Machine.execSessionOpen ix s
  | .token ix t => Sys2Proof.Machine.execToken ix t s
  | .tokenLockEnd ix => Sys2Proof.Machine.execTokenLockEnd ix s
  | .sessionExpiry ix => Sys2Proof.Machine.execSessionExpiry ix s
  | .scrub bank => Sys2Proof.Machine.execScrub bank s
  | .protectionViolation m addr write => Sys2Proof.Machine.execProtectionViolation m addr write s
  | .freezeClr v => Sys2Proof.Machine.execFreezeClr v s
  | .twdExpired k => Sys2Proof.Machine.execTwdExpired k s
  | .backupWdg => Sys2Proof.Machine.execBackupWdg s
  | .clockFail dev => Sys2Proof.Machine.execClockFail dev s
  | .clockRecovery => Sys2Proof.Machine.execClockRecovery s
  | .backupClock bad => Sys2Proof.Machine.execBackupClock bad s
  | .fcuParity w => Sys2Proof.Machine.execFcuParity w s
  | .fcuFirstTimeLo => Sys2Proof.Machine.execFcuFirstTimeLo s
  | .fcuFatalTimeLo => Sys2Proof.Machine.execFcuFatalTimeLo s
  | .nvWrite => Sys2Proof.Machine.execNvWrite s
  | .nvRead => Sys2Proof.Machine.execNvRead s
  | .nvDrain => Sys2Proof.Machine.execNvDrain s
  | .nvProgramDone ok => Sys2Proof.Machine.execNvProgramDone ok s
  | .nvEraseDone blank => Sys2Proof.Machine.execNvEraseDone blank s
  | .mountDone => Sys2Proof.Machine.execMountDone s
  | .startupEnd => Sys2Proof.Machine.execStartupEnd s
  | .recoveryEnd => Sys2Proof.Machine.execRecoveryEnd s
  | .nvTest v => Sys2Proof.Machine.execNvTest v s
  | .persistRound => Sys2Proof.Machine.execPersistRound s
  | .flProgram v from_ => Sys2Proof.Machine.execFlProgram v from_ s
  | .flErase v from_ => Sys2Proof.Machine.execFlErase v from_ s
  | .flDone ok => Sys2Proof.Machine.execFlDone ok s
  | .bitternRound => Sys2Proof.Machine.execBitternRound s
  | .persist v => Sys2Proof.Machine.execPersist v s
  | .logSample mv temp die field => Sys2Proof.Machine.execLogSample mv temp die field s
  | .operatingMinute => Sys2Proof.Machine.execOperatingMinute s
  | .readout => Sys2Proof.Machine.execReadout s
  | .noticeRead r => Sys2Proof.Machine.execNoticeRead r s
  | .clearRequest ix r => Sys2Proof.Machine.execClearRequest ix r s
  | .btnClear v => Sys2Proof.Machine.execBtnClear v s
  | .powerUp seatB => Sys2Proof.Machine.execPowerUp seatB s
  | .tickGo v => Sys2Proof.Machine.execTickGo v s
  | .softReset v => Sys2Proof.Machine.execSoftReset v s
  | .moduleReset => Sys2Proof.Machine.execModuleReset s
  | .leRun v => Sys2Proof.Machine.execLeRun v s
  | .leStop v => Sys2Proof.Machine.execLeStop v s
  | .stopComplete => Sys2Proof.Machine.execStopComplete s
  | .sleep v => Sys2Proof.Machine.execSleep v s
  | .wake src => Sys2Proof.Machine.execWake src s
  | .configSlotWrite slot => Sys2Proof.Machine.execConfigSlotWrite slot s
  | .manifest m => Sys2Proof.Machine.execManifest m s
  | .chunk type c len crcOk hashOk img => Sys2Proof.Machine.execChunk type c len crcOk hashOk img s
  | .decision => Sys2Proof.Machine.execDecision s
  | .activation => Sys2Proof.Machine.execActivation s
  | .confirm => Sys2Proof.Machine.execConfirm s
  | .oemConfirm => Sys2Proof.Machine.execOemConfirm s
  | .confirmTimeout => Sys2Proof.Machine.execConfirmTimeout s
  | .fallback => Sys2Proof.Machine.execFallback s
  | .updCancel key => Sys2Proof.Machine.execUpdCancel key s
  | .updConfirm key => Sys2Proof.Machine.execUpdConfirm key s
  | .updFallback key => Sys2Proof.Machine.execUpdFallback key s
  | .updDiscard key => Sys2Proof.Machine.execUpdDiscard key s
  | .grdEvaluation => Sys2Proof.Machine.execGrdEvaluation s
  | .canaryUrgent slack canary => Sys2Proof.Machine.execCanaryUrgent slack canary s
  | .monthRecord => Sys2Proof.Machine.execMonthRecord s
  | .derate temp => Sys2Proof.Machine.execDerate temp s
  | .refDrift n mv => Sys2Proof.Machine.execRefDrift n mv s
  | .flashMarginRead weak => Sys2Proof.Machine.execFlashMarginRead weak s
  | .cellTest mv => Sys2Proof.Machine.execCellTest mv s
  | .overtemp t => Sys2Proof.Machine.execOvertemp t s
  | .pwrOn => Sys2Proof.Machine.execPwrOn s
  | .pwrOff => Sys2Proof.Machine.execPwrOff s
  | .dischargeDone => Sys2Proof.Machine.execDischargeDone s
  | .flush => Sys2Proof.Machine.execFlush s
  | .rectSubmit v => Sys2Proof.Machine.execRectSubmit v s
  | .passStart => Sys2Proof.Machine.execPassStart s
  | .passEnd => Sys2Proof.Machine.execPassEnd s
  | .fullRefresh => Sys2Proof.Machine.execFullRefresh s
  | .rowScrub => Sys2Proof.Machine.execRowScrub s
  | .blinkPhase => Sys2Proof.Machine.execBlinkPhase s
  | .panelSupplyFault => Sys2Proof.Machine.execPanelSupplyFault s
  | .registerWrite a v => Sys2Proof.Machine.execRegisterWrite a v s
  | .lowClear g mv => Sys2Proof.Machine.execLowClear g mv s
  | .slewComplete => Sys2Proof.Machine.execSlewComplete s
  | .bwdHalfTimeout => Sys2Proof.Machine.execBwdHalfTimeout s
  | .usbVbus on => Sys2Proof.Machine.execUsbVbus on s
  | .usbLoader sigOk => Sys2Proof.Machine.execUsbLoader sigOk s
  | .roMeasure degr => Sys2Proof.Machine.execRoMeasure degr s
  | .tcxoDailyMean ppb => Sys2Proof.Machine.execTcxoDailyMean ppb s

end Sys2Proof.Machine
end

