-- ==== Sys2Proof/Machine/Schedule.lean ====
section
/-! DEFINITION. What the module does while no command waits: one cycle of the fabric clock passes, the counters that run by
themselves move, the bundle in execution is fetched, and the events of the module's own clockwork that have fallen due
take place (log 50-53). -/

namespace Sys2Proof.Machine

/-! ### Counters that run by themselves -/

/-- The quotient `cyc * k / m` grows in the cycle that ends now: `k` times in every `m` fabric cycles, evenly spread. -/
def turns (s : State) (k m : Nat) : Bool := decide ((s.time.cyc - 1) * k / m < s.time.cyc * k / m)

/-- The record governor: 1.5 records per second in units of 1/16 record, up to 4,000 records (R315). -/
def nvGovern (s : State) : State :=
  { s with nv := { s.nv with level := if turns s 24 200000000 then min 64000 (s.nv.level + 1) else s.nv.level } }

/-- A UART's shift register: a character that has ended gives way to the next of the FIFO, unless the governor holds
(R274, R275). -/
def uartShift (s : State) (u : Nat) : State :=
  let x := ua s u
  if x.busy && !x.leading && !x.hold && !x.tx.isEmpty && decide (x.phaseCyc + charCyc s u ≤ s.time.cyc) then
    charStart u (x.phaseCyc + charCyc s u) s
  else s

/-- The duty governor's budget, in units of 0.01 ms, each millisecond (R275). -/
def uartBudget (s : State) (u : Nat) : State :=
  let x := ua s u
  let d : Int := fld (uartCfg s u 0xC) 0 8
  if govOn s u && turns s 1 200000 then
    uaPut s u { x with level := min (govCap s u) (x.level + d - (if rtsOn s u then 100 else 0)) }
  else s

/-- A standby that is ARMED reports READY once a second (R360). -/
def readySend (s : State) : State :=
  if s.pair.role = .standby ∧ s.upd.phase = .armed ∧ turns s 1 200000000 then cpSend (.ready s.upd.seq) s else s

/-- The interval of Sync messages has passed: 2^ptpLog seconds, 1 s unless the configuration sets another, from 2^-3 s to 2 s (R238). -/
def syncDue (s : State) : Bool := turns s 8 (200000000 * 2 ^ (s.cp.eth.ptpLog + 3).toNat)

/-- The PTP ports send a Sync at their interval, whose transmit descriptor completes (R401); none leaves while the CP is down or the
Ethernet DMA is frozen, nor with factory defaults, under which Ethernet 0 runs the service protocol only (R238, R271, R299, log 93). -/
def ptpSend (s : State) : State :=
  if cpRuns s ∧ s.prot.frozen.getLsbD 4 = false ∧ s.sys.cfgDefaulted = false ∧ syncDue s then
    ([false, true].filter (fun e => ethOn s e)).foldl (fun a e =>
      fire (417 + 4 * b2n e) a.time.ns { a with cp := { a.cp with ptp := mput (fun _ => none) a.cp.ptp (b2n e) (some (ptpSync a)) } }) s
  else s

/-- The hold-up energy lasts 12 ms from the detection of supply loss; then the module is without power. A supply that has returned
meanwhile starts the module again once the hold-up work is done (R187, R319). -/
def supplyEnd (s : State) : State :=
  if s.sys.supplyLost ∧ s.sys.powerBack.isSome ∧ holdUpOver s = true then powerStart true (s.sys.powerBack.getD false) s
  else if s.sys.supplyLost ∧ s.sys.lossCyc + cycMs 12 ≤ s.time.cyc then
    { s with sys := { s.sys with powered := false } }
  else s

/-- CP SRAM: the running CP finds an error in it; a single bit is corrected and written back, two bits reset the CP (R281, R284).
DESIGN CHOICE (log 113): it finds the error of the lowest word in the next cycle. -/
def sramWatch (s : State) : State :=
  match s.mem.upset.find? (fun p => decide (0x400000 ≤ p.1)) with
  | some p =>
    let s1 := clearUpset (fun k => decide (k = p.1)) s
    if !cpRuns s then s
    else if p.2 = 1 then sramCount p.1 (corrected s1) else cpReset 3 (containedFault 537 0x12 s1)
  | none => s

/-- One cycle of the fabric clock. -/
def cycle (s : State) : State :=
  let s1 := nvGovern (advance s)
  supplyEnd (sramWatch <| ptpSend <| readySend ((List.range 4).foldl uartBudget ((List.range 4).foldl uartShift s1)))

/-! ### The fetch (R46, R81, R107, R108) -/

/-- The bundle in execution is to be fetched: a scan runs, the last bundle has retired, and its LE cycles have passed. -/
def fetchDue (s : State) : Bool :=
  s.le.running && !s.le.issued && s.le.bundle.isEmpty && !s.prot.frozen.getLsbD 0
    && decide (s.le.startCyc * s.le.mhz + 200 * s.le.scanCyc ≤ s.time.cyc * s.le.mhz)

/-- The live entry of the block that the program counter names (R107). -/
def pcBlock (s : State) : BlockEntry := liveOf s (s.le.pc.toNat / 256)

/-- A fetch beyond the block's LEN, or from a block without an entry, is an ILLEGAL trap (R108). -/
def fetchBad (s : State) : Bool := decide ((pcBlock s).len.toNat ≤ s.le.pc.toNat % 256)

/-- The word of lane `l` of the bundle that the program counter names (R46, R107). -/
def fetchWord (s : State) (l : Nat) : BitVec 36 :=
  progWord s (4 * (((pcBlock s).pbase.toNat + s.le.pc.toNat % 256) % 262144) + l)

/-- The instructions of the bundle, from the lane at which it is entered; the bundle retires with lane 3 (R52, R81). -/
def fetched (s : State) : List Instr :=
  ((List.range 4).filter (fun l => decide (s.le.slot.toNat ≤ l))).map (fun l =>
    leDecode ⟨BitVec.ofNat 2 l, decide (l = 3)⟩ (fetchWord s l))

/-- The trap of a fetch belongs to no instruction; it is recorded for the first lane that would have executed, and the scan
ends (R87, R108). -/
def fetchTrap (s : State) : State := settle (abortScan (recordTraps [(s.le.slot, 4)] s))

/-! ### Events of the module's own clockwork

Each command below takes effect when its conditions hold, and changes nothing otherwise; so a cycle runs them all. -/

/-- An event of the clockwork. -/
abbrev Event := State → Out

/-- The event takes place. -/
def occur (s : State) (e : Event) : State :=
  match e s with
  | .next t => t
  | _ => s

/-- The steps of a group's sequence (R171-R176). -/
def slcEvents (g : Nat) : List Event :=
  let k := BitVec.ofNat 5 g
  [execPulseEnd k, execWaitEnd k, execWaitinSatisfied k, execWaitinTimeout k, execSetch k, execClrch k, execSlcHold k,
   execPulse k, execSlcWait k, execWaitin k, execSlcEnd k]

/-- The events of a channel's sampling, settling and calibration that follow from time alone (R148, R162, R163, R166). -/
def chanEvents (n : Nat) : List Event :=
  let k := BitVec.ofNat 8 n
  [execDebouncedEdge k, execSettlingEnd k, execCalDue k, execCalOverdue k, execCalWindow k]

/-- The events of a bus schedule (R242, R253); a reference frame starts as soon as the bus is free. -/
def busEvents (b : Nat) : List Event :=
  [execReferenceFrame (BitVec.ofNat 2 b) 0, execFreeWindow (BitVec.ofNat 2 b), fun s => .next (busServe b s), fun s => .next (txRefuse b s)]

/-- The events of a UART. -/
def uartEvents (u : Nat) : List Event :=
  let k := BitVec.ofNat 2 u
  [execGovHold k, execUartTxComplete k, execTailEnd k, execGovResume k, execLeadEnd k, execIdleGap k]

/-- The events of a service interface. -/
def ifaceEvents (i : Nat) : List Event := [execSessionExpiry (BitVec.ofNat 2 i), execTokenLockEnd (BitVec.ofNat 2 i)]

/-- Each lane carries a HEARTBEAT every 20 µs (R201), and a scrub access to a bank is due once every 256 LE cycles (R97). -/
def rateEvents (s : State) : List Event :=
  (if turns s 1 4000 then [execHeartbeatSend false, execHeartbeatSend true] else [])
    ++ (if turns s s.le.mhz 51200 then (List.range 16).map (fun b => execScrub (BitVec.ofNat 4 b)) else [])

/-- The events that may fall due by the passing of time alone, in the order in which those of one cycle take place. -/
def clockwork (s : State) : List Event :=
  [execModuleReset, fun s => .next (slotStep s), fun s => .next (clockRestart s), fun s => .next (sleepStep s), execBackupWdg, execBwdHalfTimeout, execCpWdg, execSlewComplete, execPpsOut, execPpsHoldover,
   execTakeover, execStopComplete, execFallback, execActivation]
  ++ (List.range (nCh s)).flatMap chanEvents
  ++ [execTickBoundary, execEditSwap, execSelfTestPassStart, execOutputCommit, execRefreshTimeout, execScanStart, execLockstepSelfTest true,
      execGiveupExpired, execOverrun, execEvaluationPoint, execListenEnd, execHandoverFail]
  ++ (List.range (nBus s)).flatMap busEvents
  ++ (List.range 8).map (fun k => execTwdExpired (BitVec.ofNat 3 k))
  ++ [execLaneDown false, execLaneDown true] ++ s.pair.unacked.map (fun f => execLinkResend f.hdr.seq)
  ++ [fun s => .next (linkServe s), execEpochShipped, fun s => .next (hardOffAll s)]
  ++ [execActivateArm, execDecision, execConfirm, execConfirmTimeout, execSnapshot, execWriteList, execMigrationApply, fun s => .next (updMigrate s)]
  ++ (List.range (nGroups s)).flatMap slcEvents
  ++ (List.range 4).flatMap uartEvents
  ++ (List.range 3).flatMap ifaceEvents
  ++ [execOemRestart, execStartupEnd, execRecoveryEnd, fun s => .next (nvCarry s), execNvDrain, fun s => .next (nvKeep s), execPersistRound, execOperatingMinute,
      execBitternRound, execGrdEvaluation, execMonthRecord, execDischargeDone, fun s => .next (startSubmit s), fun s => .next (panelRows s), execFullRefresh, execRowScrub,
      execBlinkPhase, execPassEnd, execPassStart]
  ++ rateEvents s

/-- The errors of the program store that the fetch finds in the bundle (R284). -/
def fetchFaults (s : State) : List (Nat × Nat) :=
  (List.range 4).flatMap (fun l =>
    codeFault s (progKey (4 * (((pcBlock s).pbase.toNat + s.le.pc.toNat % 256) % 262144) + l)))

/-- The fetch: the instructions of the bundle join the queue, or the fetch traps; an error in the bundle is corrected, or is fatal and
the bundle does not execute (R284). -/
def fetch (s : State) : State :=
  let go := fun (a : State) => { a with pending := a.pending ++ fetched a, le := { a.le with issued := true } }
  if fetchBad s then fetchTrap s
  else if (fetchFaults s).isEmpty then go s
  else
    let s1 := recordReadFaults (fetchFaults s) s
    if (fetchFaults s).any (fun f => decide (f.2 = 0x22)) || !s1.le.running then
      settle { s1 with le := { s1.le with running := false, bundle := [], issued := false } }
    else settle (go s1)

/-- A cycle in SLEEP: the main clock has stopped, and with it station time and every unit that it drives; the backup watchdog counts
the time to the wake, and the discharge of the panel and the work of a supply loss end (R352, R353). -/
def sleepIdle (s : State) : State :=
  settle ([execModuleReset, execBackupWdg, execDischargeDone].foldl occur
    (supplyEnd { s with time := { s.time with cyc := s.time.cyc + 1 } }))

/-- No command waits: a bundle that is due is fetched; otherwise a cycle passes, with the events that fall due in it, and the reflex
unit and the output commands follow, as they do in every fabric cycle (R126, R133). Without power nothing happens. -/
def idle (s : State) : State :=
  if !s.sys.powered then s
  else if s.pair.mstate = .sleep then sleepIdle s
  else if fetchDue s then fetch s
  else let s1 := cycle s; settle ((clockwork s1).foldl occur s1)

end Sys2Proof.Machine
end

