-- ==== Sys2Proof/Safety.lean ====
section
/-! DEFINITION. The terms in which claims about the module are stated: the invariants that every step keeps, and what the
completion of an LE instruction is. -/

namespace Sys2Proof.Machine

/-! ### Invariants -/

/-- The data memory is in its canonical form: addresses strictly rising, and no entry equal to what an unlisted word reads
as. -/
def memOk (s : State) : Bool := mwf (fun _ => goodZero) s.mem.words && mwf (fun _ => none) s.mem.lwords

/-- The tables of lanes, channels, groups, sequencers, buses, nodes, UARTs and configuration registers are in their
canonical form, so that what was written to one of them reads back. -/
def tablesOk (s : State) : Bool :=
  mwf (fun _ => ({} : LaneSt)) s.le.lanes && mwf (fun _ => ({} : ChanSt)) s.chan && mwf (fun _ => ({} : GrpSt)) s.grp
    && mwf (fun _ => ({} : SlcGrp)) s.slc.grp && mwf (fun _ => ({} : BusSt)) s.bus
    && mwf (fun _ => ({} : NodeSt)) s.node && mwf (fun _ => ({} : UartSt)) s.cp.uart
    && mwf regReset s.regs.written && mwf regReset s.regs.force

/-- An event queue holds at most 512 entries (R269). -/
def queuesOk (s : State) : Bool := decide (s.ev.q0.length ≤ 512) && decide (s.ev.q1.length ≤ 512)

/-- A module asserts TOKEN_OUT only while it is ACTIVE in RUN (R202). -/
def tokenOk (s : State) : Bool :=
  !s.pair.tokenOut || (decide (s.pair.mstate = .run) && decide (s.pair.role = .active))

/-! ### LE instructions that are alone in their bundle -/

/-- A scan runs, no instruction of the bundle has issued yet, and this one is the bundle's last: it is alone in its
bundle. -/
def aloneIn (c : At) (s : State) : Bool := s.le.running && s.le.bundle.isEmpty && c.last && tablesOk s

/-- The LE may read the word, and finds no memory fault there. -/
def quietRead (s : State) (w : Nat) : Bool := winAllows s 0 w false && (readFaults s w).isEmpty

/-- The LE may write the word. -/
def quietWrite (s : State) (w : Nat) : Bool := (writeViol s w).isEmpty

/-- The operand is addressed by a legal form, found without a trap, and read without a violation or a memory fault. -/
def quietOpd (s : State) (c : At) (m : BitVec 2) (w : BitVec 21) : Bool :=
  !opdIllegal m w && (opdLoad s c m w).traps.isEmpty && (opdLoad s c m w).viols.isEmpty
    && (opdLoad s c m w).memFaults.isEmpty

/-- The operand is addressed by a legal form, and its place is found and may be written. -/
def quietDest (s : State) (c : At) (m : BitVec 2) (w : BitVec 21) : Bool :=
  !opdIllegal m w && (opdBase s c m w).viols.isEmpty && (opdBase s c m w).memFaults.isEmpty &&
    (match opdPlace s c m w with
     | .mem a => quietWrite s a
     | .acc _ _ => true
     | .refused _ => false)

/-- The state after the bundle's results have been written (`r`) and the next bundle follows. -/
def advanced (r : State) (cyc stalls : Nat) : State :=
  { r with le := { r.le with
    pc := r.le.pc + 1, slot := 0, bundle := [], issued := false, scanCyc := cyc, stalls := stalls } }

/-- The command answers the state in which exactly the results in `r` have been written and the next bundle follows; the
time that the bundle took, which R89-R93 fix, is not stated here. -/
def retiresTo (o : Out) (r : State) : Prop := ∃ cyc stalls, o = .next (advanced r cyc stalls)

/-- The lane's RLO takes a bit with its tag; nothing else changes. -/
def rloResult (s : State) (c : At) (b : Bool) (t : Tag) : State :=
  lanePut s c.lane.toNat { lane s c.lane.toNat with rlo := ⟨b, t⟩ }

/-- The lane's accumulator takes a word, and its sticky flags the set bits; nothing else changes. -/
def accResult (s : State) (c : At) (a : BitVec 3) (v : Word) (t : Tag) (f : FlagSet) : State :=
  let x := lane s c.lane.toNat
  lanePut s c.lane.toNat { x with acc := mput (fun _ => ⟨0, 0⟩) x.acc a.toNat ⟨v, t⟩, flags := x.flags ||| f }

/-- The word with its tag goes to the operand's place; nothing else changes. A register operand is the accumulator of any
lane (R66). -/
def storeResult (s : State) (c : At) (m : BitVec 2) (w : BitVec 21) (mask v : Word) (t : Tag) : State :=
  match opdPlace s c m w with
  | .mem a => if mask = 0 then writeTag a t s else writeBits a mask v t s
  | .acc l i => lanePut s l (accWrite (lane s l) i mask v t)
  | .refused _ => s

/-- Words of the block at `base` take values, each with the tag. -/
def storeWords (s : State) (base : Nat) (l : List (Nat × Word)) (t : Tag) : State :=
  l.foldl (fun r p => writeBits (base + p.1) 0xFFFFFFFF p.2 t r) s

/-- The LE may read and write the 8-word block at `base`, and finds no memory fault there. -/
def quietBlock (s : State) (base : Nat) : Bool :=
  (List.range 8).all (fun i => quietRead s (base + i) && quietWrite s (base + i))

/-- The command answers the state in which the results in `r` have been written and the bundle at `target` follows, entered
at `slot`. -/
def jumpsTo (o : Out) (r : State) (target : BitVec 18) (slot : BitVec 2) : Prop :=
  ∃ cyc stalls, o = .next { r with le := { r.le with
    pc := target, slot := slot, bundle := [], issued := false, scanCyc := cyc, stalls := stalls } }

/-- The bundle retires: the next bundle follows, the lane holds `y`, every other lane is as before, and beside the logic engine and the
words of the data memory only Harvest's marks, with the resync that they may start, change (R203, R205). -/
def bundleEnds (s t : State) (c : At) (y : LaneSt) : Prop :=
  t.le = { s.le with
    pc := s.le.pc + 1, slot := 0, bundle := [], issued := false, scanCyc := t.le.scanCyc, stalls := t.le.stalls
    lanes := t.le.lanes } ∧
  (∀ l, lane t l = if l = c.lane.toNat then y else lane s l) ∧
  t = { s with
    le := t.le, pair := t.pair, edit := t.edit, btn := t.btn
    mem := { s.mem with words := t.mem.words, lwords := t.mem.lwords, upset := t.mem.upset } } ∧
  t.pair.mstate = s.pair.mstate ∧ t.pair.role = s.pair.role ∧ t.pair.tokenOut = s.pair.tokenOut

/-- The command ends the scan with a trap of the reason, captured in LE_TRAP if LE_TRAP was free (R86-R88). -/
def trapsWith (o : Out) (s : State) (c : At) (reason : BitVec 4) : Prop :=
  ∃ t, o = .next t ∧ t.le.running = false ∧ t.mem = s.mem ∧ t.le.lanes = s.le.lanes ∧ t.le.trapValid = true ∧
    (s.le.trapValid = false →
      t.le.trapReason = reason ∧ t.le.trapBundle = s.le.pc ∧ t.le.trapLane = c.lane ∧
      t.le.trapTick = BitVec.ofNat 32 s.tick.num)

/-! ### Fatal faults -/

/-- The reaction to a fatal fault from `src` with a reason, by the role and state in which it is captured (R285): `t` is the
state after it, `cause` the Sluice cause of a SOLO module. -/
def fatalOutcome (s t : State) (src : BitVec 10) (reason : BitVec 6) (cause : BitVec 4) : Prop :=
  t.pair.tokenOut = false ∧ t.mem = s.mem ∧
  (s.pair.role = .active → s.pair.mstate = .run →
    t.pair.mstate = .hold ∧ t.pair.giveKind = 1 ∧ t.pair.giveSrc = src ∧ t.pair.giveReason = reason ∧
    t.pair.giveTick = some s.tick.num ∧ t.le.running = false ∧
    (s.pair.released = false → s.pair.tokenIn = true ∨ foreignDrive s = true →
      t.pair.released = true ∧ t.sys.pendReset = some 4) ∧
    (s.pair.tokenIn = false → foreignDrive s = false → t.sys.pendReset = s.sys.pendReset)) ∧
  (s.pair.role = .solo → (s.pair.mstate = .run ∨ s.pair.mstate = .ready) →
    t.pair.mstate = .safe ∧ t.slc.lastCause = cause ∧ t.slc.lastValid = true ∧ t.le.running = false ∧
    (tablesOk s = true → ∀ g, g < nGroups s → (sg s g).phase = .idle → (sg t g).phase = .running ∧ (sg t g).cause = cause)) ∧
  ((s.pair.role = .standby ∧ s.pair.mstate = .shadow ∨ s.pair.role = .undecided ∧ s.pair.mstate = .ready) →
    t.sys.pendReset = some 4 ∧ t.pair.mstate = s.pair.mstate)

/-! ### Rows that are accesses of the CP -/

/-- The register that a row of the CP reads or writes, and whether it writes (R260, R296). -/
def regRow (i : Instr) : Option (Nat × Bool) :=
  match i with
  | .persist _ => some (aBTN, true)
  | .noticeRead r => some (aBTN + 0x2000 + 32 * r.toNat, false)
  | .btnClear _ => some (aBTN + 0x30, true)
  | .canRxPop b _ => some (aCAN b.toNat + 0x24, true)
  | .txReq b e | .txAbort b e => some (txAddr b.toNat e.toNat 4, true)
  | .chFaultRearm n => some (aCH n.toNat + 0x30, true)
  | .calReq n => some (aCH n.toNat + 0x28, true)
  | .icClaim => some (aIC + 0xA00, false)
  | .icComplete _ => some (aIC + 0xA04, true)
  | .eqPop q _ => some (aIC + (if q = 0 then 0xB10 else 0xB30), true)
  | .cpwdService _ => some (aWD + 0x44, true)
  | .uartDataWrite u _ => some (aUART u.toNat + 0x18, true)
  | .uartDataRead u => some (aUART u.toNat + 0x18, false)
  | .editOpen | .editClose | .editStage | .editCommit | .editAccept | .editUndo | .editDiscard => some (aLE + 0x40, true)
  | .freezeClr _ => some (aPROT + 0xC, true)
  | .fcuFirstTimeLo => some (aFCU + 4, false)
  | .fcuFatalTimeLo => some (aFCU + 0x1C, false)
  | .monSnap | .monWrite => some (aLE + 0x98, true)
  | .nvWrite | .nvRead => some (aNV + 0x20, true)
  | .nvTest _ => some (aNV, true)
  | .flProgram _ _ | .flErase _ _ => some (aNV + 0x84, true)
  | .handover _ | .pull _ | .resync _ => some (aPAIR + 0xC, true)
  | .pairLastTime => some (aPAIR + 0x34, false)
  | .pairEpochTick => some (aPAIR + 0x14, false)
  | .pwrOn | .pwrOff | .flush => some (aPNL, true)
  | .rectSubmit _ => some (aPNL + 0x50, true)
  | .softReset _ | .tickGo _ => some (aSYS + 0x20, true)
  | .leRun _ | .leStop _ => some (aLE, true)
  | .sleep _ => some (aSYS + 0x14, true)
  | .rfxLatch hi _ => some (aRFX + (if hi then 0x14 else 0x10), true)
  | .rfxSoft _ => some (aRFX + 0x18, true)
  | .rfxLastTime => some (aRFX + 0x24, false)
  | .slcKey _ => some (aSLC + 4, true)
  | .slcStart _ => some (aSLC + 8, true)
  | .slcRelease _ => some (aSLC + 0xC, true)
  | .scanHistClr _ => some (aLE + 0x20, true)
  | .countLo => some (aLE + 0xC, false)
  | .timeSet _ | .slew _ | .slewStop _ => some (aTIME + 0x10, true)
  | .timeLo => some (aTIME, false)
  | .updCancel _ | .updConfirm _ | .updFallback _ | .updDiscard _ => some (aSYS + 0x44, true)
  | _ => none

/-- The roles that some session must hold for the row (R278): ENGINEER for edits and for RUN and STOP. -/
def rowRoles (i : Instr) : Byte :=
  match i with
  | .editOpen | .editClose | .editStage | .editCommit | .editAccept | .editUndo | .editDiscard | .leRun _ | .leStop _ => 4
  | _ => 0

/-- Some session holds the roles that the row needs. -/
def rowHeld (s : State) (i : Instr) : Bool := decide (rowRoles i = 0) || sessionHolds s (rowRoles i)

/-- The CP makes the row's access: it runs and is not frozen, the windows permit the access, and a session holds the roles that the row
needs. -/
def rowMay (s : State) (i : Instr) : Bool :=
  rowHeld s i && (match regRow i with
    | some (a, wr) => cpReach s a wr
    | none => true)

/-! ### Twin-link frames -/

/-- A sequenced frame that the module takes: its CRC matches, its lane is up, and it is the next in order (R199). -/
def goodFrame (s : State) (h : FrameHdr) : Bool :=
  linkOpen s && h.ok && (laneOf s h.lane).up && seqNext s h

/-! ### What may store into the data memory -/

/-- The commands that may change a word of Q, M or T: the instructions of the logic engine, the writes of the CP and of the monitor,
the copy engine's work at a start, an epoch, a migration or an update, the commit's write-back, and resets. -/
def storesWords (i : Instr) : Bool :=
  match i with
  | .leNop _ | .leLd _ _ _ _ _ | .leAnd _ _ _ _ _ | .leOr _ _ _ _ _ | .leXor _ _ _ _ _ | .leSt _ _ _ _ _ | .leSet _ _ _ _
  | .leRst _ _ _ _ | .leTrgr _ _ _ _ | .leTrgf _ _ _ _ | .lePush _ | .lePop _ | .lePopand _ | .lePopor _ | .lePopxor _
  | .leNot _ | .leOne _ | .leZero _ | .leQgood _ | .leQuse _ | .leQsub _ | .leRlall _ _ _ | .leRlany _ _ _ | .leRaall _ _ _
  | .leRaany _ _ _ | .leRoall _ _ _ | .leRoany _ _ _ | .leMovLd _ _ _ _ | .leMovSt _ _ _ _ | .leClr _ _ _ _ | .leAdd _ _ _ _
  | .leSub _ _ _ _ | .leRsb _ _ _ _ | .leMul _ _ _ _ | .leDiv _ _ _ _ | .leMod _ _ _ _ | .leAdds _ _ _ _ | .leSubs _ _ _ _
  | .leMin _ _ _ _ | .leMax _ _ _ _ | .leAbs _ _ _ _ | .leNeg _ _ _ _ | .leMulh _ _ _ _ | .leDivu _ _ _ _ | .leModu _ _ _ _
  | .leFadd _ _ _ _ | .leFsub _ _ _ _ | .leFmul _ _ _ _ | .leFdiv _ _ _ _ | .leFmin _ _ _ _ | .leFmax _ _ _ _
  | .leFabs _ _ _ _ | .leFneg _ _ _ _ | .leLogAnd _ _ _ _ | .leLogOr _ _ _ _ | .leLogXor _ _ _ _ | .leLogAndn _ _ _ _
  | .leLogNot _ _ _ _ | .leShl _ _ _ _ | .leShr _ _ _ _ | .leSar _ _ _ _ | .leRol _ _ _ _ | .leRor _ _ _ _ | .leItof _ _ _ _
  | .leFtoi _ _ _ _ | .leFtoiz _ _ _ _ | .leSx8 _ _ _ _ | .leSx16 _ _ _ _ | .leZx8 _ _ _ _ | .leZx16 _ _ _ _
  | .leBcdi _ _ _ _ | .leIbcd _ _ _ _ | .leBswap _ _ _ _ | .leEq _ _ _ _ | .leNe _ _ _ _ | .leLt _ _ _ _ | .leLe _ _ _ _
  | .leGt _ _ _ _ | .leGe _ _ _ _ | .leLtu _ _ _ _ | .leGeu _ _ _ _ | .leFeq _ _ _ _ | .leFne _ _ _ _ | .leFlt _ _ _ _
  | .leFle _ _ _ _ | .leFgt _ _ _ _ | .leFge _ _ _ _ | .leFun _ _ _ _ | .leLdi _ _ _ | .leLdih _ _ _ | .leAddi _ _ _
  | .leMuli _ _ _ | .leAndi _ _ _ | .leOri _ _ _ | .leXori _ _ _ | .leShli _ _ _ | .leShri _ _ _ | .leSari _ _ _
  | .leCeqi _ _ _ | .leClti _ _ _ | .leCgti _ _ _ | .leMini _ _ _ | .leMaxi _ _ _ | .leGtag _ _ _ _ | .leStag _ _ _ _
  | .leCtag _ _ _ _ | .leIsgood _ _ _ _ | .leIsuse _ _ _ _ | .leIsbad _ _ _ _ | .leIsnp _ _ _ _ | .leSubst _ _ _ _
  | .leWorst _ _ _ _ | .leTeq _ _ _ _ | .leSysrd _ _ _ | .leSyswr _ _ _ | .leRaise _ _ _ | .leWdsrv _ _ _ | .leTon _ _ _
  | .leTof _ _ _ | .leTp _ _ _ | .leTrst _ _ _ | .leCtu _ _ _ | .leCtd _ _ _ | .leCtud _ _ _ | .leCrst _ _ _
  | .leCload _ _ _ | .leJmp _ _ _ _ _ | .leCall _ _ _ _ _ | .leRet _ _ _ | .leLoop _ _ _ _ _ | .leEnds _ _ _
  | .illegalInstruction _ => true
  | .tickBoundary | .outputCommit | .migrationApply | .evaluationPoint | .epochEnd _ _ _ | .writeList
  | .dataWindowHighWrite _ _ | .registerWrite _ _ | .powerUp _ | .moduleReset | .clockRecovery | .activation => true
  | .scanStart | .overrun | .refreshTimeout | .scanHistClr _ | .lockstepMismatch | .lockstepSelfTest _
  | .selfTestPassStart | .dbProg | .editOpen | .editClose | .editStage | .editCommit | .editAccept | .editUndo
  | .editDiscard | .editSwap | .monSnap | .monWrite | .snapshot | .dataWindowLowWrite _ _ | .dataWindowLowRead _
  | .rfxLatch _ _ | .rfxSoft _ | .rfxLastTime | .rawEdge _ _ | .debouncedEdge _ | .wettingSample _ _
  | .wettingConfirm _ _ | .wettingAdapt _ _ | .wirebreak _ _ _ | .wirebreakClear _ _ _ | .wbLearn _ _ | .short _ _
  | .overcurrent _ _ _ | .thermal _ | .groupShed _ _ _ | .chFaultRearm _ | .mismatch _ _ | .driveSense _ _
  | .settlingEnd _ | .calDue _ | .calWindow _ | .calResult _ _ _ _ | .abortEdge _ | .calOverdue _ | .calReq _
  | .fieldSupplyLost _ | .fieldSupplyReturn _ | .low _ _ | .surge _ _ | .slcKey _ | .slcStart _ | .slcRelease _
  | .setch _ | .clrch _ | .slcHold _ | .pulse _ | .pulseEnd _ | .slcWait _ | .waitEnd _ | .waitin _
  | .waitinSatisfied _ | .waitinTimeout _ | .slcEnd _ | .hardOff _ | .supplyLoss | .supplyLow _ | .heartbeatSend _
  | .heartbeat _ _ | .laneDown _ | .linkResend _ | .giveUp _ _ | .takeover | .taken _ _ | .giveupExpired | .tokenIn _
  | .epochBegin _ _ | .block _ _ _ _ | .edit _ _ | .force _ _ | .epochLost _ _ | .epochShipped | .program _ _ _
  | .rangeAck _ _ _ | .blockTable _ _ _ | .cfgReq _ | .cfgData _ _ | .cfgEnd _ | .cpMsg _ _ | .handover _
  | .handoverFail | .pull _ | .resync _ | .listenEnd | .pairLastTime | .pairEpochTick | .timeSet _ | .slew _
  | .slewStop _ | .ppsIn | .ppsHoldover | .timeOfDay _ _ _ | .ppsOut | .timeLo | .countLo | .referenceFrame _ _
  | .referenceFrameHeard _ _ _ | .freeWindow _ | .activateArm | .nodeInputFrame _ _ _ _ _ | .rxFrame _ _
  | .canRxPop _ _ | .txReq _ _ | .txAbort _ _ | .txDone _ _ _ _ | .busError _ _ _ | .errorStateChange _ _ _ _
  | .busOffRecovery _ | .icClaim | .icComplete _ | .eqPop _ _ | .cpWdg | .cpwdService _ | .cpLockstep | .dbCpSram
  | .cpResetRequest | .cpRestart | .oemViolation | .oemRestart | .uartDataWrite _ _ | .uartDataRead _ | .leadEnd _
  | .tailEnd _ | .govHold _ | .govResume _ | .uartRxByte _ _ _ _ | .idleGap _ | .uartTxComplete _
  | .modemLineChange _ _ | .ethernetFrame _ _ _ _ | .ethernetLink _ _ | .sessionOpen _ | .token _ _ | .tokenLockEnd _
  | .sessionExpiry _ | .scrub _ | .protectionViolation _ _ _ | .freezeClr _ | .twdExpired _ | .backupWdg
  | .clockFail _ | .backupClock _ | .fcuParity _ | .fcuFirstTimeLo | .fcuFatalTimeLo | .nvWrite | .nvRead | .nvDrain
  | .nvProgramDone _ | .nvEraseDone _ | .mountDone | .startupEnd | .recoveryEnd | .nvTest _ | .persistRound
  | .flProgram _ _ | .flErase _ _ | .flDone _ | .bitternRound | .persist _ | .logSample _ _ _ _ | .operatingMinute
  | .readout | .noticeRead _ | .clearRequest _ _ | .btnClear _ | .tickGo _ | .softReset _ | .leRun _ | .leStop _
  | .stopComplete | .sleep _ | .wake _ | .configSlotWrite _ | .manifest _ | .chunk _ _ _ _ _ _ | .decision | .confirm
  | .oemConfirm | .confirmTimeout | .fallback | .updCancel _ | .updConfirm _ | .updFallback _ | .updDiscard _
  | .grdEvaluation | .canaryUrgent _ _ | .monthRecord | .derate _ | .refDrift _ _ | .flashMarginRead _ | .cellTest _
  | .overtemp _ | .pwrOn | .pwrOff | .dischargeDone | .flush | .rectSubmit _ | .passStart | .passEnd | .fullRefresh
  | .rowScrub | .blinkPhase | .panelSupplyFault | .lowClear _ _ | .slewComplete | .bwdHalfTimeout | .usbVbus _
  | .usbLoader _ | .roMeasure _ | .tcxoDailyMean _ => false

end Sys2Proof.Machine
end

