-- ==== Sys2Proof/Certificates/Slice0/Obligations.lean ====
section
/-! DEFINITION. The statements for the provers. -/

open Sys2Proof Sys2Proof.Machine

/-! ### The step and its invariants -/

/-- A step runs the command at the front of the queue, on the state with the rest of the queue; on an empty queue it is one
idle step of the module's own clockwork (log 50), which without power changes nothing. -/
def Obligations.StepRunsQueue : Prop :=
  (∀ (s : State) (i : Instr) (rest : List Instr), s.pending = i :: rest → step s = exec i { s with pending := rest }) ∧
  ((∀ s : State, s.pending = [] → step s = .next (idle s)) ∧
  (∀ s : State, s.pending = [] → s.sys.powered = false → step s = .next s))

/-- Every step keeps the canonical form of the data memory. -/
def Obligations.MemoryFormKept : Prop := ∀ s t : State, memOk s = true → step s = .next t → memOk t = true

/-- Every step keeps the canonical form of the tables of units and of configuration registers. -/
def Obligations.TableFormKept : Prop := ∀ s t : State, tablesOk s = true → step s = .next t → tablesOk t = true

/-- No step lets an event queue grow beyond its 512 entries (R269). -/
def Obligations.EventQueuesBounded : Prop := ∀ s t : State, queuesOk s = true → step s = .next t → queuesOk t = true

/-- No step leaves TOKEN_OUT asserted in a module that is not ACTIVE in RUN (R202). -/
def Obligations.TokenOnlyActiveInRun : Prop := ∀ s t : State, tokenOk s = true → step s = .next t → tokenOk t = true

/-- The module before its first power-up satisfies the invariants, has no command waiting, stands in INIT with role
UNDECIDED, asserts no TOKEN_OUT, and lists no word of memory and no configuration register. -/
def Obligations.ResetState : Prop :=
  memOk State.reset = true ∧ tablesOk State.reset = true ∧ queuesOk State.reset = true ∧ tokenOk State.reset = true ∧
  State.reset.pending = [] ∧ State.reset.pair.mstate = .init ∧ State.reset.pair.role = .undecided ∧
  State.reset.pair.tokenOut = false ∧ State.reset.mem.words = [] ∧
  (∀ a : Nat, force State.reset a = regReset a ∧ written State.reset a = regReset a)

/-! ### The logic engine -/

/-- NOP and the six RLO operations of R63, each alone in its bundle, change nothing but RLO, and no other word of RLOP is an
instruction; and the rung stack (R62), within its depth of eight: PUSH, and the four pops with their combinations. -/
def Obligations.LeRloAndRungStack : Prop :=
  (∀ (s : State) (c : At), aloneIn c s = true →
    let r := (lane s c.lane.toNat).rlo
    let done := fun (i : Instr) (x : State) => exec i s = .next (advanced x (s.le.scanCyc + 1) s.le.stalls)
    done (.leNop c) s ∧
    done (.leNot c) (rloResult s c (!r.bit) r.tag) ∧
    done (.leOne c) (rloResult s c true 0) ∧
    done (.leZero c) (rloResult s c false 0) ∧
    done (.leQgood c) (rloResult s c (decide (tagClass r.tag = 0)) 0) ∧
    done (.leQuse c) (rloResult s c (decide (tagClass r.tag < 2)) 0) ∧
    done (.leQsub c) (rloResult s c r.bit (if tagClass r.tag = 0 then r.tag else 2))) ∧
  (∀ (c : At) (w : BitVec 36), w.toNat / 2 ^ 30 = 0x09 → (5 < w.toNat % 64 ∨ w.toNat / 64 % 2 ^ 24 ≠ 0) →
    leDecode c w = .illegalInstruction c) ∧
  (∀ (s : State) (c : At), aloneIn c s = true →
    let x := lane s c.lane.toNat
    let done := fun (i : Instr) (y : LaneSt) =>
      exec i s = .next (advanced (lanePut s c.lane.toNat y) (s.le.scanCyc + 1) s.le.stalls)
    (x.stack.length < 8 → done (.lePush c) { x with stack := x.rlo :: x.stack }) ∧
    (∀ top rest, x.stack = top :: rest →
      done (.lePop c) { x with rlo := top, stack := rest } ∧
      done (.lePopand c) { x with rlo := ⟨top.bit && x.rlo.bit, tag2 top.tag x.rlo.tag⟩, stack := rest } ∧
      done (.lePopor c) { x with rlo := ⟨top.bit || x.rlo.bit, tag2 top.tag x.rlo.tag⟩, stack := rest } ∧
      done (.lePopxor c) { x with rlo := ⟨top.bit != x.rlo.bit, tag2 top.tag x.rlo.tag⟩, stack := rest }))

/-- The traps that end a scan (R54, R56, R62, R66, R73, R81-R83, R86-R88): a rung stack that is full or empty with reason
RUNG_STACK, illegal instructions and forms with reason ILLEGAL, and CALL and RET beyond the 16 entries of the call stack with
reason CALL_STACK. -/
def Obligations.LeTrapsEndScan : Prop :=
  (∀ (s : State) (c : At) (i : Instr), aloneIn c s = true →
    (((lane s c.lane.toNat).stack.length = 8 ∧ i = .lePush c) ∨
     ((lane s c.lane.toNat).stack = [] ∧ i ∈ [.lePop c, .lePopand c, .lePopor c, .lePopxor c])) →
    trapsWith (exec i s) s c 5) ∧
  (∀ (s : State) (c : At) (a : BitVec 3) (w : BitVec 21) (k : BitVec 23), aloneIn c s = true →
    trapsWith (exec (.illegalInstruction c) s) s c 4 ∧
    (32 ≤ w.toNat → ∀ i ∈ [Instr.leMovLd c a 3 w, .leMovSt c a 3 w, .leAdd c a 3 w, .leEq c a 3 w, .leStag c a 3 w],
      trapsWith (exec i s) s c 4) ∧
    (∀ b : BitVec 6, 36 ≤ b.toNat → ∀ n st, trapsWith (exec (.leLd c n st w b) s) s c 4) ∧
    (∀ b : BitVec 6, 32 ≤ b.toNat → ∀ n st, trapsWith (exec (.leSt c n st w b) s) s c 4) ∧
    (512 ≤ k.toNat → trapsWith (exec (.leLdih c a k) s) s c 4) ∧
    (64 ≤ k.toNat → trapsWith (exec (.leSysrd c a k) s) s c 4 ∧ trapsWith (exec (.leSyswr c a k) s) s c 4) ∧
    (32 ≤ k.toNat → trapsWith (exec (.leRaise c a k) s) s c 4 ∧ trapsWith (exec (.leShli c a k) s) s c 4) ∧
    (∀ t slot, trapsWith (exec (.leLoop c 0 7 t slot) s) s c 4) ∧
    (s.le.callStack.length = 16 → ∀ t slot, trapsWith (exec (.leCall c 0 a t slot) s) s c 6) ∧
    (s.le.callStack = [] → trapsWith (exec (.leRet c 0 a) s) s c 6))

/-- Bit loads (R56, R57, R60) of bits 0 to 35: value bits carry the word's tag, tag bits tag GOOD. A strict load of a word whose
tag is not of class good contributes 0 with tag GOOD, and trap STRICT is captured; this part where FCU_REACT records or
notices contained LE traps. -/
def Obligations.LeBitLoads : Prop :=
  (∀ (s : State) (c : At) (n st : Bool) (w : BitVec 21) (b : BitVec 6), aloneIn c s = true →
    quietRead s w.toNat = true → b.toNat < 36 →
    let d := readWord s w.toNat
    let v := (if b.toNat < 32 then d.val.getLsbD b.toNat else d.tag.getLsbD (b.toNat - 32)) != n
    let g : Tag := if b.toNat < 32 then d.tag else 0
    let r := (lane s c.lane.toNat).rlo
    (st = true → tagClass g = 0) →
    retiresTo (exec (.leLd c n st w b) s) (rloResult s c v g) ∧
    retiresTo (exec (.leAnd c n st w b) s) (rloResult s c (r.bit && v) (tag2 r.tag g)) ∧
    retiresTo (exec (.leOr c n st w b) s) (rloResult s c (r.bit || v) (tag2 r.tag g)) ∧
    retiresTo (exec (.leXor c n st w b) s) (rloResult s c (r.bit != v) (tag2 r.tag g))) ∧
  (∀ (s : State) (c : At) (n : Bool) (w : BitVec 21) (b : BitVec 6), aloneIn c s = true →
    quietRead s w.toNat = true → b.toNat < 32 → tagClass (readWord s w.toNat).tag ≠ 0 → fcuReact s 477 ≠ 2 →
    let r := (lane s c.lane.toNat).rlo
    let done := fun (i : Instr) (x : Rlo) => ∃ t, exec i s = .next t ∧ (lane t c.lane.toNat).rlo = x ∧
      t.le.running = true ∧ t.le.pc = s.le.pc + 1 ∧ t.le.trapValid = true ∧
      (s.le.trapValid = false → t.le.trapReason = 1) ∧ t.mem = s.mem
    done (.leLd c n true w b) ⟨false, 0⟩ ∧
    done (.leAnd c n true w b) ⟨false, tag2 r.tag 0⟩ ∧
    done (.leOr c n true w b) ⟨r.bit, tag2 r.tag 0⟩ ∧
    done (.leXor c n true w b) ⟨r.bit, tag2 r.tag 0⟩)

/-- Bit stores (R57, R61): ST takes RLO or its inverse; SET and RST write only where RLO is 1; the word takes the RLO tag; a strict
store of a bad tag writes nothing and captures STRICT. The triggers (R59, R61): RLO is 1 exactly when the input has risen
(TRGR) or fallen (TRGF) against the history bit, which takes the input. A word with storage of its own (one of Q, M, T or L) takes the bit; a packed Q word
passes it to its channel word (R35); words of I and S take nothing (R26). Every other word reads as before. -/
def Obligations.LeBitStoresAndTriggers : Prop :=
  ∀ (s : State) (c : At) (w : BitVec 21) (b : BitVec 6), aloneIn c s = true → memOk s = true →
    quietWrite s w.toNat = true → b.toNat < 32 →
    let x := lane s c.lane.toNat
    let r := x.rlo
    let wrote := fun (t : State) (v : Bool) => ∀ a, plainWord t a =
      if a = w.toNat ∧ (keptWord a || inL a) = true then
        ⟨((plainWord s a).val &&& ~~~(1#32 <<< b.toNat)) ||| (if v then 1#32 <<< b.toNat else 0), r.tag⟩
      else if qPacked w.toNat = true ∧ a = packedBase w.toNat + b.toNat then
        ⟨((plainWord s a).val &&& 0xFFFFFFFE) ||| (if v then 1 else 0), r.tag⟩
      else plainWord s a
    ((∀ st, (st = true → tagClass r.tag = 0) →
      (∀ n, ∃ t, exec (.leSt c n st w b) s = .next t ∧ bundleEnds s t c x ∧ wrote t (r.bit != n)) ∧
      (∃ t, exec (.leSet c st w b) s = .next t ∧ bundleEnds s t c x ∧ (r.bit = true → wrote t true) ∧
        (r.bit = false → t.mem = s.mem)) ∧
      (∃ t, exec (.leRst c st w b) s = .next t ∧ bundleEnds s t c x ∧ (r.bit = true → wrote t false) ∧
        (r.bit = false → t.mem = s.mem)) ∧
      (quietRead s w.toNat = true →
        let d := readWord s w.toNat
        let h := d.val.getLsbD b.toNat
        (∃ t, exec (.leTrgr c st w b) s = .next t ∧ wrote t r.bit ∧
          bundleEnds s t c { x with rlo := ⟨r.bit && !h, tag2 r.tag d.tag⟩ }) ∧
        (∃ t, exec (.leTrgf c st w b) s = .next t ∧ wrote t r.bit ∧
          bundleEnds s t c { x with rlo := ⟨!r.bit && h, tag2 r.tag d.tag⟩ }))) ∧
    (tagClass r.tag ≠ 0 → fcuReact s 477 ≠ 2 →
      (∀ n, ∀ i ∈ [Instr.leSt c n true w b, .leSet c true w b, .leRst c true w b], ∃ t, exec i s = .next t ∧
        t.mem = s.mem ∧ t.le.lanes = s.le.lanes ∧ t.le.pc = s.le.pc + 1 ∧ t.le.trapValid = true ∧
        (s.le.trapValid = false → t.le.trapReason = 1)) ∧
      (quietRead s w.toNat = true → ∀ i ∈ [Instr.leTrgr c true w b, .leTrgf c true w b], ∃ t, exec i s = .next t ∧
        t.mem = s.mem ∧ lane t c.lane.toNat = { x with rlo := ⟨false, 0⟩ } ∧ t.le.pc = s.le.pc + 1 ∧
        t.le.trapValid = true ∧ (s.le.trapValid = false → t.le.trapReason = 1))))

/-- The Rake instructions (R64, R65): the reductions ALL and ANY over the masked bits of v XOR X, joined with RLO; function
codes 6 and 7 are no instructions. -/
def Obligations.LeRake : Prop :=
  (∀ (s : State) (c : At) (i : BitVec 6) (w : BitVec 21), aloneIn c s = true → quietRead s w.toNat = true →
    let d := readWord s w.toNat
    let e := poolEntry s i
    let bit := fun (k : Nat) => d.val.getLsbD k != e.2.getLsbD k
    let all := (List.range 32).all (fun k => !e.1.getLsbD k || bit k)
    let any := (List.range 32).any (fun k => e.1.getLsbD k && bit k)
    let r := (lane s c.lane.toNat).rlo
    retiresTo (exec (.leRlall c i w) s) (rloResult s c all d.tag) ∧
    retiresTo (exec (.leRlany c i w) s) (rloResult s c any d.tag) ∧
    retiresTo (exec (.leRaall c i w) s) (rloResult s c (r.bit && all) (tag2 r.tag d.tag)) ∧
    retiresTo (exec (.leRaany c i w) s) (rloResult s c (r.bit && any) (tag2 r.tag d.tag)) ∧
    retiresTo (exec (.leRoall c i w) s) (rloResult s c (r.bit || all) (tag2 r.tag d.tag)) ∧
    retiresTo (exec (.leRoany c i w) s) (rloResult s c (r.bit || any) (tag2 r.tag d.tag))) ∧
  (∀ (c : At) (w : BitVec 36), w.toNat / 2 ^ 30 = 0x20 → 6 ≤ w.toNat / 2 ^ 27 % 8 → leDecode c w = .illegalInstruction c)

/-- The four operand forms of R66 and R67 and what each reads: direct, indexed by A7, indirect through a pointer word, and
an accumulator of any lane; a pointer of class bad or not present gives value 0 with the pointer's tag and trap
BAD_POINTER. -/
def Obligations.LeOperandForms : Prop :=
  ∀ (s : State) (c : At) (w : BitVec 21),
    let x := (w.toNat + (accOf (lane s c.lane.toNat) 7).val.toNat) % 2097152
    let p := leRead s w.toNat
    opdVal s c 0 w = leRead s w.toNat ∧
    opdVal s c 1 w = leRead s x ∧
    (tagClass p.tag < 2 → opdVal s c 2 w = leRead s (p.val.toNat % 2097152)) ∧
    (2 ≤ tagClass p.tag → opdVal s c 2 w = ⟨0, p.tag⟩ ∧ (opdLoad s c 2 w).traps = [3]) ∧
    opdVal s c 3 w = accOf (lane s (w.toNat / 8 % 4)) (w.toNat % 8) ∧
    (∀ a, winAllows s 0 a false = true → leRead s a = readWord s a) ∧
    (∀ a, winAllows s 0 a false = false → leRead s a = ⟨0, 10⟩)

/-- MOV LD, GTAG, SUBST and WORST: what the accumulator takes; MOV ST, CLR, CTAG and STAG: what the operand's place takes
(R68, R74). STAG of a reserved tag code writes nothing and captures TAG_WRITE. -/
def Obligations.LeMovesAndTags : Prop :=
  (∀ (s : State) (c : At) (a : BitVec 3) (m : BitVec 2) (w : BitVec 21), aloneIn c s = true →
    quietOpd s c m w = true →
    let A := accA s c a
    let v := opdVal s c m w
    retiresTo (exec (.leMovLd c a m w) s) (accResult s c a v.val v.tag 0) ∧
    retiresTo (exec (.leGtag c a m w) s) (accResult s c a (BitVec.ofNat 32 v.tag.toNat) 0 0) ∧
    retiresTo (exec (.leSubst c a m w) s)
      (if tagClass v.tag ≤ 1 then accResult s c a v.val v.tag 0 else accResult s c a A.val 2 0) ∧
    retiresTo (exec (.leWorst c a m w) s) (accResult s c a A.val (tag2 A.tag v.tag) 0)) ∧
  (∀ (s : State) (c : At) (a : BitVec 3) (m : BitVec 2) (w : BitVec 21), aloneIn c s = true →
    quietDest s c m w = true →
    let A := accA s c a
    retiresTo (exec (.leMovSt c a m w) s) (storeResult s c m w 0xFFFFFFFF A.val A.tag) ∧
    retiresTo (exec (.leClr c a m w) s) (storeResult s c m w 0xFFFFFFFF 0 0) ∧
    retiresTo (exec (.leCtag c a m w) s) (storeResult s c m w 0 0 0) ∧
    (A.val.toNat % 16 < 14 →
      retiresTo (exec (.leStag c a m w) s) (storeResult s c m w 0 0 (BitVec.ofNat 4 A.val.toNat))) ∧
    (14 ≤ A.val.toNat % 16 → fcuReact s 477 ≠ 2 →
      ∃ t, exec (.leStag c a m w) s = .next t ∧ t.mem = s.mem ∧ t.le.lanes = s.le.lanes ∧
        t.le.pc = s.le.pc + 1 ∧ t.le.trapValid = true ∧ (s.le.trapValid = false → t.le.trapReason = 2)))

/-- What one write of the LE to the data memory changes (R26, R35): a word with storage of its own takes the masked bits and
the tag; a packed Q word passes each written bit and the tag to its channel words; I, S and reserved words take nothing;
every other word reads as before. -/
def Obligations.MemoryWrites : Prop :=
  ∀ (s : State) (a : Nat) (mask v : Word) (t : Tag), memOk s = true →
    (keptWord a = true →
      plainWord (writeBits a mask v t s) a = ⟨((plainWord s a).val &&& ~~~mask) ||| (v &&& mask), t⟩ ∧
      ∀ b, b ≠ a → plainWord (writeBits a mask v t s) b = plainWord s b) ∧
    (qPacked a = true → ∀ b,
      plainWord (writeBits a mask v t s) b =
        if packedBase a ≤ b ∧ b < packedBase a + 32 ∧ mask.getLsbD (b - packedBase a) = true then
          ⟨((plainWord s b).val &&& 0xFFFFFFFE) ||| (if v.getLsbD (b - packedBase a) then 1 else 0), t⟩
        else plainWord s b) ∧
    ((inI a || inS a) = true → writeBits a mask v t s = s)

/-- The integer operations over A and op with their flags and tags, and the divisions with their exceptional cases: flag bit 0
(value 1) is OV, bit 1 (value 2) is DZ (R68, R70). -/
def Obligations.LeInteger : Prop :=
  (∀ (s : State) (c : At) (a : BitVec 3) (m : BitVec 2) (w : BitVec 21), aloneIn c s = true →
    quietOpd s c m w = true →
    let A := accA s c a
    let v := opdVal s c m w
    let x := A.val.toInt
    let y := v.val.toInt
    let done := fun (i : At → BitVec 3 → BitVec 2 → BitVec 21 → Instr) (r : Word) (f : FlagSet) =>
      retiresTo (exec (i c a m w) s) (accResult s c a r (tag2 A.tag v.tag) f)
    let clamp := fun (i : At → BitVec 3 → BitVec 2 → BitVec 21 → Instr) (z : Int) (g : Tag) =>
      retiresTo (exec (i c a m w) s)
        (if 2147483647 < z then accResult s c a 0x7FFFFFFF g 1
         else if z < -2147483648 then accResult s c a 0x80000000 g 1
         else accResult s c a (BitVec.ofInt 32 z) g 0)
    done .leAdd (A.val + v.val) 0 ∧ done .leSub (A.val - v.val) 0 ∧ done .leRsb (v.val - A.val) 0 ∧
    done .leMul (A.val * v.val) 0 ∧ done .leMulh (BitVec.ofInt 32 (x * y / 4294967296)) 0 ∧
    done .leMin (if x ≤ y then A.val else v.val) 0 ∧ done .leMax (if y ≤ x then A.val else v.val) 0 ∧
    clamp .leAdds (x + y) (tag2 A.tag v.tag) ∧ clamp .leSubs (x - y) (tag2 A.tag v.tag) ∧
    clamp .leAbs (if y < 0 then -y else y) v.tag ∧ clamp .leNeg (-y) v.tag) ∧
  (∀ (s : State) (c : At) (a : BitVec 3) (m : BitVec 2) (w : BitVec 21), aloneIn c s = true →
    quietOpd s c m w = true →
    let A := accA s c a
    let v := opdVal s c m w
    let done := fun (i : At → BitVec 3 → BitVec 2 → BitVec 21 → Instr) (r : Word) (f : FlagSet) =>
      retiresTo (exec (i c a m w) s) (accResult s c a r (tag2 A.tag v.tag) f)
    (v.val = 0 →
      done .leDiv (if A.val.toInt < 0 then 0x80000000 else 0x7FFFFFFF) 2 ∧ done .leMod A.val 2 ∧
      done .leDivu 0xFFFFFFFF 2 ∧ done .leModu A.val 2) ∧
    (A.val = 0x80000000 → v.val = 0xFFFFFFFF → done .leDiv 0x7FFFFFFF 1 ∧ done .leMod 0 1) ∧
    (v.val ≠ 0 → ¬ (A.val = 0x80000000 ∧ v.val = 0xFFFFFFFF) →
      done .leDiv (BitVec.ofInt 32 (A.val.toInt.tdiv v.val.toInt)) 0 ∧
      done .leMod (BitVec.ofInt 32 (A.val.toInt.tmod v.val.toInt)) 0) ∧
    (v.val ≠ 0 → done .leDivu (A.val / v.val) 0 ∧ done .leModu (A.val % v.val) 0))

/-- Logic, shifts and conversions (R68, R70): the flags stay, except OV where a BCD conversion does not fit. -/
def Obligations.LeLogicAndConversions : Prop :=
  ∀ (s : State) (c : At) (a : BitVec 3) (m : BitVec 2) (w : BitVec 21), aloneIn c s = true →
    quietOpd s c m w = true →
    let A := accA s c a
    let v := opdVal s c m w
    let n := v.val.toNat % 32
    let digit := fun (k : Nat) => v.val.toNat / 16 ^ k % 16
    let two := fun (i : At → BitVec 3 → BitVec 2 → BitVec 21 → Instr) (r : Word) =>
      retiresTo (exec (i c a m w) s) (accResult s c a r (tag2 A.tag v.tag) 0)
    let one := fun (i : At → BitVec 3 → BitVec 2 → BitVec 21 → Instr) (r : Word) (f : FlagSet) =>
      retiresTo (exec (i c a m w) s) (accResult s c a r v.tag f)
    two .leLogAnd (A.val &&& v.val) ∧ two .leLogOr (A.val ||| v.val) ∧ two .leLogXor (A.val ^^^ v.val) ∧
    two .leLogAndn (A.val &&& ~~~v.val) ∧ two .leShl (A.val <<< n) ∧ two .leShr (A.val >>> n) ∧
    two .leSar (A.val.sshiftRight n) ∧ two .leRol (A.val.rotateLeft n) ∧ two .leRor (A.val.rotateRight n) ∧
    one .leLogNot (~~~v.val) 0 ∧ one .leSx8 ((v.val.truncate 8).signExtend 32) 0 ∧
    one .leSx16 ((v.val.truncate 16).signExtend 32) 0 ∧ one .leZx8 ((v.val.truncate 8).zeroExtend 32) 0 ∧
    one .leZx16 ((v.val.truncate 16).zeroExtend 32) 0 ∧
    one .leBswap (v.val.extractLsb' 0 8 ++ v.val.extractLsb' 8 8 ++ v.val.extractLsb' 16 8 ++ v.val.extractLsb' 24 8) 0 ∧
    ((∃ k < 8, 9 < digit k) → one .leBcdi 0 1) ∧
    ((∀ k < 8, digit k ≤ 9) → one .leBcdi (BitVec.ofNat 32
      (digit 0 + 10 * digit 1 + 100 * digit 2 + 1000 * digit 3 + 10000 * digit 4 + 100000 * digit 5 +
        1000000 * digit 6 + 10000000 * digit 7)) 0) ∧
    (v.val.toInt < 0 → one .leIbcd 0 1) ∧ (99999999 < v.val.toInt → one .leIbcd 0x99999999 1) ∧
    (0 ≤ v.val.toInt → v.val.toInt ≤ 99999999 →
      ∃ r : Word, one .leIbcd r 0 ∧ ∀ k < 8, r.toNat / 16 ^ k % 16 = v.val.toNat / 10 ^ k % 10)

/-- The floating operations (R68, R71): the result and the sticky flags of the binary32 operation over A and op, with the tag
of R23; FABS, FNEG and the conversions take op alone. Every NaN result is 0x7FC0_0000; FI (flag value 4) is set by a signalling
NaN, inf - inf, 0 x inf, 0 / 0, inf / inf and a conversion without a result, FZ (16) by a division of a finite nonzero value by
zero; a subnormal operand counts as zero of its sign. -/
def Obligations.LeFloating : Prop :=
  ∀ (s : State) (c : At) (a : BitVec 3) (m : BitVec 2) (w : BitVec 21), aloneIn c s = true →
    quietOpd s c m w = true →
    let A := accA s c a
    let v := opdVal s c m w
    let x := A.val
    let y := v.val
    let g := tag2 A.tag v.tag
    let done := fun (i : At → BitVec 3 → BitVec 2 → BitVec 21 → Instr) (r : Word × FlagSet) (g : Tag) =>
      ∃ cyc stalls, exec (i c a m w) s = .next (advanced (accResult s c a r.1 g r.2) cyc stalls)
    let nan := fun (z : Word) => 0x7F800000 < z.toNat % 0x80000000
    let sig := fun (z : Word) => nan z ∧ z.toNat % 0x80000000 < 0x7FC00000
    let inf := fun (z : Word) => z.toNat % 0x80000000 = 0x7F800000
    let zero := fun (z : Word) => z.toNat % 0x80000000 < 0x00800000
    let neg := fun (z : Word) => z.getLsbD 31
    let fin := fun (z : Word) => ¬ nan z ∧ ¬ inf z ∧ ¬ zero z
    let sgn := neg x != neg y
    let infOf := fun (b : Bool) => if b then (0xFF800000 : Word) else 0x7F800000
    let zeroOf := fun (b : Bool) => if b then (0x80000000 : Word) else 0
    (done .leFadd (fAdd x y) g ∧ done .leFsub (fSub x y) g ∧ done .leFmul (fMul x y) g ∧
      done .leFdiv (fDiv x y) g ∧ done .leFmin (fMin x y) g ∧ done .leFmax (fMax x y) g ∧
      done .leFabs (fAbs y) v.tag ∧ done .leFneg (fNeg y) v.tag ∧ done .leItof (iToF y) v.tag ∧
      done .leFtoi (fToI true y) v.tag ∧ done .leFtoiz (fToI false y) v.tag) ∧
    ((nan x ∨ nan y) → ∀ i ∈ [Instr.leFadd, .leFsub, .leFmul, .leFdiv],
      (sig x ∨ sig y → done i (0x7FC00000, 4) g) ∧ (¬ sig x → ¬ sig y → done i (0x7FC00000, 0) g)) ∧
    (inf x → inf y → done .leFdiv (0x7FC00000, 4) g ∧
      (neg x ≠ neg y → done .leFadd (0x7FC00000, 4) g ∧ done .leFsub (infOf (neg x), 0) g) ∧
      (neg x = neg y → done .leFsub (0x7FC00000, 4) g ∧ done .leFadd (infOf (neg x), 0) g)) ∧
    ((inf x ∧ zero y ∨ zero x ∧ inf y) → done .leFmul (0x7FC00000, 4) g) ∧
    (zero x → zero y → done .leFdiv (0x7FC00000, 4) g ∧ done .leFmul (zeroOf sgn, 0) g ∧
      done .leFadd (zeroOf (neg x && neg y), 0) g) ∧
    (fin x → zero y → done .leFdiv (infOf sgn, 16) g ∧ done .leFadd (x, 0) g ∧ done .leFsub (x, 0) g) ∧
    (inf x → fin y → done .leFadd (infOf (neg x), 0) g ∧ done .leFmul (infOf sgn, 0) g ∧ done .leFdiv (infOf sgn, 0) g) ∧
    (fin x → inf y → done .leFdiv (zeroOf sgn, 0) g) ∧
    (∀ i ∈ [Instr.leFmin, .leFmax],
      (nan x → nan y → ∃ f, done i (0x7FC00000, f) g ∧ (f = 4 ∨ f = 0) ∧ (f = 4 ↔ sig x ∨ sig y)) ∧
      (nan x → fin y → (sig x → done i (y, 4) g) ∧ (¬ sig x → done i (y, 0) g)) ∧
      (fin x → nan y → (sig y → done i (x, 4) g) ∧ (¬ sig y → done i (x, 0) g))) ∧
    (zero x → zero y → neg x ≠ neg y → done .leFmin (0x80000000, 0) g ∧ done .leFmax (0, 0) g) ∧
    (nan y → done .leFabs (0x7FC00000, 0) v.tag ∧ done .leFneg (0x7FC00000, 0) v.tag ∧ done .leFtoi (0, 4) v.tag ∧
      done .leFtoiz (0, 4) v.tag) ∧
    ((fin y ∨ inf y) → done .leFabs (y &&& 0x7FFFFFFF, 0) v.tag ∧ done .leFneg (y ^^^ 0x80000000, 0) v.tag) ∧
    (zero y → done .leFabs (0, 0) v.tag ∧ done .leFneg (zeroOf (!neg y), 0) v.tag ∧ done .leFtoi (0, 0) v.tag) ∧
    (y.toNat % 0x80000000 < 0x3F000000 → done .leFtoi (0, 0) v.tag ∧ done .leFtoiz (0, 0) v.tag) ∧
    (¬ nan y → 0x4F000000 < y.toNat % 0x80000000 →
      ∀ i ∈ [Instr.leFtoi, .leFtoiz], done i (if neg y then 0x80000000 else 0x7FFFFFFF, 4) v.tag)

/-- The compares (R69): RLO takes the relation of A and op with tag comb(A, op), and A keeps its value. The quality tests (R74): RLO
with tag GOOD says whether op's tag is of the class, or equals A[3:0]. -/
def Obligations.LeComparesAndTests : Prop :=
  (∀ (s : State) (c : At) (a : BitVec 3) (m : BitVec 2) (w : BitVec 21), aloneIn c s = true →
    quietOpd s c m w = true →
    let A := accA s c a
    let v := opdVal s c m w
    let x := A.val.toInt
    let y := v.val.toInt
    let done := fun (i : At → BitVec 3 → BitVec 2 → BitVec 21 → Instr) (r : Bool × FlagSet) =>
      retiresTo (exec (i c a m w) s) (lanePut s c.lane.toNat
        { lane s c.lane.toNat with
          rlo := ⟨r.1, tag2 A.tag v.tag⟩, flags := (lane s c.lane.toNat).flags ||| r.2 })
    done .leEq (decide (x = y), 0) ∧ done .leNe (decide (x ≠ y), 0) ∧ done .leLt (decide (x < y), 0) ∧
    done .leLe (decide (x ≤ y), 0) ∧ done .leGt (decide (x > y), 0) ∧ done .leGe (decide (x ≥ y), 0) ∧
    done .leLtu (decide (A.val.toNat < v.val.toNat), 0) ∧ done .leGeu (decide (A.val.toNat ≥ v.val.toNat), 0) ∧
    done .leFeq (fEq A.val v.val) ∧ done .leFne (fNe A.val v.val) ∧ done .leFlt (fLt A.val v.val) ∧
    done .leFle (fLe A.val v.val) ∧ done .leFgt (fGt A.val v.val) ∧ done .leFge (fGe A.val v.val) ∧
    done .leFun (fUn A.val v.val)) ∧
  (∀ (s : State) (c : At) (a : BitVec 3) (m : BitVec 2) (w : BitVec 21), aloneIn c s = true →
    quietOpd s c m w = true →
    let g := (opdVal s c m w).tag
    let done := fun (i : At → BitVec 3 → BitVec 2 → BitVec 21 → Instr) (r : Bool) =>
      retiresTo (exec (i c a m w) s) (rloResult s c r 0)
    done .leIsgood (decide (g.toNat < 4)) ∧ done .leIsuse (decide (g.toNat < 8)) ∧
    done .leIsbad (decide (8 ≤ g.toNat ∧ g.toNat < 12)) ∧ done .leIsnp (decide (12 ≤ g.toNat)) ∧
    done .leTeq (decide (g.toNat = (accA s c a).val.toNat % 16)))

/-- The immediate instructions (R73): A keeps its tag, except LDI, and no flag is set; bits of k that must be zero, where one is
not, make the instruction illegal, and function code 15 is none. -/
def Obligations.LeImmediates : Prop :=
  (∀ (s : State) (c : At) (a : BitVec 3) (k : BitVec 23), aloneIn c s = true →
    let A := accA s c a
    let sx : Word := k.signExtend 32
    let zx : Word := k.zeroExtend 32
    let done := fun (i : At → BitVec 3 → BitVec 23 → Instr) (r : Word) (g : Tag) =>
      retiresTo (exec (i c a k) s) (accResult s c a r g 0)
    let cmp := fun (i : At → BitVec 3 → BitVec 23 → Instr) (r : Bool) =>
      retiresTo (exec (i c a k) s) (rloResult s c r A.tag)
    done .leLdi sx 0 ∧ done .leAddi (A.val + sx) A.tag ∧ done .leMuli (A.val * sx) A.tag ∧
    done .leAndi (A.val &&& sx) A.tag ∧ done .leOri (A.val ||| zx) A.tag ∧ done .leXori (A.val ^^^ zx) A.tag ∧
    done .leMini (if A.val.toInt ≤ sx.toInt then A.val else sx) A.tag ∧
    done .leMaxi (if sx.toInt ≤ A.val.toInt then A.val else sx) A.tag ∧
    cmp .leCeqi (decide (A.val = sx)) ∧ cmp .leClti (decide (A.val.toInt < sx.toInt)) ∧
    cmp .leCgti (decide (A.val.toInt > sx.toInt)) ∧
    (k.toNat < 512 → done .leLdih ((A.val &&& 0x007FFFFF) ||| (zx <<< 23)) A.tag) ∧
    (k.toNat < 32 → done .leShli (A.val <<< k.toNat) A.tag ∧ done .leShri (A.val >>> k.toNat) A.tag ∧
      done .leSari (A.val.sshiftRight k.toNat) A.tag) ∧
    (512 ≤ k.toNat → trapsWith (exec (.leLdih c a k) s) s c 4) ∧
    (32 ≤ k.toNat → ∀ i ∈ [Instr.leShli c a k, .leShri c a k, .leSari c a k], trapsWith (exec i s) s c 4)) ∧
  (∀ (c : At) (w : BitVec 36), w.toNat / 2 ^ 30 = 0x18 → w.toNat / 2 ^ 26 % 16 = 15 →
    leDecode c w = .illegalInstruction c)

/-- The system instructions (R83-R85): what each system register delivers and takes; an index not listed reads 0 and takes
nothing. SLUICE_GO counts only if a bundle before armed it. -/
def Obligations.LeSystemRegisters : Prop :=
  ∀ (s : State) (c : At) (a : BitVec 3) (k : BitVec 23), aloneIn c s = true → k.toNat < 64 →
    let A := accA s c a
    let rd := fun (v : Word) => retiresTo (exec (.leSysrd c a k) s) (accResult s c a v 0 0)
    let wr := fun (r : State) => tagClass A.tag = 0 → retiresTo (exec (.leSyswr c a k) s) r
    let classes : Word := bits32 (fun j => decide (j < 8) && decide (s.le.scanTick % 2 ^ j = 0))
    rd (match k.toNat with
      | 0 => BitVec.ofNat 32 s.le.scanCyc | 1 => BitVec.ofNat 32 c.lane.toNat
      | 2 => BitVec.ofNat 32 (lane s c.lane.toNat).flags.toNat | 3 => classes | 4 => s.tick.tbase
      | 5 => BitVec.ofNat 32 s.tick.runid.toNat | 6 => BitVec.ofNat 32 s.le.poolbase.toNat | _ => 0) ∧
    wr (match k.toNat with
      | 2 => lanePut s c.lane.toNat { lane s c.lane.toNat with
          flags := (lane s c.lane.toNat).flags &&& ~~~(A.val.truncate 5) }
      | 6 => { s with le := { s.le with poolbase := A.val.truncate 6 } }
      | 8 => { s with le := { s.le with rfxRst := s.le.rfxRst ||| (0#32 ++ A.val) } }
      | 9 => { s with le := { s.le with rfxRst := s.le.rfxRst ||| (A.val ++ 0#32) } }
      | 16 => { s with le := { s.le with sluiceArmed := s.le.sluiceArmed || decide (A.val = 0xC35A) } }
      | 17 => { s with le := { s.le with goMask := if s.le.sluiceArmed then s.le.goMask ||| A.val else s.le.goMask } }
      | _ => s) ∧
    (tagClass A.tag ≠ 0 → fcuReact s 477 ≠ 2 →
      ∃ t, exec (.leSyswr c a k) s = .next t ∧ t.mem = s.mem ∧ t.le.lanes = s.le.lanes ∧
        t.le.poolbase = s.le.poolbase ∧ t.le.goMask = s.le.goMask ∧ t.le.rfxRst = s.le.rfxRst ∧
        t.le.trapValid = true ∧ (s.le.trapValid = false → t.le.trapReason = 2))

/-- RAISE fires the user event once per scan; WDSRV serves the enabled class with its key, does nothing for a class that is
not enabled, and expires the class on a wrong key (R84, R301). -/
def Obligations.LeRaiseAndServe : Prop :=
  (∀ (s : State) (c : At) (k : BitVec 23), aloneIn c s = true → k.toNat < 32 →
    retiresTo (exec (.leRaise c 0 k) s)
      (if s.le.raised.getLsbD k.toNat then s
       else fire (504 + k.toNat) s.time.ns
        { s with le := { s.le with raised := s.le.raised ||| (1#32 <<< k.toNat) } })) ∧
  (∀ (s : State) (c : At) (cls : BitVec 3) (key : BitVec 16), aloneIn c s = true →
    let i := Instr.leWdsrv c 0 (BitVec.ofNat 23 (65536 * cls.toNat + key.toNat))
    (twdEn s cls.toNat = false → retiresTo (exec i s) s) ∧
    (twdEn s cls.toNat = true → key = 0xC35A →
      retiresTo (exec i s) { s with wd := { s.wd with
        twd := mput (fun _ => {}) s.wd.twd cls.toNat { twd s cls.toNat with count := 0, served := true }
        expired := s.wd.expired &&& ~~~(1#8 <<< cls.toNat) } }) ∧
    (twdEn s cls.toNat = true → key ≠ 0xC35A → ∃ t, exec i s = .next t ∧
      t.wd.expired.getLsbD cls.toNat = true ∧ t.wd.keyErr.getLsbD cls.toNat = true ∧ t.mem = s.mem))

/-- The timers (R75-R77), on a block that the LE may access: the words of the block after one execution, each with the result tag, RLO,
and every other word as before. TON, TOF and TP leave Q in RLO; TRST leaves RLO and the preset. What Q, ET and RUN are in each
case is `TimerRules`. -/
def Obligations.LeTimers : Prop :=
  ∀ (s : State) (c : At) (a : BitVec 3) (j : BitVec 13), aloneIn c s = true → memOk s = true →
    quietBlock s (0x1E0000 + 8 * j.toNat) = true →
    let base := 0x1E0000 + 8 * j.toNat
    let x := lane s c.lane.toNat
    let r := x.rlo
    let A := accA s c a
    let old := timerOf (fun i => (readWord s (base + i)).val)
    let after := fun (f : TmrFn) (p : Nat) => tmrEval f old r.bit p s.tick.tbase.toNat s.tick.runid.toNat
    let wrote := fun (t : State) (n : TimerBlk) (g : Tag) => ∀ k, plainWord t (base + k) =
      (match k with
        | 0 => ⟨BitVec.ofNat 32 n.pt, g⟩ | 1 => ⟨BitVec.ofNat 32 n.et, g⟩ | 2 => ⟨BitVec.ofNat 32 n.rem, g⟩
        | 3 => ⟨BitVec.ofNat 32 n.last, g⟩ | 4 => ⟨timerState n, g⟩ | _ => plainWord s (base + k))
    let done := fun (i : At → BitVec 3 → BitVec 13 → Instr) (f : TmrFn) =>
      let n := after f A.val.toNat
      let g := tag2 r.tag A.tag
      ∃ t, exec (i c a j) s = .next t ∧ wrote t n g ∧ (∀ k < base, plainWord t k = plainWord s k) ∧
        bundleEnds s t c { x with rlo := ⟨n.q, g⟩ }
    done .leTon .ton ∧ done .leTof .tof ∧ done .leTp .tp ∧
    (let n := after .trst 0
     ∃ t, exec (.leTrst c 0 j) s = .next t ∧ bundleEnds s t c x ∧ (∀ k < base, plainWord t k = plainWord s k) ∧
       ∀ k, plainWord t (base + k) =
         (match k with
           | 1 => ⟨BitVec.ofNat 32 n.et, r.tag⟩ | 2 => ⟨BitVec.ofNat 32 n.rem, r.tag⟩ | 3 => ⟨BitVec.ofNat 32 n.last, r.tag⟩
           | 4 => ⟨timerState n, r.tag⟩ | _ => plainWord s (base + k)))

/-- One execution of a timer block (R77): the elapsed time d, and Q, ET and RUN after TON, TOF, TP and TRST in each case. -/
def Obligations.TimerRules : Prop :=
  ∀ (b : TimerBlk) (inp : Bool) (pt tbase runid : Nat), b.last < 4294967296 → tbase < 4294967296 →
    let d := if b.runid = runid then (if b.last ≤ tbase then tbase - b.last else tbase + 4294967296 - b.last) else 0
    let u := match b.unit with | 0 => 1 | 1 => 1000 | 2 => 100000 | _ => 1000000
    let e := min pt (b.et + (b.rem + d) / u)
    let n := fun f => tmrEval f b inp pt tbase runid
    (∀ f, (n f).last = tbase ∧ (n f).runid = runid ∧ (n f).inp = inp) ∧
    (inp = false → (n .ton).q = false ∧ (n .ton).et = 0 ∧ (n .ton).run = false) ∧
    (inp = true → b.inp = false → (n .ton).et = 0 ∧ (n .ton).q = decide (pt = 0)) ∧
    (inp = true → b.inp = true → b.run = true → (n .ton).et = e ∧ (n .ton).q = decide (pt = e) ∧
      (n .ton).run = decide (pt ≠ e) ∧ (pt ≠ e → (n .ton).rem = (b.rem + d) % u)) ∧
    (inp = true → (n .tof).q = true ∧ (n .tof).et = 0 ∧ (n .tof).run = false) ∧
    (inp = false → b.inp = true → (n .tof).et = 0 ∧ (n .tof).q = decide (0 < pt)) ∧
    (inp = false → b.inp = false → b.run = true → (n .tof).et = e ∧ (n .tof).q = decide (e < pt)) ∧
    (inp = true → b.inp = false → b.run = false → (n .tp).et = 0 ∧ (n .tp).q = decide (0 < pt)) ∧
    (b.run = true → (n .tp).q = decide (e < pt) ∧ (inp = true → (n .tp).et = e) ∧
      (inp = false → (n .tp).et = if e < pt then e else 0)) ∧
    (inp = true → (n .trst).q = false ∧ (n .trst).et = 0 ∧ (n .trst).run = false ∧ (n .trst).pt = b.pt) ∧
    (inp = false → (n .trst).q = b.q ∧ (n .trst).et = b.et ∧ (n .trst).run = b.run ∧ (n .trst).pt = b.pt)

/-- The counters (R78), on a block that the LE may access: rising inputs count by one with saturation, CRST and CLOAD act on
RLO, QU and QD compare the new count, and CTUD takes its second input from the rung stack. The preset, the count and the state
take their words with the result tag, and every other word reads as before. -/
def Obligations.LeCounters : Prop :=
  ∀ (s : State) (c : At) (a : BitVec 3) (j : BitVec 13), aloneIn c s = true → memOk s = true →
    quietBlock s (0x1F0000 + 8 * j.toNat) = true →
    let base := 0x1F0000 + 8 * j.toNat
    let x := lane s c.lane.toNat
    let r := x.rlo
    let A := accA s c a
    let cv := (readWord s (base + 1)).val
    let cu := (readWord s (base + 2)).val.getLsbD 2
    let cd := (readWord s (base + 2)).val.getLsbD 3
    let up := if cv = 0x7FFFFFFF then cv else cv + 1
    let dn := if cv = 0x80000000 then cv else cv - 1
    let done := fun (i : Instr) (n : Word) (cu' cd' : Bool) (g : Tag) (y : LaneSt) =>
      ∃ t, exec i s = .next t ∧ bundleEnds s t c y ∧ ∀ k, plainWord t k =
        if k = base then ⟨A.val, g⟩
        else if k = base + 1 then ⟨n, g⟩
        else if k = base + 2 then ⟨BitVec.ofNat 32 ((if A.val.toInt ≤ n.toInt then 1 else 0) +
          (if n.toInt ≤ 0 then 2 else 0) + (if cu' then 4 else 0) + (if cd' then 8 else 0)), g⟩
        else plainWord s k
    let g := tag2 r.tag A.tag
    (let n := if r.bit && !cu then up else cv
     done (.leCtu c a j) n r.bit cd g { x with rlo := ⟨decide (A.val.toInt ≤ n.toInt), g⟩ }) ∧
    (let n := if r.bit && !cd then dn else cv
     done (.leCtd c a j) n cu r.bit g { x with rlo := ⟨decide (n.toInt ≤ 0), g⟩ }) ∧
    done (.leCrst c a j) (if r.bit then 0 else cv) cu cd g x ∧
    done (.leCload c a j) (if r.bit then A.val else cv) cu cd g x ∧
    (∀ top rest, x.stack = top :: rest →
      let n := if r.bit && !cu && !(top.bit && !cd) then up
        else if top.bit && !cd && !(r.bit && !cu) then dn else cv
      let g3 := tag2 (tag2 r.tag top.tag) A.tag
      done (.leCtud c a j) n r.bit top.bit g3
        { x with stack := rest, rlo := ⟨decide (A.val.toInt ≤ n.toInt), g3⟩ }) ∧
    (x.stack = [] → trapsWith (exec (.leCtud c a j) s) s c 5)

/-- The control instructions where their condition holds (R80-R82): JMP, CALL with its return entry, RET, LOOP and ENDS, which seals
the Q image with the scan's requests and fires source 472 (R19). The conditions of R80: where one does not hold the next bundle
follows and nothing else changes, and codes 9 to 15 are illegal. -/
def Obligations.LeControl : Prop :=
  (∀ (s : State) (c : At) (cond : BitVec 4) (a : BitVec 3) (t : BitVec 18) (slot : BitVec 2), aloneIn c s = true →
    condHolds s c cond a = some true →
    jumpsTo (exec (.leJmp c cond a t slot) s) s t slot ∧
    (s.le.callStack.length < 16 → jumpsTo (exec (.leCall c cond a t slot) s)
      { s with le := { s.le with callStack := ⟨s.le.pc + 1, s.le.poolbase⟩ :: s.le.callStack } } t slot) ∧
    (∀ x rest, s.le.callStack = x :: rest → jumpsTo (exec (.leRet c cond a) s)
      { s with le := { s.le with callStack := rest, poolbase := x.poolbase } } x.ret 0) ∧
    (a ≠ 7 →
      let v := (accA s c 7).val + 1
      let r := accResult s c 7 v (accA s c 7).tag 0
      if v.toInt < (accA s c a).val.toInt then jumpsTo (exec (.leLoop c cond a t slot) s) r t slot
      else retiresTo (exec (.leLoop c cond a t slot) s) r) ∧
    (∃ u, exec (.leEnds c cond a) s = .next u ∧ u.le.running = false ∧ u.le.sealedReady = true ∧
      u.le.sealedQ = s.mem.words.filter (fun p => inQ p.1) ∧ u.le.sealedGo = s.le.goMask ∧
      u.le.sealedRst = s.le.rfxRst ∧ u.le.sealedTick = s.tick.num ∧ u.tick.scanDone = true ∧ u.mem = s.mem ∧
      (472 : BitVec 10) ∈ u.ev.pend)) ∧
  (∀ (s : State) (c : At) (cond : BitVec 4) (a : BitVec 3) (t : BitVec 18) (slot : BitVec 2), aloneIn c s = true →
    let r := (lane s c.lane.toNat).rlo
    let v := (accA s c a).val.toInt
    let good := decide (tagClass r.tag = 0)
    condHolds s c 0 a = some true ∧ condHolds s c 1 a = some r.bit ∧ condHolds s c 2 a = some (!r.bit) ∧
    condHolds s c 3 a = some (r.bit && good) ∧ condHolds s c 4 a = some (!good) ∧
    condHolds s c 5 a = some (decide (v = 0)) ∧ condHolds s c 6 a = some (decide (v ≠ 0)) ∧
    condHolds s c 7 a = some (decide (v < 0)) ∧ condHolds s c 8 a = some (decide (v > 0)) ∧
    (8 < cond.toNat → ∀ i ∈ [Instr.leJmp c cond a t slot, .leCall c cond a t slot, .leRet c cond a,
      .leLoop c cond a t slot, .leEnds c cond a], trapsWith (exec i s) s c 4) ∧
    (condHolds s c cond a = some false →
      (∀ i ∈ [Instr.leJmp c cond a t slot, .leCall c cond a t slot, .leRet c cond a, .leEnds c cond a],
        retiresTo (exec i s) s) ∧
      (a ≠ 7 → retiresTo (exec (.leLoop c cond a t slot) s) s)))

/-! ### The tick, the scan and the lockstep check -/

/-- TICK_BOUNDARY in a module whose ticks run, or that TICK_GO has set going, once its time has come (R5, R9, R16, R17, R37): the tick
number, T0, TBASE and the phases of the new tick, every written configuration value in force (LE_BUDGET and LE_PROG_ID apart, which
a swap may set at this boundary, and but for the boundary at which an update's settings land), and the input latch of this tick,
whose image goes to the logic engine where no scan is running and none has overrun into this tick (R41). A written PERIOD_US takes effect
at a boundary on a whole second (R15). -/
def Obligations.TickBoundary : Prop :=
  ∀ s : State, s.sys.powered = true → s.sys.inReset = false → s.pair.mstate ≠ .init → s.pair.mstate ≠ .sleep →
    (s.tick.on = true ∨ s.tick.goAt.isSome = true) → s.tick.next ≤ s.time.ns →
    ∃ t, exec .tickBoundary s = .next t ∧ t.tick.on = true ∧
    t.tick.num = (if s.tick.on then s.tick.num + 1 else 0) ∧
    t.tick.tbase = (if s.tick.on then s.tick.tbase + BitVec.ofNat 32 s.tick.period else s.tick.tbase) ∧
    (s.time.pending = none → t.tick.t0 = s.tick.next ∧ t.tick.next = s.tick.next + 1000 * t.tick.period ∧
      t.time.ns = s.time.ns ∧
      t.tick.period = (if s.tick.next % 1000000000 = 0 then (written s (aLE + 8)).toNat % 131072 else s.tick.period)) ∧
    t.tick.commitDone = false ∧ t.tick.scanDone = false ∧ t.tick.evalDone = false ∧
    (s.upd.phase ≠ .armed → ∀ a, a ≠ aLE + 0x24 → a ≠ aLE + 0x78 → force t a = written s a) ∧
    t.img.lastLatch = t.tick.num ∧
    (s.le.running = false → (∀ n, s.le.overTick = some n → n + 1 ≠ if s.tick.on then s.tick.num + 1 else 0) →
      let sys := fun (o : Nat) => mget (fun _ => unconfWord) t.img.cur.sys o
      sys 0 = ⟨BitVec.ofNat 32 t.tick.num, 0⟩ ∧ sys 2 = ⟨BitVec.ofNat 32 t.tick.t0, 0⟩ ∧
      sys 4 = ⟨BitVec.ofNat 32 t.tick.period, 0⟩ ∧
      ∀ n, nCh s ≤ n → n < 256 → mget (fun _ => unconfWord) t.img.cur.chan n = ⟨0, 12⟩)

/-- OUTPUT_COMMIT at T0 + 2 µs (R17, R19, R33, R178): a sealed image of an earlier tick is committed once, its command reaches every
output channel, and the count of missed commits ends; in RUN without an image to commit, the count rises and COMMIT_MISSED shows. -/
def Obligations.OutputCommit : Prop :=
  ∀ s : State, s.tick.on = true → s.sys.inReset = false → s.pair.mstate = .run → s.tick.commitDone = false →
    s.tick.t0 + 2000 ≤ s.time.ns →
    (s.le.sealedReady = true → s.le.running = false → heldOver s = false → s.tick.skipCommit = false →
      s.le.sealedTick ≠ s.tick.num → ∃ t, exec .outputCommit s = .next t ∧ t.tick.commitDone = true ∧
        t.tick.missed = 0 ∧ t.tick.commitMissed = false ∧ t.le.sealedReady = false ∧ t.le.sealedGo = 0 ∧
        t.le.sealedRst = 0 ∧
        (tablesOk s = true → s.mem.upset = [] → ∀ n < nCh s, isOut s n = true → forceBit s 0x2000 n = none →
          let w := mget (fun _ => goodZero) s.le.sealedQ (0x2000 + n)
          (tagClass w.tag < 2 → (ch t n).cmd = w.val.getLsbD 0) ∧
          (2 ≤ tagClass w.tag → fbit (chCfg s n 0x10) 0 = false → (ch t n).cmd = false))) ∧
    ((s.le.sealedReady = false ∨ s.le.running = true ∨ heldOver s = true ∨ s.tick.skipCommit = true ∨
        s.le.sealedTick = s.tick.num) → s.tick.entryTick = false →
      ∃ t, exec .outputCommit s = .next t ∧ t.tick.commitDone = true ∧ t.tick.missed = s.tick.missed + 1 ∧
        t.tick.commitMissed = true ∧ t.mem = s.mem)

/-- SCAN_START (R17, R43, R48, R108): an overdue swap lands first; then a fresh working state at slot 0 of bundle 0 of the scan root, and an
empty root is an ILLEGAL trap that ends the scan before it begins and skips the next commit. OVERRUN (R41, R44): the total
rises and source 473 is pending; where the contained fault is not set to ESCALATE and the limit of consecutive overruns is not reached, the scan goes on,
marked as overrun. -/
def Obligations.ScanStartAndOverrun : Prop :=
  (∀ s : State, scanDue s = true →
    let x := if swapDue s then swapNow s else s
    ((liveOf x 0).len ≠ 0 → ∃ t, exec .scanStart s = .next t ∧ t.le.running = true ∧ t.le.lanes = [] ∧ t.le.pc = 0 ∧
      t.le.slot = 0 ∧ t.le.callStack = [] ∧ t.le.poolbase = 0 ∧ t.le.goMask = 0 ∧ t.le.rfxRst = 0 ∧ t.le.raised = 0 ∧
      t.le.sluiceArmed = false ∧ t.le.scanCyc = 0 ∧ t.le.scanTick = s.tick.num ∧ t.mem = x.mem ∧ t.edit = x.edit ∧
      t.img.consumed = some x.img.lastLatch) ∧
    ((liveOf x 0).len = 0 → ∃ t, exec .scanStart s = .next t ∧ t.le.running = false ∧ t.tick.skipCommit = true ∧
      t.le.trapValid = true ∧ t.mem = x.mem) ∧
    (swapDue s = false → x = s) ∧
    (swapDue s = true → (s.edit.migDone = true ∨ s.edit.mig.entries = 0) →
      x.edit.landed = BitVec.ofNat 32 s.tick.num ∧ x.le.progId = s.edit.newId ∧ x.mem = s.mem)) ∧
  (∀ s : State, s.le.running = true → s.le.overran = false → s.le.scanTick = s.tick.num →
    s.tick.next ≤ s.time.ns + 9000 → ∃ t, exec .overrun s = .next t ∧
      t.le.overTotal = min 65535 (s.le.overTotal + 1) ∧ (473 : BitVec 10) ∈ t.ev.pend ∧ t.mem = s.mem ∧
      (fcuReact s 473 ≠ 2 → s.le.overConsec + 1 < fld (force s (aLE + 0x1C)) 24 4 →
        t.le.overran = true ∧ t.le.running = true ∧ t.le.overConsec = min 15 (s.le.overConsec + 1)))

/-- The fatal faults of the logic engine and its memories (R178, R103, R104, R284, R285): a refresh time-out, a lockstep mismatch, a
failed step of the self-test, and a double-bit error of the program store. The self-test of R104: a pass starts at the first
boundary of a whole second, takes 1,000 steps of 1 µs while the logic engine is idle, and is counted with its period. -/
def Obligations.FatalFaultsAndSelfTest : Prop :=
  (∀ s : State,
    (∃ t, exec .dbProg s = .next t ∧ fatalOutcome s t 538 0x22 2) ∧
    (inRun s = true → (force s aSLC).toNat % 256 ≤ s.tick.missed → s.tick.commitDone = true →
      ∃ t, exec .refreshTimeout s = .next t ∧ t.tick.missed = 0 ∧ fatalOutcome s t 538 0x23 1) ∧
    (s.sys.powered = true → s.sys.inReset = false → s.pair.mstate ≠ .init → s.pair.mstate ≠ .sleep →
      ∃ t, exec .lockstepMismatch s = .next t ∧ t.le.running = false ∧ t.le.sealedReady = false ∧
        fatalOutcome s t 476 0x21 2) ∧
    (lsStepRuns s = true →
      ∃ t, exec (.lockstepSelfTest false) s = .next t ∧ t.le.lsActive = false ∧ fatalOutcome s t 476 0x21 2)) ∧
  (∀ s : State, tickRuns s = true →
    (s.le.lsActive = false → s.tick.t0 % 1000000000 = 0 → s.time.ns ≤ s.tick.t0 + 5 →
      exec .selfTestPassStart s = .next { s with le := { s.le with
        lsActive := true, lsStep := 0, lsStart := s.tick.t0 / 1000000000 } }) ∧
    (s.le.lsActive = true → s.le.running = false → (s.tick.scanDone = true ∨ inRun s = false ∨ heldOver s = true) →
      s.le.lsFrom + 200 ≤ s.time.cyc → s.time.ns + 8000 ≤ s.tick.next →
      (s.le.lsStep < 999 → exec (.lockstepSelfTest true) s = .next { s with le := { s.le with
        lsStep := s.le.lsStep + 1, lsFrom := s.time.cyc } }) ∧
      (s.le.lsStep = 999 → ∃ t, exec (.lockstepSelfTest true) s = .next t ∧ t.le.lsActive = false ∧
        t.le.lsPasses = min 65535 (s.le.lsPasses + 1) ∧ t.le.lsPrevStart = some s.le.lsStart ∧
        t.le.lsPeriod = min 255 (s.le.lsStart - s.le.lsPrevStart.getD s.le.lsStart))))

/-! ### Online edits and the monitor -/

/-- The edit commands (R111-R113, R115, R116), each where a session holds ENGINEER and the CP's access is made: the state that each leaves
where it is admitted, and its refusals, which change nothing but the code, and of which event 475 tells. The checks of
range, CRC, entry and swap are those of the model's `rangeOk`, `rangeHeld`, `crc32c`, `badEntry` and `swapCheck`. That OPEN refuses a range
outside the store with BAD_ENTRY is the model's choice (log 34). -/
def Obligations.EditCommands : Prop :=
  ∀ s : State,
    let e := s.edit
    let refused := fun (i : Instr) (c : Byte) =>
      ∃ t, exec i s = .next t ∧ t.edit = { e with code := c } ∧ (475 : BitVec 10) ∈ t.ev.pend ∧ t.mem = s.mem
    (rowMay s .editOpen = true →
      (editShut s = true → ∀ i ∈ [Instr.editOpen, .editClose, .editStage, .editCommit, .editAccept, .editUndo, .editDiscard],
        refused i 0x08) ∧
      (editShut s = false →
        (e.phase ≠ .idle → e.phase ≠ .staged → refused .editOpen 0x08 ∧ refused .editStage 0x08) ∧
        ((e.phase = .idle ∨ e.phase = .staged) →
          (rangeOk (regRange s) = false → refused .editOpen 0x09) ∧
          (rangeOk (regRange s) = true → rangeHeld s (regRange s) = true → refused .editOpen 0x01) ∧
          (rangeOk (regRange s) = true → rangeHeld s (regRange s) = false →
            exec .editOpen s = .next { s with edit := { e with
              phase := .opened, openRange := some (regRange s), partnerAck := false, code := 0 } }) ∧
          (badEntry s (regEntry s).1 (regEntry s).2 = true → refused .editStage 0x09) ∧
          (badEntry s (regEntry s).1 (regEntry s).2 = false → ∃ t, exec .editStage s = .next t ∧ t.mem = s.mem ∧
            t.edit = { e with
              phase := .staged, code := 0
              stagedSet := e.stagedSet.filter (fun q => decide (q.1 ≠ (regEntry s).1)) ++ [regEntry s] })) ∧
        ((e.phase ≠ .opened ∨ e.openRange = none) → refused .editClose 0x08) ∧
        (∀ r, e.openRange = some r → e.phase = .opened →
          (crc32c (rangeWords s r) = force s (aLE + 0x50) → ∃ t, exec .editClose s = .next t ∧ t.mem = s.mem ∧
            t.edit = { e with
              phase := .staged, openRange := none, ranges := e.ranges ++ [r], partnerAck := false, code := 0 }) ∧
          (crc32c (rangeWords s r) ≠ force s (aLE + 0x50) → refused .editClose 0x0A)) ∧
        (e.phase ≠ .staged → refused .editCommit 0x08) ∧
        (e.phase = .staged →
          let c := swapCheck s e.stagedSet ((force s (aLE + 0x6C)).toNat % 67108864) (regMig s 0x5C)
          (c ≠ 0 → refused .editCommit c) ∧
          (c = 0 → ∃ t, exec .editCommit s = .next t ∧ t.mem = s.mem ∧ t.edit = { e with
            phase := .pending, code := 0, target := regTick s
            newBudget := (force s (aLE + 0x6C)).truncate 26, newId := force s (aLE + 0x70), mig := regMig s 0x5C
            migDone := false, migFwd := regMig s 0x5C, migBack := regMig s 0x60 })) ∧
        (e.phase ≠ .committed → refused .editUndo 0x08 ∧ refused .editAccept 0x08) ∧
        (e.phase = .committed →
          let c := swapCheck s (e.changed.map (fun k => (k, prevOf s k))) e.oldBudget.toNat (regMig s 0x60)
          (c ≠ 0 → refused .editUndo c) ∧
          (c = 0 → ∃ t, exec .editUndo s = .next t ∧ t.mem = s.mem ∧ t.edit = { e with
            phase := .undoPending, code := 0, target := regTick s, newBudget := e.oldBudget, newId := e.oldId
            mig := regMig s 0x60, migDone := false }) ∧
          (∃ t, exec .editAccept s = .next t ∧ t.edit.phase = .idle ∧ t.edit.prev = [] ∧
            t.edit.changed = [] ∧ t.edit.ranges = [] ∧ t.edit.code = 0 ∧ t.edit.live = e.live ∧ t.mem = s.mem)) ∧
        ((e.phase = .idle ∨ e.phase = .committed) → refused .editDiscard 0x08) ∧
        ((e.phase = .opened ∨ e.phase = .staged ∨ e.phase = .pending) →
          ∃ t, exec .editDiscard s = .next t ∧ t.edit.phase = .idle ∧ t.edit.stagedSet = [] ∧ t.edit.ranges = [] ∧
            t.edit.code = 0 ∧ t.edit.live = e.live ∧ t.mem = s.mem) ∧
        (e.phase = .undoPending → ∃ t, exec .editDiscard s = .next t ∧ t.mem = s.mem ∧
          t.edit = { e with phase := .committed, code := 0 })))

/-- The swap lands at its tick (R116), and the migration table is applied before it, in table order, word by word (R119, R120);
here for a table of one entry of one word. A word that the windows of the copy engine refuse it freezes the engine, and the table stays due
(R298, R299). -/
def Obligations.EditSwapAndMigration : Prop :=
  ∀ s : State,
    (swapDue s = true → s.edit.migDone = true → s.edit.phase = .pending → ∃ t, exec .editSwap s = .next t ∧
      t.edit.phase = .committed ∧ t.edit.live = mputs (fun _ => default) s.edit.live s.edit.stagedSet ∧
      t.edit.changed = s.edit.stagedSet.map (·.1) ∧ t.edit.oldId = s.le.progId ∧ t.le.progId = s.edit.newId ∧
      t.edit.landed = BitVec.ofNat 32 s.tick.num ∧ (474 : BitVec 10) ∈ t.ev.pend ∧ t.mem = s.mem ∧
      (tablesOk s = true → force t (aLE + 0x24) = BitVec.ofNat 32 s.edit.newBudget.toNat)) ∧
    (migDue s = true → (force s aPROT).getLsbD 2 = false →
      ∃ t, exec .migrationApply s = .next t ∧ t.edit.migDone = true) ∧
    (∀ e, migDue s = true → migTable s s.edit.mig = [some e] → e.count = 1 → e.op ≠ .fill → readFaults s e.src = [] →
      (permitted s 2 (engAddr e.src) false = false ∨ permitted s 2 (engAddr e.dst) true = false) →
      ∃ t, exec .migrationApply s = .next t ∧ t.edit.migDone = false ∧ t.prot.frozen.getLsbD 2 = true ∧ t.mem = s.mem) ∧
    (∀ e, migDue s = true → memOk s = true → migTable s s.edit.mig = [some e] → e.count = 1 →
      keptWord e.dst = true → isPacked e.dst = false → readFaults s e.src = [] →
      permitted s 2 (engAddr e.src) false = true → permitted s 2 (engAddr e.dst) true = true →
      ∃ t, exec .migrationApply s = .next t ∧ plainWord t e.dst = migConv e (readWord s e.src))

/-- The monitor (R105, R262, R264): requests, the snapshot of the watched words at a seal, the write list after it, the data
window with its held half and its latched tag, and the program store window's reads in the same way. The scrubber and the histogram command (R97, R101, R284): a single-bit error is
corrected and counted, a correct word stays, the bank's position moves on; a clear waits for the boundary. A snapshot or a list with a
word that the windows of the copy engine refuse it freezes the engine and waits (R298, R299). -/
def Obligations.MonitorAndScrubber : Prop :=
  (∀ s : State,
    (rowMay s .monSnap = true → exec .monSnap s = .next { s with mon := { s.mon with snapReq := true } } ∧
      exec .monWrite s = .next { s with mon := { s.mon with writeReq := true } }) ∧
    (s.mon.snapBusy = true → sealServes s s.mon.snapAccTick = true → ∀ i < snapLen s,
      permitted s 2 (engAddr ((force s (aLE + 0x90)).toNat % 2097152 + i)) false = false →
      ∃ t, exec .snapshot s = .next t ∧ t.mon.snapBusy = true ∧ t.prot.frozen.getLsbD 2 = true ∧ t.mem = s.mem) ∧
    (s.mon.snapBusy = true → sealServes s s.mon.snapAccTick = true → (∀ i < snapLen s,
      permitted s 2 (engAddr ((force s (aLE + 0x90)).toNat % 2097152 + i)) false = true) → ∃ t, exec .snapshot s = .next t ∧
      t.mon.snapBusy = false ∧ t.mon.snapDone = true ∧ t.mon.snapTick = BitVec.ofNat 32 s.le.scanTick ∧ t.mem = s.mem ∧
      (mwf (fun _ => goodZero) s.mon.buf = true → ∀ i, mget (fun _ => goodZero) t.mon.buf i =
        if i < snapLen s then readWord s ((force s (aLE + 0x90)).toNat % 2097152 + i)
        else mget (fun _ => goodZero) s.mon.buf i)) ∧
    (s.mon.writeBusy = true → snapServes s = false → sealServes s s.mon.writeAccTick = true →
      (force s aPROT).getLsbD 2 = false → ∃ t, exec .writeList s = .next t ∧ t.mon.writeBusy = false ∧ t.mon.writeDone = true ∧
        (memOk s = true → fbit (wlWord s 0 0) 31 = true → wlBad s 0 = false →
          keptWord ((wlWord s 0 0).toNat % 2097152) = true → qPacked ((wlWord s 0 0).toNat % 2097152) = false →
          (∀ i < 64, 0 < i → fbit (wlWord s i 0) 31 = false) → t.mon.skipped = 0 ∧
          plainWord t ((wlWord s 0 0).toNat % 2097152) = ⟨wlWord s 0 1, (wlWord s 0 2).truncate 4⟩)) ∧
    (∀ a v, cpMay s (0x31000000 + 8 * a.toNat) true = true →
      ∃ t, exec (.dataWindowLowWrite a v) s = .next t ∧ t.mon.held = some (a, v) ∧ t.mem = s.mem ∧
        t.mon.drop = (s.mon.drop || s.mon.held.isSome)) ∧
    (∀ a v w, cpMay s (0x31000004 + 8 * a.toNat) true = true → s.mon.held = some (a, v) → w.toNat % 16 < 14 →
      ∃ t, exec (.dataWindowHighWrite a w) s = .next t ∧ t.mon.held = none ∧ t.mon.drop = s.mon.drop ∧
        t.mem = (writeWord a.toNat ⟨v, w.truncate 4⟩ s).mem) ∧
    (∀ a, cpMay s (0x31000000 + 8 * a.toNat) false = true →
      ∃ t, exec (.dataWindowLowRead (.data a)) s = .next t ∧ t.cp.rdata = (readWord s a.toNat).val ∧
        t.mon.tagLatch = (readWord s a.toNat).tag ∧ t.mon.latchAddr = some a ∧ t.mem = s.mem) ∧
    (∀ i, cpMay s (0x30000000 + 8 * i.toNat) false = true →
      let w := mget (fun _ => (0 : BitVec 36)) s.mem.prog i.toNat
      exec (.dataWindowLowRead (.prog i)) s = .next { s with
        cp := { s.cp with rdata := w.extractLsb' 0 32 }
        mon := { s.mon with progLatch := w.extractLsb' 32 4, progLatchAddr := some i } })) ∧
  (∀ s : State,
    (∀ b : BitVec 4, let p := mget (fun _ => 0) s.mem.scrubPos b.toNat
      let a := bankWord b.toNat p
      mget (fun _ => 0) s.mem.upset a ≠ 1 → exec (.scrub b) s = .next { s with mem := { s.mem with
        scrubPos := mput (fun _ => 0) s.mem.scrubPos b.toNat ((p + 1) % 131072) } }) ∧
    (∀ b : BitVec 4, let p := mget (fun _ => 0) s.mem.scrubPos b.toNat
      let a := bankWord b.toNat p
      mget (fun _ => 0) s.mem.upset a = 1 → mwf (fun _ => 0) s.mem.upset = true →
      ∃ t, exec (.scrub b) s = .next t ∧ mget (fun _ => 0) t.mem.upset a = 0 ∧ t.mem.words = s.mem.words ∧
        t.fcu.corrected = min 4294967295 (s.fcu.corrected + 1)) ∧
    (∀ v, rowMay s (.scanHistClr v) = true → exec (.scanHistClr v) s = .next { s with le := { s.le with histClr := s.le.histClr || v.getLsbD 0 } }))

/-! ### Reflex unit, field channels and their groups -/

/-- The reflex commands (R129, R131, R141): a reset clears a latch whose equation's condition does not hold, and no other; the
soft signals take four bits; a read of the last time latches its high word. -/
def Obligations.ReflexCommands : Prop :=
  ∀ s : State,
    (∀ hi v, rowMay s (.rfxLatch hi v) = true → ∃ t, exec (.rfxLatch hi v) s = .next t ∧ ∀ e < 64, rfxLatched s e = true →
      let m : BitVec 64 := if hi then v ++ 0#32 else 0#32 ++ v
      let now := tickRuns s && rfxEn s e && rfxCondition s e
      (m.getLsbD e = true → now = false → s.rfx.cond.getLsbD e = false → t.rfx.latch.getLsbD e = false) ∧
      (m.getLsbD e = false → s.rfx.latch.getLsbD e = true → t.rfx.latch.getLsbD e = true) ∧
      (now = true → t.rfx.latch.getLsbD e = true)) ∧
    (∀ v, rowMay s (.rfxSoft v) = true → tablesOk s = true → ∃ t, exec (.rfxSoft v) s = .next t ∧ force t (aRFX + 0x18) = v &&& 0xF ∧ t.mem = s.mem) ∧
    (rowMay s .rfxLastTime = true → exec .rfxLastTime s = .next { s with
      rfx := { s.rfx with timeHi := BitVec.ofNat 32 (s.rfx.lastTime / 4294967296) }
      cp := { s.cp with rdata := BitVec.ofNat 32 s.rfx.lastTime } })

/-- Raw edges, their debounce and pulsed wetting (R147, R148, R150, R152): the sample of an INPUT_WB channel is a current. Without pulsed
wetting, and within 2 ms of a raw edge, a differing sample is a raw edge at once; at reduced current it waits 20 µs at full current for
the sample that confirms or drops it; after D the debounced state and its timestamp follow. That a sample between the differing
sample and its confirmation, or in a wetting window, leaves the raw state alone is the model's reading (log 90). In a calibration window a rise aborts the window
(R164). -/
def Obligations.ChannelSampling : Prop :=
  ∀ (s : State) (n : BitVec 8), hasInput s n.toNat = true → feSampled s n.toNat = true → tablesOk s = true →
    let k := n.toNat
    let c := ch s k
    let now := s.time.ns / 1000
    let taken := fun (level : Bool) (ts : Nat) => chPut s k { c with
      raw := level, rawTs := ts, edgePend := level != c.filt, confirm := none, fullUntil := ts + 2000
      quietCyc := s.time.cyc }
    (∀ x : Sample, sampleFits s k x = true →
      let l := match x with
        | .level b => b
        | .current ua => if ua ≤ 900 then false else if 1500 < ua then true else c.raw
      (c.calActive = true → exec (.rawEdge n x) s = if l then exec (.abortEdge n) s else .next s) ∧
      (c.calActive = false → (l = c.raw → exec (.rawEdge n x) s = .next s) ∧
      (l ≠ c.raw → (c.fePulsed = false ∨ c.confirm = none ∧ now < c.fullUntil) →
        exec (.rawEdge n x) s = .next (taken l now)) ∧
      (l ≠ c.raw → c.fePulsed = true → c.confirm = none → c.fullUntil ≤ now → wetWindow s k = false →
        exec (.rawEdge n x) s = .next (chPut s k { c with confirm := some (l, now), fullUntil := now + 20 })) ∧
      (l ≠ c.raw → c.fePulsed = true → (c.confirm.isSome = true ∨ c.fullUntil ≤ now ∧ wetWindow s k = true) →
        exec (.rawEdge n x) s = .next s))) ∧
    (c.edgePend = true → c.rawTs + chDeb s k ≤ now → ∃ t, exec (.debouncedEdge n) s = .next t ∧
      (ch t k).filt = c.raw ∧ (ch t k).filtTs = c.rawTs ∧ (ch t k).edgePend = false ∧
      (¬ (chMode s k = 3 ∧ c.wb = true) → (ch t k).tsUs = BitVec.ofNat 31 c.rawTs ∧ (ch t k).tsRising = c.raw)) ∧
    (∀ level, c.fePulsed = true → now % wetPeriod s k = 0 → c.confirm = none → level ≠ c.raw →
      ((c.calActive = false ∨ level = false) → exec (.wettingSample n level) s = .next (taken level now)) ∧
      (c.calActive = true → level = true → ∃ t, exec (.wettingSample n level) s = .next t ∧ (ch t k).raw = true ∧
        (ch t k).rawTs = now ∧ (ch t k).calActive = false ∧ (ch t k).calLast = 2)) ∧
    (∀ level ts, c.fePulsed = true → c.confirm = some (level, ts) → ts + 20 ≤ now →
      ((c.calActive = false ∨ level = false) → exec (.wettingConfirm n level) s = .next (taken level ts)) ∧
      (c.calActive = true → level = true → ∃ t, exec (.wettingConfirm n level) s = .next t ∧ (ch t k).raw = true ∧
        (ch t k).rawTs = ts ∧ (ch t k).calActive = false ∧ (ch t k).calLast = 2)) ∧
    (∀ level ts, c.fePulsed = true → c.confirm = some (!level, ts) → ts + 20 ≤ now →
      exec (.wettingConfirm n level) s = .next (chPut s k { c with confirm := none }))

/-- The wetting window adapts once a second (R151), and wire break is declared, cleared and learnt (R152, R153): while it
stands the reported state is 0, and a filter state of 1 then appears as a rising edge with the filter's own time. -/
def Obligations.WireBreakAndWetting : Prop :=
  ∀ (s : State) (n : BitVec 8), n.toNat < nCh s → tablesOk s = true →
    let k := n.toNat
    let c := ch s k
    (∀ ns, hasInput s k = true → chPulsed s k = true → fbit (chCfg s k 8) 8 = true → c.adaptCyc + 200000000 ≤ s.time.cyc →
      ∃ t, exec (.wettingAdapt n ns) s = .next t ∧ (ch t k).adaptCyc = s.time.cyc ∧
        (ch t k).wetLimit = (decide (c.winPct = 25) && decide (6 * (8 * c.winPct * wetPeriod s k) < 10 * ns)) ∧ (ch t k).winPct =
        (if 6 * (8 * c.winPct * wetPeriod s k) < 10 * ns then min 25 (c.winPct + 1)
         else if 10 * ns < 3 * (8 * c.winPct * wetPeriod s k) then max 5 (c.winPct - 1) else c.winPct)) ∧
    (∀ ns, hasInput s k = true → chPulsed s k = true → fbit (chCfg s k 8) 8 = false → c.adaptCyc + 200000000 ≤ s.time.cyc →
      exec (.wettingAdapt n ns) s = .next (chPut s k { c with winPct := 10, wetLimit := false })) ∧
    (∀ ua us, chMode s k = 3 → c.wb = false → (ua < 200 ∨ ua < wbThr s k) → max (chDeb s k) 1000 ≤ us →
      c.setCyc + 200 * max (chDeb s k) 1000 ≤ s.time.cyc →
      ∃ t, exec (.wirebreak n ua us) s = .next t ∧ (ch t k).wb = true ∧ chState t k = false ∧ chCondTag t k = 8 ∧
        (ch t k).filt = false ∧ (ch t k).raw = false ∧
        (fbit (chCfg s k 0x34) 2 = true → n.zeroExtend 10 ∈ t.ev.pend)) ∧
    (∀ ua us, chMode s k = 3 → c.wb = true → 300 ≤ ua → 10000 ≤ us →
      ∃ t, exec (.wirebreakClear n ua us) s = .next t ∧ (ch t k).wb = false ∧ chState t k = c.filt ∧
        (c.filt = true → (ch t k).tsUs = BitVec.ofNat 31 c.filtTs ∧ (ch t k).tsRising = true)) ∧
    (∀ ua, chMode s k = 3 → fbit (chCfg s k 0xC) 9 = true → c.wb = false → c.filt = false → c.calActive = false →
      c.openCyc + 2000000000 ≤ s.time.cyc → c.learnCyc + 200000000 ≤ s.time.cyc →
      ∃ t, exec (.wbLearn n ua) s = .next t ∧ (ch t k).learnt = true ∧
        (c.learnt = false → (ch t k).ioff = min 1023 ua) ∧ t.mem = s.mem)

/-- Overload (R156, R157, R158): each cause trips the output, whose tag is then OVERLOAD; eight trips within 60 s lock it; a
group above its limit sheds its highest-numbered channel that is on; a CP re-arm is noted for the next commit. -/
def Obligations.ChannelOverload : Prop :=
  ∀ (s : State) (n : BitVec 8), tablesOk s = true →
    let k := n.toNat
    let tripped := fun (t : State) (j : Nat) (cause : BitVec 4) => (ch t j).trip = true ∧ (ch t j).cause = cause ∧
      (ch t j).tripCyc = s.time.cyc ∧ chCondTag t j = 9 ∧
      (ch t j).lock = ((ch s j).lock ||
        decide (8 ≤ ((ch s j).trips.filter (fun x => decide (s.time.cyc < x + 12000000000))).length + 1))
    (∀ us, isOn s k = true → 20 ≤ us → ∃ t, exec (.short n us) s = .next t ∧ tripped t k 1) ∧
    (∀ ma us, isOn s k = true → 650 < ma → 100 * fld (chCfg s k 0x10) 1 8 < us →
      ∃ t, exec (.overcurrent n ma us) s = .next t ∧ tripped t k 2) ∧
    (isOn s k = true → ∃ t, exec (.thermal n) s = .next t ∧ tripped t k 3) ∧
    (∀ (g : BitVec 5) (ma us : Nat) j, g.toNat < nGroups s → grpLimit s g.toNat < ma → highestOn s g.toNat = some j →
      100000 ≤ us → ((gr s g.toNat).shedCyc = 0 ∨ (gr s g.toNat).shedCyc + 2000000 ≤ s.time.cyc) →
      ∃ t, exec (.groupShed g ma us) s = .next t ∧ tripped t j 4 ∧ (gr t g.toNat).shed = true ∧
        (gr t g.toNat).shedCyc = s.time.cyc) ∧
    (rowMay s (.chFaultRearm n) = true → k < nCh s → (ch s k).trip = true →
      exec (.chFaultRearm n) s = .next (chPut s k { ch s k with rearmReq := true }))

/-- Readback and drive-sense (R159, R160). Settling and calibration (R162-R166): the count runs out at a boundary; a window starts
on a quiet channel at a whole second; its result is applied, or discarded with its code and a retry. -/
def Obligations.ChannelUpkeep : Prop :=
  (∀ (s : State) (n : BitVec 8) (us : Nat), n.toNat < nCh s → tablesOk s = true →
    let k := n.toNat
    let c := ch s k
    (chMode s k = 5 → c.filt ≠ c.drive → c.mismatch = false → (c.drive = true ∨ s.pair.role = .solo) →
      1000 * fld (chCfg s k 0x10) 16 8 < us → ∃ t, exec (.mismatch n us) s = .next t ∧ (ch t k).mismatch = true ∧
        (fbit (chCfg s k 0x34) 4 = true → n.zeroExtend 10 ∈ t.ev.pend) ∧ t.mem = s.mem) ∧
    (isOut s k = true → c.driveSense = true → ∃ t, exec (.driveSense n false) s = .next t ∧ (ch t k).driveSense = false) ∧
    (isOut s k = true → c.driveSense = false → c.drive = false → c.driveCyc + 20000 ≤ s.time.cyc →
      ∃ t, exec (.driveSense n true) s = .next t ∧ ((ch t k).driveSense = true ∨ (ch t k).drive = true) ∧
        (fbit (chCfg s k 0x34) 6 = true → n.zeroExtend 10 ∈ t.ev.pend))) ∧
  (∀ (s : State) (n : BitVec 8), n.toNat < nCh s → tablesOk s = true →
    let k := n.toNat
    let c := ch s k
    (c.settleLeft = 1 → s.tick.next ≤ s.time.ns →
      exec (.settlingEnd n) s = .next (chPut s k { c with settleLeft := 0 })) ∧
    (hasInput s k = true → 1440 ≤ c.calAgeMin → exec (.calDue n) s = .next (chPut s k { c with calDue := true })) ∧
    (43200 < c.calAgeMin → exec (.calOverdue n) s = .next (chPut s k { c with calOverdue := true })) ∧
    (rowMay s (.calReq n) = true → exec (.calReq n) s = .next (chPut s k { c with calReq := true })) ∧
    (hasInput s k = true → calWanted s k = true → calQuiet s k = true →
      (∀ i < 8, (ch s (8 * (k / 8) + i)).calActive = false) → s.time.ns / 1000 % 1000000 = 0 →
      exec (.calWindow n) s = .next (chPut s k { c with
        calActive := true, calStart := s.time.cyc, calReq := false })) ∧
    (∀ thr ilim, c.calActive = true → c.calStart + 400000 ≤ s.time.cyc → -64 ≤ thr → thr ≤ 63 → -32 ≤ ilim → ilim ≤ 31 →
      ∃ t, exec (.calResult n thr ilim false) s = .next t ∧ (ch t k).calActive = false ∧ (ch t k).calLast = 1 ∧
        (ch t k).thrTrim = thr ∧ (ch t k).ilimTrim = ilim ∧ (ch t k).calAgeMin = 0 ∧ (ch t k).calDue = false ∧
        (ch t k).calOverdue = false ∧ (ch t k).calRetry = false) ∧
    (∀ thr ilim, c.calActive = true → c.calStart + 400000 ≤ s.time.cyc → (thr < -64 ∨ 63 < thr) →
      ∃ t, exec (.calResult n thr ilim false) s = .next t ∧ (ch t k).calActive = false ∧ (ch t k).calLast = 4 ∧
        (ch t k).calRetry = true ∧ (ch t k).thrTrim = c.thrTrim) ∧
    (c.calActive = true → ∃ t, exec (.abortEdge n) s = .next t ∧ (ch t k).calActive = false ∧ (ch t k).calLast = 2 ∧
      (ch t k).calAborts = min 255 (c.calAborts + 1) ∧
      (c.raw = false → c.fePulsed = false → (ch t k).raw = true ∧ (ch t k).rawTs = s.time.ns / 1000) ∧
      (c.raw = false → c.fePulsed = true → c.confirm = none → c.fullUntil ≤ s.time.ns / 1000 → wetWindow s k = false →
        (ch t k).confirm = some (true, s.time.ns / 1000))))

/-- The field supply of a group, its LOW bit and its surges (R145, R167, R168), and the hard-off timer (R186). -/
def Obligations.GroupSupply : Prop :=
  ∀ (s : State) (g : BitVec 5), g.toNat < nGroups s → tablesOk s = true →
    let k := g.toNat
    let q := gr s k
    (∃ t, exec (.fieldSupplyLost g) s = .next t ∧ (gr t k).lost = true ∧ (gr t k).reload = false ∧
      (gr t k).hardOff = false ∧ (gr t k).low = true ∧ (∀ i < 8, (ch t (8 * k + i)).feMode = 0 ∧ (ch t (8 * k + i)).fePulsed = false ∧
        ((ch s (8 * k + i)).feMode ≠ 0 → (ch s (8 * k + i)).feMode ≠ 4 → (ch t (8 * k + i)).raw = false)) ∧ t.mem = s.mem) ∧
    (q.lost = true → exec (.fieldSupplyReturn g) s = .next (grPut s k { q with
      lost := false, reload := s.sys.powered && !s.sys.supplyLost })) ∧
    (∀ mv : BitVec 16, q.low = false → mv.toNat < 100 * fld (force s (aGRP k)) 0 8 →
      ∃ t, exec (.low g mv) s = .next t ∧ (gr t k).low = true ∧ (gr t k).lowSeen = true ∧
        (fbit (force s (aGRP k)) 8 = true → BitVec.ofNat 10 (440 + k) ∈ t.ev.pend)) ∧
    (∀ mv : BitVec 16, q.low = true → 100 * fld (force s (aGRP k)) 0 8 + 500 ≤ mv.toNat →
      ∃ t, exec (.lowClear g mv) s = .next t ∧ (gr t k).low = false ∧ (gr t k).lowSeen = q.lowSeen) ∧
    (∀ uj, 100 < uj → ∃ t, exec (.surge g uj) s = .next t ∧ (gr t k).surge = true ∧
      (gr t k).surgeCount = min 65535 (q.surgeCount + 1) ∧ (gr t k).surgeLast = min 65535 uj) ∧
    (q.lost = false → (s.sys.powered = false ∨ ∃ c, s.wd.clkFailCyc = some c ∧ c + 7000000 ≤ s.time.cyc) →
      ∃ t, exec (.hardOff g) s = .next t ∧ (gr t k).hardOff = true ∧ t.mem = s.mem)

/-! ### The Sluice sequencer -/

/-- The keyed registers (R180, R182): one armed write starts the named groups in RUN and HOLD, or notes releases; an unarmed one is
missed. The steps of a running sequence (R171, R172, R174-R176): what SETCH, CLRCH, HOLD, PULSE, WAIT, WAITIN and END do when due,
and where the next step starts. -/
def Obligations.SluiceSequences : Prop :=
  (∀ (s : State) (v : Word),
    (rowMay s (.slcKey v) = true → exec (.slcKey v) s = .next { s with slc := { s.slc with
      armed := decide (v.toNat % 65536 = 0xC35A), miss := s.slc.miss && !v.getLsbD 31 } }) ∧
    (s.slc.armed = false → ∀ i ∈ [Instr.slcStart v, .slcRelease v], rowMay s i = true →
      exec i s = .next { s with slc := { s.slc with miss := true } }) ∧
    (rowMay s (.slcStart v) = true → s.slc.armed = true → tablesOk s = true → (s.pair.mstate = .run ∨ s.pair.mstate = .hold) →
      ∃ t, exec (.slcStart v) s = .next t ∧ t.slc.armed = false ∧ t.slc.lastCause = 4 ∧ t.slc.lastValid = true ∧
        ∀ g < nGroups s, ((v.getLsbD g = true ∧ (sg s g).phase = .idle) →
            (sg t g).phase = .running ∧ (sg t g).step = 0 ∧ (sg t g).cause = 4 ∧ (sg t g).held = 0) ∧
          (¬ (v.getLsbD g = true ∧ (sg s g).phase = .idle) → sg t g = sg s g)) ∧
    (rowMay s (.slcRelease v) = true → s.slc.armed = true → ∃ t, exec (.slcRelease v) s = .next t ∧ t.slc.armed = false ∧ t.slc.grp = s.slc.grp ∧
      ∀ g < 32, t.slc.relPending.getLsbD g = (s.slc.relPending.getLsbD g ||
        (v.getLsbD g && decide ((sg s g).phase = .rested) && decide (s.pair.mstate ≠ .safe))))) ∧
  (∀ (s : State) (g : BitVec 5), tablesOk s = true →
    let k := g.toNat
    let q := sg s k
    let m : Byte := BitVec.ofNat 8 ((stepWord q).toNat / 16)
    let p : Byte := 1#8 <<< ((stepWord q).toNat / 16 % 8)
    let width := (stepWord q).toNat / 65536
    let done := fun (i : Instr) (x : SlcGrp) => ∃ t, exec i s = .next t ∧ sg t k = x
    (stepIs s k 1 = true → done (.setch g) { q with
      cmd := q.cmd ||| m, step := q.step + 1, stepCyc := q.stepCyc + 200, began := false }) ∧
    (stepIs s k 2 = true → done (.clrch g) { q with
      cmd := q.cmd &&& ~~~m, step := q.step + 1, stepCyc := q.stepCyc + 200, began := false }) ∧
    (stepIs s k 3 = true → done (.slcHold g) { q with
      held := q.held ||| m, step := q.step + 1, stepCyc := q.stepCyc + 200, began := false }) ∧
    (stepIs s k 4 = true → done (.pulse g) { q with cmd := q.cmd ||| p, began := true }) ∧
    (stepRuns s k 4 = true → q.stepCyc + 200000 * width ≤ s.time.cyc → done (.pulseEnd g) { q with
      cmd := q.cmd &&& ~~~p, step := q.step + 1, stepCyc := q.stepCyc + 200000 * width, began := false }) ∧
    (stepIs s k 5 = true → done (.slcWait g) { q with began := true }) ∧
    (stepRuns s k 5 = true → q.stepCyc + 200000 * width ≤ s.time.cyc → done (.waitEnd g) { q with
      step := q.step + 1, stepCyc := q.stepCyc + 200000 * width, began := false }) ∧
    (stepIs s k 6 = true → done (.waitin g) { q with began := true }) ∧
    (stepRuns s k 6 = true → waitinHolds s k = true → s.time.cyc < q.stepCyc + 20000000 * (width / 16) →
      done (.waitinSatisfied g) { q with
      step := q.step + 1, began := false
      stepCyc := q.stepCyc + ((s.time.cyc - q.stepCyc) / 200 + 1) * 200 }) ∧
    (stepRuns s k 6 = true → waitinHolds s k = false →
      q.stepCyc + 20000000 * ((stepWord q).toNat / 1048576) ≤ s.time.cyc → done (.waitinTimeout g) { q with
        step := (stepWord q).toNat / 16384 % 32, began := false, timeout := true
        stepCyc := q.stepCyc + 20000000 * ((stepWord q).toNat / 1048576) }) ∧
    (stepIs s k 0 = true → done (.slcEnd g) { q with phase := .rested, cmd := q.cmd &&& q.held, badStep := false }) ∧
    (stepDue s k = true → stepBad s k = true → done (.slcEnd g) { q with
      phase := .rested, cmd := q.cmd &&& q.held, badStep := true }))

/-! ### The redundant pair -/

/-- Frames and lanes of the twin link (R198, R199, R201): a heartbeat leaves with this module's state; a good heartbeat of the partner shows on its
lane and brings the partner's state, role and check word, a frame with a bad CRC only counts; a lane without a frame for
200 µs is down, and what it carried moves to the other lane if that is up; an unacknowledged frame is resent; EPOCH_LOST starts a resync
and RANGE_ACK marks its range. -/
def Obligations.PairLink : Prop :=
  ∀ s : State, linkOpen s = true →
    (∀ lane, ∃ t f, exec (.heartbeatSend lane) s = .next t ∧ t.mem = s.mem ∧ t.pair.unacked = s.pair.unacked ∧
      (mwf (fun _ => none) s.pair.hbOut = true → mget (fun _ => none) t.pair.hbOut (b2n lane) = some f) ∧
      f.cyc = s.time.cyc ∧ f.hdr.lane = lane ∧ f.hdr.seat = s.pair.seatB ∧ f.hdr.role = s.pair.role ∧
      ∃ p, f.payload = .heartbeat p ∧ p.state = s.pair.mstate ∧ p.role = s.pair.role ∧ p.resync = s.pair.resync ∧
        p.defaulted = s.sys.cfgDefaulted ∧ p.check = s.sys.checkWord ∧ p.timeTx = BitVec.ofNat 64 s.time.ns ∧
        p.current = (decide (s.pair.role = .standby) && pairCurrent s)) ∧
    (∀ h p, h.ok = true → ∃ t, exec (.heartbeat h p) s = .next t ∧ (laneOf t h.lane).up = true ∧
      (laneOf t h.lane).lastRx = s.time.cyc ∧ t.pair.partnerState = some p.state ∧ t.pair.partnerRole = p.role ∧
      t.pair.partnerCurrent = p.current ∧ t.pair.cfgMismatch = decide (p.check ≠ s.sys.checkWord) ∧
      t.pair.seatConflict = decide (h.seat = s.pair.seatB) ∧ t.mem = s.mem) ∧
    (∀ h p, h.ok = false → ∃ t, exec (.heartbeat h p) s = .next t ∧
      (laneOf t h.lane).errors = min 65535 ((laneOf s h.lane).errors + 1) ∧ (laneOf t h.lane).lastRx = s.time.cyc ∧
      t.pair.partnerState = s.pair.partnerState ∧
      t.mem = s.mem) ∧
    (∀ lane, (laneOf s lane).up = true → (laneOf s lane).lastRx + 40000 ≤ s.time.cyc →
      ∃ t, exec (.laneDown lane) s = .next t ∧ (laneOf t lane).up = false ∧
        BitVec.ofNat 10 (432 + b2n lane) ∈ t.ev.pend ∧ t.mem = s.mem ∧
        ((laneOf s (!lane)).up = true → (∀ f ∈ t.pair.unacked, f.hdr.lane = !lane) ∧
          t.pair.unacked.map (fun f => (f.hdr.seq, f.payload)) = s.pair.unacked.map (fun f => (f.hdr.seq, f.payload))) ∧
        ((laneOf s (!lane)).up = false → t.pair.unacked = [] ∧ t.pair.staged = none)) ∧
    (∀ seq f, s.pair.unacked.find? (fun g => g.hdr.seq = seq) = some f → f.cyc + 10000 ≤ s.time.cyc →
      ∃ t, exec (.linkResend seq) s = .next t ∧ t.mem = s.mem ∧
        t.pair.unacked = s.pair.unacked.map (fun g => if g.hdr.seq = seq then { g with cyc := s.time.cyc } else g) ∧
        (laneOf t f.hdr.lane).retx = min 4095 ((laneOf s f.hdr.lane).retx + 1)) ∧
    (∀ h seq, goodFrame s h = true → s.pair.role = .active → s.pair.partnerState = some .shadow →
      ∃ t, exec (.epochLost h seq) s = .next t ∧ t.pair.resync = true ∧ t.pair.swept = 0 ∧ t.pair.rxSeq = h.seq ∧
        t.mem = s.mem) ∧
    (∀ h base pool, goodFrame s h = true → ∃ t, exec (.rangeAck h base pool) s = .next t ∧ t.mem = s.mem ∧
      t.edit.ranges = s.edit.ranges.map (fun r => if r.base = base ∧ r.pool = pool then { r with ack := true } else r) ∧
      t.edit.partnerAck = (decide (t.edit.phase ≠ .opened) && !s.edit.ranges.isEmpty && t.edit.ranges.all (·.ack)))

/-- Give-up and takeover (R211-R214): the standby fixes the first boundary at least 5 µs away and drops its partial epoch; at the
boundary it is ACTIVE in RUN, with its harvested Q image sealed and TOKEN_OUT not yet asserted; TAKEN releases the old active's
outputs; a hold window that expires starts every group with the module in SAFE; TOKEN_IN follows its line, which a module in role
SOLO ignores. -/
def Obligations.PairTakeover : Prop :=
  ∀ s : State, hasTwin s = true →
    (∀ h p, goodFrame s h = true → s.pair.role = .standby → s.pair.mstate = .shadow →
      ∃ t, exec (.giveUp h p) s = .next t ∧ t.pair.staged = none ∧ t.pair.giveKind = p.kind ∧ t.pair.giveSrc = p.src ∧
        t.pair.giveReason = p.reason ∧ (436 : BitVec 10) ∈ t.ev.pend ∧ t.mem = s.mem ∧
        (tablesOk s = true → ∀ n < nCh s, (ch t n).drive = false) ∧
        t.pair.takeoverAt = some (if s.time.ns + 5000 ≤ s.tick.next then s.tick.next
          else s.tick.next + 1000 * s.tick.period)) ∧
    (∀ b, s.pair.takeoverAt = some b → b ≤ s.time.ns → s.pair.role = .standby → s.pair.mstate = .shadow →
      ∃ t, exec .takeover s = .next t ∧ t.pair.mstate = .run ∧ t.pair.role = .active ∧ t.pair.takeoverAt = none ∧
        t.pair.tokenOut = false ∧ t.le.afterTakeover = true ∧ t.le.sealedReady = true ∧
        t.le.sealedQ = s.mem.words.filter (fun p => inQ p.1) ∧ (437 : BitVec 10) ∈ t.ev.pend ∧
        t.mem.words = s.mem.words ∧ t.tick.runid = s.tick.runid ∧ t.pair.nextSeq = s.pair.epochSeq + 1 ∧
        t.pair.lastCause = (if s.pair.giveKind = 3 then 6 else 4)) ∧
    (∀ h tick, goodFrame s h = true → s.pair.role = .active → s.pair.giveTick.isSome = true → s.pair.released = false →
      s.pair.mstate = .hold → ∃ t, exec (.taken h tick) s = .next t ∧ t.mem = s.mem ∧
        (s.pair.giveKind = 3 → t.pair.mstate = .shadow ∧ t.pair.role = .standby ∧ t.pair.resync = true) ∧
        (s.pair.giveKind ≠ 3 → t.pair.released = true ∧ t.sys.pendReset = some 4)) ∧
    (∀ g, s.pair.giveTick = some g → s.pair.mstate = .hold → s.pair.released = false →
      g + fld (force s aPAIR) 1 4 ≤ s.tick.num → s.tick.t0 + 10000 ≤ s.time.ns →
      ∃ t, exec .giveupExpired s = .next t ∧ t.pair.mstate = .safe ∧ t.slc.lastCause = 6 ∧ t.mem = s.mem ∧
        (tablesOk s = true → ∀ k < nGroups s, (sg s k).phase = .idle →
          (sg t k).phase = .running ∧ (sg t k).cause = 6)) ∧
    (∀ on, s.pair.role ≠ .solo → ∃ t, exec (.tokenIn on) s = .next t ∧ t.pair.tokenIn = on ∧ t.mem = s.mem) ∧
    (∀ on, s.pair.role = .solo → s.pair.mstate ≠ .sleep → ∃ t, exec (.tokenIn on) s = .next t ∧ tokenSeen t = false ∧ sysSignal t 1 = false ∧
      t = { s with pair := { s.pair with tokenIn := on } })

/-- Harvest on a standby in SHADOW (R122, R203, R207, R209): frames of an epoch are staged; EPOCH_END applies a whole epoch at once,
and one that fails its checks leaves the data memory and starts a resync; program words, pool entries and block tables are written
as they arrive; the active's epoch is done when its EPOCH_END has been sent. That the first epoch of a resync may have any number,
and that a PROGRAM frame marks the pool in bit 18 of its address, is the model's choice (logs 36, 86); so is that an epoch with a word
that the windows of the copy engine refuse it freezes the engine with nothing applied (log 112). -/
def Obligations.HarvestEpochs : Prop :=
  ∀ s : State,
    (∀ h, receives s = true → goodFrame s h = true →
      (∀ p, ∃ t, exec (.epochBegin h p) s = .next t ∧ t.mem = s.mem ∧
        t.pair.staged = some { hdr := p, blocks := [], edits := [], forces := [] } ∧ t.pair.cut = false) ∧
      (∀ e, s.pair.staged = some e →
        (∀ sweep a ws, ∃ t, exec (.block h sweep a ws) s = .next t ∧ t.mem = s.mem ∧
          t.pair.staged = some { e with blocks := e.blocks ++ [(a, ws)] }) ∧
        (∀ p, ∃ t, exec (.edit h p) s = .next t ∧ t.mem = s.mem ∧ t.edit = s.edit ∧
          t.pair.staged = some { e with edits := e.edits ++ [p] }) ∧
        (∀ p, ∃ t, exec (.force h p) s = .next t ∧ t.mem = s.mem ∧ t.regs = s.regs ∧
          t.pair.staged = some { e with forces := e.forces ++ [p] })) ∧
      (∀ bundle ws, bundle.toNat < 262144 → ∃ t, exec (.program h bundle ws) s = .next t ∧ t.mem = { s.mem with
        prog := mputs (fun _ => 0) s.mem.prog
          ((List.range ws.length).map (fun i => (4 * bundle.toNat + i, ws.getD i 0))) }) ∧
      (∀ bundle (m v : Word), 262144 ≤ bundle.toNat → ∃ t,
        exec (.program h bundle [m.zeroExtend 36, v.zeroExtend 36]) s = .next t ∧ t.mem = { s.mem with
          pool := mput (fun _ => (0, 0)) s.mem.pool (2 * (bundle.toNat - 262144)) (m, v) }) ∧
      (∀ live prev, ∃ t, exec (.blockTable h live prev) s = .next t ∧ t.mem = s.mem ∧ t.pair.resync = true ∧
        t.edit.live = mputs (fun _ => default) [] live ∧ t.edit.prev = mputs (fun _ => default) [] prev.entries ∧
        t.edit.changed = prev.changed ∧ t.edit.oldBudget = prev.budget ∧ t.edit.oldId = prev.id ∧
        (t.edit.phase = .committed ↔ prev.changed ≠ [])) ∧
      (∀ e seq crcOk, s.prot.frozen.getLsbD 2 = false → s.pair.staged = some e →
        let ok := crcOk = true ∧ e.hdr.seq = seq ∧ e.blocks.length = e.hdr.blocks ∧
          ((s.pair.seqAny = true ∧ e.hdr.sweep = true) ∨ seq = s.pair.epochSeq + 1)
        let open_ := ∀ b ∈ e.blocks, ∀ i < b.2.length, permitted s 2 (engAddr (b.1.toNat + i)) true = true
        (ok → ¬ open_ → ∃ t, exec (.epochEnd h seq crcOk) s = .next t ∧ t.mem = s.mem ∧ t.pair.staged = none ∧
          t.prot.frozen.getLsbD 2 = true) ∧
        (ok → open_ → ∃ t, exec (.epochEnd h seq crcOk) s = .next t ∧ t.mem.words = e.blocks.foldl applyBlock s.mem.words ∧
          t.pair.staged = none ∧ t.pair.epochSeq = e.hdr.seq ∧ t.pair.epochTick = e.hdr.tick.toNat ∧
          t.le.progId = e.hdr.progId ∧ t.tick.runid = e.hdr.runid ∧
          (tablesOk s = true → force t (aLE + 0x24) = e.hdr.budget.zeroExtend 32)) ∧
        (¬ ok → ∃ t, exec (.epochEnd h seq crcOk) s = .next t ∧ t.mem = s.mem ∧ t.pair.staged = none ∧
          t.pair.resync = true ∧ t.pair.resyncs = min 65535 (s.pair.resyncs + 1)))) ∧
    (∀ e, s.pair.ship = some e → e.ended = true → ∃ t, exec .epochShipped s = .next t ∧ t.mem = s.mem ∧
      t.pair.ship = none ∧ t.pair.epochBlocks = min 65535 e.hdr.blocks ∧
      t.pair.maxBlocks = max s.pair.maxBlocks (min 65535 e.hdr.blocks))

/-- Roles and the pair commands (R195, R196, R209, R216, R217, R220, R224): the results of HANDOVER, PULL and RESYNC, the pull of a
configuration, the end of listening with the first roles of R195, the evaluation point's count of missed reference frames, and
the registers whose low word latches the high one. -/
def Obligations.PairRolesAndCommands : Prop :=
  ∀ s : State,
    let result := fun (x : State) (cmd res : BitVec 4) =>
      { x with pair := { x.pair with cmdLast := cmd, cmdResult := res } }
    (hasTwin s = true → ∀ key : BitVec 16, rowMay s (.handover key) = true → key ≠ 0xC35A →
      exec (.handover key) s = .next (result s 1 2) ∧
      exec (.pull key) s = .next (result s 2 2) ∧ exec (.resync key) s = .next (result s 3 2)) ∧
    (hasTwin s = false → ∀ key : BitVec 16, ∀ i ∈ [Instr.handover key, .pull key, .resync key], exec i s = .next s) ∧
    (rowMay s (.handover 0xC35A) = true → hasTwin s = true → s.pair.role = .active → s.pair.mstate = .run → lanesDown s = false →
      s.pair.partnerState = some .shadow → (s.pair.handTries = none → s.pair.partnerCurrent = true →
        exec (.handover 0xC35A) s = .next (result { s with pair := { s.pair with handTries := some 0 } } 1 0)) ∧
      (s.pair.resync = false → ∃ t, exec (.resync 0xC35A) s = .next t ∧ t.pair.cmdLast = 3 ∧ t.pair.cmdResult = 0 ∧
        t.pair.resync = true ∧ t.pair.swept = 0 ∧ t.mem = s.mem)) ∧
    (∀ n, s.pair.handTries = some n → 16 ≤ n →
      exec .handoverFail s = .next (result { s with pair := { s.pair with handTries := none } } 1 4)) ∧
    (rowMay s (.pull 0xC35A) = true → hasTwin s = true → s.pair.role = .undecided → (s.pair.cfgMismatch = true ∨ s.sys.cfgDefaulted = true) →
      lanesDown s = false → updBusy s = false → exec (.pull 0xC35A) s = .next { s with pair := { s.pair with
        cmdLast := 2, cmdResult := 0, lowq := s.pair.lowq ++ [.frame .cfgReq] } }) ∧
    (∀ h, goodFrame s h = true →
      (∀ c, s.pair.role = .active → lanesDown s = false → newestSlot s = some c →
        ∃ t, exec (.cfgReq h) s = .next t ∧ t.mem = s.mem ∧
          t.pair.lowq = s.pair.lowq ++ [.frame (.cfgData c), .frame .cfgEnd]) ∧
      (∀ slot, s.pair.role = .undecided →
        ∃ t, exec (.cfgData h slot) s = .next t ∧ t.pair.cfgPull = some slot ∧ t.mem = s.mem) ∧
      (∀ c, s.pair.cfgPull = some c → slotResult s c ≠ 0 →
        ∃ t, exec (.cfgEnd h) s = .next t ∧ t.pair.cmdLast = 2 ∧ t.pair.cmdResult = 6 ∧ t.pair.cfgPull = none ∧
          t.sys.slot0 = s.sys.slot0 ∧ t.sys.slot1 = s.sys.slot1 ∧ t.sys.pendReset = s.sys.pendReset) ∧
      (∀ c, s.pair.cfgPull = some c → slotResult s c = 0 →
        let i := olderSlot s
        (s.sys.cfgDefaulted = false → i = s.sys.slotUse + 1) ∧
        ∃ t, exec (.cfgEnd h) s = .next t ∧ t.mem = s.mem ∧ t.pair.cfgPull = none ∧ slotOf t (i + 1) = slotOf s (i + 1) ∧
          t.sys.slotWr = some { slot := i, stage := 0, cfg := c, pulled := true } ∧
          (slotOf t i).bytes = c.bytes.take (slotLen c - 68) ∧ (slotOf t i).sigOk = false) ∧
      (∀ seq, s.cp.down = false → ∃ t, exec (.cpMsg h (.ready seq)) s = .next t ∧ t.mem = s.mem ∧
        t.upd.partnerReady = some (s.time.cyc, seq))) ∧
    (∀ c, s.pair.listenUntil = some c → c ≤ s.time.cyc → ∃ t, exec .listenEnd s = .next t ∧
      t.pair.listenUntil = none ∧ t.mem = s.mem ∧
      (s.pair.role = .undecided → s.pair.mstate = .ready → s.sys.cfgDefaulted = false → s.pair.cfgMismatch = false →
        s.pair.seatConflict = false → s.sys.fatalHold = false →
        (hasTwin s = true → lanesDown s = false → s.pair.partnerRole = .active → t.pair.role = .standby ∧ t.pair.mstate = .shadow) ∧
        (lanesDown s = true → s.pair.tokenIn = false → s.pair.refSeen = false → s.pair.refHeard = false → foreignDrive s = false →
          hasProg s = true → budgetOk s = true → s.le.autoRun = true → s.pair.stayReady = false → t.pair.role = .active ∧ t.pair.lastCause = 2))) ∧
    (tickRuns s = true → s.tick.evalDone = false → s.tick.t0 + 150000 ≤ s.time.ns → s.pair.role ≠ .solo →
      ∃ t, exec .evaluationPoint s = .next t ∧ t.tick.evalDone = true ∧ t.pair.refSeen = s.pair.refHeard ∧
        t.pair.refHeard = false ∧ t.pair.missed = (if s.pair.refHeard then 0 else min 15 (s.pair.missed + 1))) ∧
    (hasTwin s = false → ∀ i ∈ [Instr.pairLastTime, .pairEpochTick], rowMay s i = true →
      exec i s = .next { s with cp := { s.cp with rdata := 0 } }) ∧
    (rowMay s .pairLastTime = true → hasTwin s = true → exec .pairLastTime s = .next { s with
      pair := { s.pair with timeHi := BitVec.ofNat 32 (s.pair.lastTime / 4294967296) }
      cp := { s.cp with rdata := BitVec.ofNat 32 s.pair.lastTime } }) ∧
    (rowMay s .pairEpochTick = true → hasTwin s = true → exec .pairEpochTick s = .next { s with
      pair := { s.pair with epochTickHi := BitVec.ofNat 32 (s.pair.epochTick / 4294967296) }
      cp := { s.cp with rdata := BitVec.ofNat 32 s.pair.epochTick } })

/-! ### Station time and the station buses -/

/-- Station time (R232-R239): sets, slews, the pulse per second with its loop and its lock, holdover after 3 s, time of day, PPS_OUT
at a whole second, and the latched reads. -/
def Obligations.StationTime : Prop :=
  ∀ s : State,
    let val := (force s (aTIME + 8)).toNat + 4294967296 * (force s (aTIME + 12)).toNat
    let ofs := (force s (aTIME + 0x20)).toInt
    (∀ key : BitVec 16, key ≠ 0xC35A → ∀ i ∈ [Instr.timeSet key, .slew key, .slewStop key], rowMay s i = true →
      exec i s = .next { s with time := { s.time with result := 2 } }) ∧
    (rowMay s (.timeSet 0xC35A) = true → s.pair.mstate ≠ .shadow → s.time.valid = false → s.time.sets = 0 → s.time.pending = none →
      (s.tick.on = false → s.tick.goAt = none → ∃ t, exec (.timeSet 0xC35A) s = .next t ∧ t.time.ns = val ∧
        t.time.valid = true ∧ t.time.setSrc = 1 ∧ t.time.result = 0 ∧ (489 : BitVec 10) ∈ t.ev.pend ∧ t.mem = s.mem) ∧
      (s.tick.on = true → ∃ t, exec (.timeSet 0xC35A) s = .next t ∧
        t.time.pending = some ((val : Int) - s.time.ns, 1) ∧ t.time.ns = s.time.ns ∧ t.time.result = 0)) ∧
    (rowMay s (.slew 0xC35A) = true → -2000000000 ≤ ofs → ofs ≤ 2000000000 → exec (.slew 0xC35A) s = .next { s with
      time := { s.time with result := 0, slewing := true, slewLeft := ofs, slewAcc := 0 } }) ∧
    (rowMay s (.slew 0xC35A) = true → (2000000000 < ofs ∨ ofs < -2000000000) → exec (.slew 0xC35A) s = .next { s with time := { s.time with result := 4 } }) ∧
    (rowMay s (.slewStop 0xC35A) = true →
      exec (.slewStop 0xC35A) s = .next { s with time := { s.time with result := 0, slewing := false } }) ∧
    (s.time.slewing = true → s.time.slewLeft = 0 →
      exec .slewComplete s = .next { s with time := { s.time with slewing := false } }) ∧
    (s.sys.powered = true → s.sys.inReset = false → s.pair.mstate ≠ .sleep →
      ∃ t, exec .ppsIn s = .next t ∧ t.time.ppsErr = phaseErr s.time.ns ∧ t.time.ppsCyc = some s.time.cyc ∧
        t.time.holdover = false ∧ t.mem = s.mem ∧
        t.time.locked = decide (s.time.disc = 1 ∧ (phaseErr s.time.ns).natAbs < 1000 ∧ 9 ≤ s.time.ppsGood) ∧
        (s.time.disc ≠ 1 → t.time.rate = s.time.rate)) ∧
    (∀ c, s.time.disc = 1 → s.time.holdover = false → s.sys.inReset = false → s.time.ppsCyc = some c →
      c + 600000000 ≤ s.time.cyc → ∃ t, exec .ppsHoldover s = .next t ∧ t.time.holdover = true ∧
        t.time.locked = false ∧ (489 : BitVec 10) ∈ t.ev.pend ∧ t.mem = s.mem) ∧
    (∀ (u : BitVec 2) utc age c, s.time.ppsCyc = some c → fbit (force s (aTIME + 0x1C)) 2 = true →
      fld (force s (aTIME + 0x1C)) 3 2 = u.toNat → s.time.valid = false → s.time.sets = 0 → s.time.pending = none →
      s.time.locked = true → age ≤ 900 → s.cp.down = false → s.pair.mstate ≠ .shadow →
      fbit (force s (aUART u.toNat)) 1 = false → s.tick.on = true →
      ∃ t, exec (.timeOfDay u utc age) s = .next t ∧ t.mem = s.mem ∧ t.time.pending = some
        (1000000000 * ((utc : Int) + fld (force s (aTIME + 0x1C)) 8 8) + 5 * ((s.time.cyc : Int) - c) - s.time.ns, 2)) ∧
    (s.time.valid = true → s.time.ns % 1000000000 < 20 → s.time.ppsSec ≠ some (s.time.ns / 1000000000) →
      exec .ppsOut s = .next { s with time := { s.time with
        ppsOut := true, ppsOutNs := s.time.ns, ppsSec := some (s.time.ns / 1000000000) } }) ∧
    (rowMay s .timeLo = true → exec .timeLo s = .next { s with
      time := { s.time with timeHi := BitVec.ofNat 32 (s.time.ns / 4294967296) }
      cp := { s.cp with rdata := BitVec.ofNat 32 s.time.ns } }) ∧
    (rowMay s .countLo = true → exec .countLo s = .next { s with
      tick := { s.tick with countHi := BitVec.ofNat 32 (s.tick.num / 4294967296) }
      cp := { s.cp with rdata := BitVec.ofNat 32 s.tick.num } })

/-- The schedule of a station bus (R217, R241-R243, R246-R248, R253): the reference frame at T0 + 10 µs, another module's reference
frame, the free window, the ARM frames of an update, and the classes of a node's input frame. -/
def Obligations.BusSchedule : Prop :=
  ∀ s : State, tablesOk s = true →
    (∀ (b : BitVec 2) delay, sendsRef s b.toNat = true → s.tick.refDone.getLsbD b.toNat = false →
      s.tick.t0 + 10000 ≤ s.time.ns → ∃ t, exec (.referenceFrame b delay) s = .next t ∧ t.mem = s.mem ∧
        t.tick.refDone.getLsbD b.toNat = true ∧ (bu t b.toNat).schedRun = true ∧ (bu t b.toNat).free = false ∧
        ∃ x, (bu t b.toNat).sched = x :: (bu s b.toNat).sched.filter (fun y => decide (y.kind ≠ 0)) ∧ x.kind = 0 ∧
          x.id = BitVec.ofNat 29 (1 + seatBit s) ∧ x.data.length = 8 ∧ x.data[1]? = some (BitVec.ofNat 8 s.tick.num)) ∧
    (∀ (b : BitVec 2) delay, b.toNat < nBus s → tickRuns s = true → sendsRef s b.toNat = false →
      s.tick.refDone.getLsbD b.toNat = false → s.tick.t0 + 10000 ≤ s.time.ns →
      ∃ t, exec (.referenceFrame b delay) s = .next t ∧ t.mem = s.mem ∧ t.tick.refDone.getLsbD b.toNat = true ∧
        (bu t b.toNat).schedRun = false ∧ (bu t b.toNat).sched = (bu s b.toNat).sched) ∧
    (∀ (b : BitVec 2) (id : BitVec 11) byte0, canHears s b.toNat = true → (id = 1 ∨ id = 2) → id.toNat ≠ 1 + seatBit s →
      ∃ t, exec (.referenceFrameHeard b id byte0) s = .next t ∧ t.pair.refHeard = true ∧ t.mem = s.mem ∧
        (id.toNat < 1 + seatBit s → (bu t b.toNat).lowerHeard = some s.tick.num)) ∧
    (∀ b : BitVec 2, sendsRef s b.toNat = true → s.tick.freeDone.getLsbD b.toNat = false →
      s.tick.refDone.getLsbD b.toNat = true → (bu s b.toNat).schedRun = true →
      s.tick.t0 + 1000 * fld (canCfg s b.toNat 0x14) 0 17 ≤ s.time.ns →
      ∃ t, exec (.freeWindow b) s = .next t ∧ t.tick.freeDone.getLsbD b.toNat = true ∧ (bu t b.toNat).free = true ∧
        (bu t b.toNat).sched = (bu s b.toNat).sched ++
          (if goDue s && refMaster s b.toNat then [actFrame s 2] else []) ∧ t.mem = s.mem) ∧
    (tickRuns s = true → s.upd.phase = .armed → s.upd.decided = false → actT0 s ≤ s.time.ns + 60000000000 →
      s.time.ns + 1000000000 ≤ actT0 s → s.upd.armSec ≠ s.time.ns / 1000000000 →
      ∃ t, exec .activateArm s = .next t ∧ t.upd.armSec = s.time.ns / 1000000000 ∧ t.mem = s.mem ∧
        ∀ b < nBus s, (bu t b).sched =
          if refMaster s b then (bu s b).sched ++ [actFrame s 1] else (bu s b).sched) ∧
    (∀ (k : BitVec 8) (sof eof : Int) busy data, k.toNat < nNodes s → nodeSched s k.toNat = true →
      nodeFormat s k.toNat = true → canHears s (k.toNat / 36) = true → s.tick.on = true →
      let i := k.toNat
      let base := if sof < 0 then s.tick.lastT0 else s.tick.t0
      let tick := if sof < 0 then s.tick.num - 1 else s.tick.num
      let first := sof + ((s.tick.t0 : Int) - base)
      let last := eof + ((s.tick.t0 : Int) - base)
      let start : Int := 1000 * fld (nodeCfg s i 4) 0 17
      let len : Int := 1000 * fld (nodeCfg s i 8) 0 16
      let guard : Int := 1000 * fld (nodeCfg s i 8) 16 8
      let due := nodeDue s i tick
      let pushed := busy || busyAt s (i / 36) (base + 1000 * fld (nodeCfg s i 4) 0 17)
      let rx := fun (lt ed : Bool) => (nd s i).rx ++ [({
        late := lt, edge := ed, pushed := pushed, data := data, eof := (s.tick.t0 : Int) + eof, tick := tick } : NodeRx)]
      (due = true → start ≤ first → last ≤ start + len →
        ∃ t, exec (.nodeInputFrame k sof eof busy data) s = .next t ∧ (nd t i).rx = rx false false ∧
          (nd t i).lastOfs = first - start ∧ (nd t i).consec = 0 ∧ t.mem = s.mem) ∧
      (due = true → ¬ (start ≤ first ∧ last ≤ start + len) → start ≤ first + guard → last ≤ start + len + guard →
        ∃ t, exec (.nodeInputFrame k sof eof busy data) s = .next t ∧ (nd t i).rx = rx false true ∧
          (nd t i).consec = 0) ∧
      ((due = false ∨ first + guard < start ∨ start + len + guard < last) →
        ∃ t, exec (.nodeInputFrame k sof eof busy data) s = .next t ∧ (nd t i).rx = rx true false ∧
          (pushed = true → (nd t i).violations = (nd s i).violations) ∧
          (pushed = false → (nd s i).waiting = false → (nd t i).consec = min 3 ((nd s i).consec + 1) ∧
            (nd t i).violations = min 65535 ((nd s i).violations + 1))))

/-- Receive FIFOs, transmit entries and error states of a station bus (R228, R230, R231, R239, R240, R254); the stamp of a frame is
station time at its start of frame, in whole 5 ns. The error counters and the error state move as in the standard; a REC above 127 falls to a
free value from 119 to 127 at a frame received (log 122). -/
def Obligations.CanFramesAndErrors : Prop :=
  ∀ (s : State) (b : BitVec 2) (e : BitVec 4), tablesOk s = true →
    let i := b.toNat
    let x := txEntry s i e.toNat
    let stampOf := fun (age : Nat) => BitVec.ofNat 48 ((s.time.ns - age) / 5 * 5)
    (∀ f age, canHears s i = true → (f.fdf = false ∨ fbit (canCfg s i 0) 2 = true) → filterHit s i f = true →
      f.rtr = false → nodeId s i 0xC f = false → reservedId f = false → s.prot.frozen.getLsbD 3 = false →
      ∃ t, exec (.rxFrame b ⟨f, age⟩) s = .next t ∧ t.mem = s.mem ∧
        ((bu s i).fifo.length < 64 → (bu t i).fifo = (bu s i).fifo ++ [{ f with stamp := stampOf age }] ∧
          (bu t i).ovf = (bu s i).ovf) ∧
        (bu t i).txErrs = (bu s i).txErrs ∧
        ((bu s i).rxErrs.toNat ≤ 127 → (bu t i).rxErrs.toNat = (bu s i).rxErrs.toNat - 1) ∧
        (127 < (bu s i).rxErrs.toNat → 119 ≤ (bu t i).rxErrs.toNat ∧ (bu t i).rxErrs.toNat ≤ 127) ∧
        (64 ≤ (bu s i).fifo.length → (bu t i).fifo = (bu s i).fifo ∧ (bu t i).ovf = true)) ∧
    (∀ f age, f.fdf = true → fbit (canCfg s i 0) 2 = false → exec (.rxFrame b ⟨f, age⟩) s = .next s) ∧
    (∀ v : Word, rowMay s (.canRxPop b v) = true → i < nBus s → v.getLsbD 0 = true →
      exec (.canRxPop b v) s = .next (buPut s i { bu s i with fifo := (bu s i).fifo.drop 1 })) ∧
    (rowMay s (.txReq b e) = true → i < nBus s → x.pending = false → txBadId s i e.toNat = false →
      exec (.txReq b e) s = .next (txPut s i e.toNat { x with pending := true, reqNs := s.time.ns })) ∧
    (rowMay s (.txReq b e) = true → i < nBus s → x.pending = false → txBadId s i e.toNat = true →
      exec (.txReq b e) s = .next (txPut s i e.toNat { x with badId := true })) ∧
    (rowMay s (.txAbort b e) = true → i < nBus s → x.pending = true → ∃ t, exec (.txAbort b e) s = .next t ∧ t.mem = s.mem ∧
      t.bus = (txPut s i e.toNat { x with pending := false, aborted := true }).bus) ∧
    (∀ age esi, canHears s i = true → canMode s i = 1 → x.pending = true → s.prot.frozen.getLsbD 3 = false →
      (∀ j < 16, (txEntry s i j).pending = true → txBadId s i j = false) →
      (∀ c, (bu s i).cur = some c → (s.time.ns - age) / 5 * 5 < c.sof) →
      txFits s i e.toNat ((s.time.ns - age) / 5 * 5) = true → txFirst s i e.toNat ((s.time.ns - age) / 5 * 5) = true →
      ∃ t, exec (.txDone b e age esi) s = .next t ∧ t.mem = s.mem ∧
        (bu t i).tx = (bu (txPut s i e.toNat { x with
          pending := false, done := true, stamp := stampOf age
          esi := txFd s i e.toNat && decide ((bu s i).state = 1) }) i).tx ∧
        (bu t i).txErrs.toNat = (bu s i).txErrs.toNat - 1 ∧
        (fbit (canCfg s i 0x1C) 1 = true → BitVec.ofNat 10 (401 + 4 * i) ∈ t.ev.pend)) ∧
    (∀ age esi, x.pending = true → txBadId s i e.toNat = true → i < nBus s →
      ∃ t, exec (.txDone b e age esi) s = .next t ∧ t.mem = s.mem ∧ (txEntry t i e.toNat).pending = false ∧
        (txEntry t i e.toNat).badId = true ∧ (txEntry t i e.toNat).done = x.done) ∧
    (∀ tec rec : Byte, canHears s i = true → errStep (bu s i).txErrs.toNat (bu s i).rxErrs.toNat tec.toNat rec.toNat = false →
      exec (.busError b tec rec) s = .next s) ∧
    (∀ tec rec : Byte, canHears s i = true → errStep (bu s i).txErrs.toNat (bu s i).rxErrs.toNat tec.toNat rec.toNat = true →
      ∃ t, exec (.busError b tec rec) s = .next t ∧ (bu t i).txErrs = tec ∧
      (bu t i).rxErrs = rec ∧ (bu t i).tx = (bu s i).tx ∧ t.mem = s.mem ∧
      (rec = (bu s i).rxErrs → tec = 255 → 255 < (bu s i).txErrs.toNat + 8 → (bu t i).state = 2) ∧
      ((rec ≠ (bu s i).rxErrs ∨ tec ≠ 255 ∨ (bu s i).txErrs.toNat + 8 ≤ 255) →
        (bu t i).state = if 128 ≤ tec.toNat ∨ 128 ≤ rec.toNat then 1 else 0) ∧
      ∀ c, (bu s i).cur = some c → c.tick = s.tick.num → (bu t i).cur = none ∧ (bu t i).sched = c.frame :: (bu s i).sched) ∧
    (∀ (tec rec : Byte) (st : BitVec 2), canHears s i = true →
      (st = (bu s i).state ∨ st = 3 ∨ st = 2 ∧ tec ≠ 255 ∨ st ≠ 2 ∧ st ≠ (if 128 ≤ tec.toNat ∨ 128 ≤ rec.toNat then 1 else 0)) →
      exec (.errorStateChange b tec rec st) s = .next s) ∧
    (∀ (tec rec : Byte) (st : BitVec 2), canHears s i = true → st ≠ (bu s i).state →
      (st = 2 ∧ tec = 255 ∨ st ≠ 2 ∧ st = (if 128 ≤ tec.toNat ∨ 128 ≤ rec.toNat then 1 else 0)) →
      ∃ t, exec (.errorStateChange b tec rec st) s = .next t ∧ (bu t i).state = st ∧ (bu t i).txErrs = tec ∧
        (bu t i).rxErrs = rec ∧ (bu t i).busoff = (if st = 2 then min 65535 ((bu s i).busoff + 1) else (bu s i).busoff) ∧
        (bu t i).schedRun = ((bu s i).schedRun && decide (st ≠ 2)) ∧ t.mem = s.mem) ∧
    (i < nBus s → (bu s i).state = 2 → ∃ t, exec (.busOffRecovery b) s = .next t ∧ (bu t i).state = 0 ∧
      (bu t i).txErrs = 0 ∧ (bu t i).rxErrs = 0 ∧ t.mem = s.mem)

/-! ### The communication processor and its ports -/

/-- The interrupt controller and the event queues (R267-R269): a claim takes the highest priority, and among equals the lowest
number. CP resets (R281, R284, R303) and the OEM partition (R261, R280). -/
def Obligations.CpAndInterrupts : Prop :=
  ∀ s : State,
    (∀ n, rowMay s .icClaim = true → n < 544 → claimable s n = true →
      (∀ m < 544, claimable s m = true → icPrio s m < icPrio s n ∨ icPrio s m = icPrio s n ∧ n ≤ m) →
      ∃ t, exec .icClaim s = .next t ∧ t.cp.rdata = BitVec.ofNat 32 n ∧ BitVec.ofNat 10 n ∉ t.ev.pend ∧
        t.ev.run = BitVec.ofNat 10 n :: s.ev.run ∧ t.ev.claim = BitVec.ofNat 10 n ∧ t.mem = s.mem) ∧
    (rowMay s .icClaim = true → (∀ m < 544, claimable s m = false) → ∃ t, exec .icClaim s = .next t ∧ t.cp.rdata = 0x3FF ∧
      t.ev = { s.ev with claim := 0x3FF } ∧ t.mem = s.mem) ∧
    (∀ src : BitVec 10, rowMay s (.icComplete src) = true → (condSources s).contains src.toNat = false →
      exec (.icComplete src) s = .next { s with ev := { s.ev with run := s.ev.run.erase src } }) ∧
    (∀ v : Word, v.getLsbD 0 = true →
      (rowMay s (.eqPop 0 v) = true → exec (.eqPop 0 v) s = .next { s with ev := { s.ev with q0 := s.ev.q0.drop 1 } }) ∧
      (rowMay s (.eqPop 1 v) = true → exec (.eqPop 1 v) s = .next { s with ev := { s.ev with q1 := s.ev.q1.drop 1 } })) ∧
    (let down := fun (i : Instr) (cause : BitVec 4) => ∃ t, exec i s = .next t ∧ t.cp.down = true ∧ t.cp.cause = cause ∧
       t.cp.sessions = [] ∧ t.ev.q0.length ≤ 512 ∧ t.mon.held = none ∧ t.prot.frozen.getLsbD 1 = false ∧ t.mem = s.mem
     (s.sys.powered = true → s.sys.inReset = false → s.pair.mstate ≠ .sleep → s.wd.cpRunning = true → s.wd.cpDeadline ≤ s.time.cyc →
       down .cpWdg 1) ∧
     (∀ v : Word, rowMay s (.cpwdService v) = true → v ≠ 0xC35A → down (.cpwdService v) 1) ∧
     (cpRuns s = true → down .cpLockstep 2 ∧ down .dbCpSram 3 ∧ down .cpResetRequest 4)) ∧
    (rowMay s (.cpwdService 0xC35A) = true → exec (.cpwdService 0xC35A) s = .next { s with wd := { s.wd with
      cpTimeout := fld (force s (aWD + 0x40)) 0 16
      cpDeadline := s.time.cyc + 200000 * fld (force s (aWD + 0x40)) 0 16 } }) ∧
    (s.cp.down = true → ∃ t, exec .cpRestart s = .next t ∧ t.cp.down = false ∧
      t.cp.oemValid = oemSig s s.upd.bank ∧ t.mem = s.mem) ∧
    (cpRuns s = true → s.cp.oemValid = true → s.cp.oemStopped = false → ∃ t, exec .oemViolation s = .next t ∧
      t.cp.oemStopped = true ∧ t.cp.oemStopCyc = s.time.cyc ∧ t.mem = s.mem) ∧
    (s.cp.oemStopped = true → s.cp.oemStops.length < 3 → s.cp.oemStopCyc + 200000000 ≤ s.time.cyc →
      exec .oemRestart s = .next { s with cp := { s.cp with oemStopped := false } })

/-- The serial ports (R273-R276): the FIFOs, the keying of a radio port, the duty governor's hold, and the line's events. -/
def Obligations.SerialPorts : Prop :=
  ∀ (s : State) (u : BitVec 2), tablesOk s = true →
    let k := u.toNat
    let x := ua s k
    (∀ v, rowMay s (.uartDataWrite u v) = true → x.tx.length < 256 → (fbit (uartCfg s k 0) 0 = false ∨ x.busy = true) →
      exec (.uartDataWrite u v) s = .next (uaPut s k { x with tx := x.tx ++ [v] })) ∧
    (∀ v, k < 2 → x.tx = [] → x.busy = false → x.keyed = false → x.hold = false → fbit (uartCfg s k 0) 0 = true →
      fbit (uartCfg s k 0) 6 = false → rowMay s (.uartDataWrite u v) = true → ∃ t, exec (.uartDataWrite u v) s = .next t ∧
        ua t k = { x with busy := true, phaseCyc := s.time.cyc } ∧ t.mem = s.mem) ∧
    (∀ v, k < 2 → x.tx = [] → x.busy = false → x.keyed = false → x.hold = false → fbit (uartCfg s k 0) 0 = true →
      fbit (uartCfg s k 0) 6 = true → fbit (uartCfg s k 0) 7 = false → rowMay s (.uartDataWrite u v) = true →
      ∃ t, exec (.uartDataWrite u v) s = .next t ∧
        ua t k = { x with tx := [v], keyed := true, leading := true, phaseCyc := s.time.cyc } ∧ t.mem = s.mem) ∧
    (∀ d pe fe r, rowMay s (.uartDataRead u) = true → x.rx = (d, pe, fe) :: r → exec (.uartDataRead u) s = .next (readOut
      (BitVec.ofNat 32 (d.toNat + 256 + 512 * b2n pe + 1024 * b2n fe)) (uaPut s k { x with rx := r }))) ∧
    (rowMay s (.uartDataRead u) = true → x.rx = [] → exec (.uartDataRead u) s = .next (readOut 0 s)) ∧
    (x.leading = true → x.phaseCyc + 200000 * fld (uartCfg s k 8) 0 8 ≤ s.time.cyc → fbit (uartCfg s k 0) 8 = false →
      ∃ t, exec (.leadEnd u) s = .next t ∧ t.mem = s.mem ∧
        ua t k = { x with leading := false, tx := x.tx.drop 1, busy := true, phaseCyc := s.time.cyc }) ∧
    (x.tailing = true → x.phaseCyc + tailCyc s k ≤ s.time.cyc → x.tx = [] →
      exec (.tailEnd u) s = .next (uaPut s k { x with keyed := false, tailing := false })) ∧
    (govOn s k = true → isRadio s k = true → x.keyed = true → x.hold = false → x.level ≤ 0 → ∃ t, exec (.govHold u) s = .next t ∧
      (ua t k).hold = true ∧ (ua t k).holdBit = true ∧ (ua t k).leading = false ∧ (ua t k).tailing = (x.tailing || x.leading) ∧
      BitVec.ofNat 10 (425 + 2 * k) ∈ t.ev.pend ∧ t.mem = s.mem) ∧
    (x.hold = true → (100 * fld (uartCfg s k 0xC) 16 16 : Int) ≤ x.level → ∃ t, exec (.govResume u) s = .next t ∧
      (ua t k).hold = false ∧ t.mem = s.mem) ∧
    (∀ v pe fe, fbit (uartCfg s k 0) 0 = true → cpRuns s = true → (k < 2 ∨ x.keyed = false) → x.rx.length < 256 →
      ∃ t, exec (.uartRxByte u v pe fe) s = .next t ∧ (ua t k).rx = x.rx ++ [(v, pe, fe)] ∧
        (ua t k).rxErr = (x.rxErr || pe || fe) ∧ t.mem = s.mem ∧
        (127 ≤ x.rx.length → BitVec.ofNat 10 (424 + 2 * k) ∈ t.ev.pend)) ∧
    (∀ c, x.rxCyc = some c → 0 < fld (uartCfg s k 0) 10 4 →
      c + fld (uartCfg s k 0) 10 4 * charCyc s k / 2 ≤ s.time.cyc → ∃ t, exec (.idleGap u) s = .next t ∧
        (ua t k).rxCyc = none ∧ BitVec.ofNat 10 (424 + 2 * k) ∈ t.ev.pend ∧ t.mem = s.mem) ∧
    (x.busy = true → (x.tx = [] ∨ x.hold = true) → x.phaseCyc + charCyc s k ≤ s.time.cyc →
      ∃ t, exec (.uartTxComplete u) s = .next t ∧ (ua t k).busy = false ∧ (ua t k).tailing = x.keyed ∧ t.mem = s.mem ∧
      (x.tx = [] → BitVec.ofNat 10 (425 + 2 * k) ∈ t.ev.pend)) ∧
    (∀ lines, k < 2 → lines ≠ x.lines → s.sys.powered = true → s.pair.mstate ≠ .sleep → ∃ t, exec (.modemLineChange u lines) s = .next t ∧
      (ua t k).lines = lines ∧ BitVec.ofNat 10 (425 + 2 * k) ∈ t.ev.pend ∧ t.mem = s.mem)

/-- Ethernet, USB and service access (R270-R272, R277-R279, R299, R344): frames, links, sessions with their tokens, and the
loader in RECOVERY. -/
def Obligations.PortsAndSessions : Prop :=
  ∀ s : State,
    (∀ (e : Bool) len, ethOn s e = true → cpRuns s = true → s.prot.frozen.getLsbD 4 = false →
      (∀ tagged, ∃ t, exec (.ethernetFrame e len tagged false) s = .next t ∧ BitVec.ofNat 10 (419 + 4 * b2n e) ∈ t.ev.pend ∧
        t.cp = s.cp ∧ t.mem = s.mem) ∧
      (∀ tagged, (tagged = true ∨ 1518 < len) → exec (.ethernetFrame e len tagged true) s = .next s) ∧
      (len ≤ 1518 →
      (s.cp.ethSec = s.time.cyc / 200000000 → 20000 ≤ mget (fun _ => 0) s.cp.ethCount (b2n e) →
        ∃ t, exec (.ethernetFrame e len false true) s = .next t ∧ BitVec.ofNat 10 (419 + 4 * b2n e) ∈ t.ev.pend ∧
          t.cp.ethCount = s.cp.ethCount) ∧
      ((s.cp.ethSec ≠ s.time.cyc / 200000000 ∨ mget (fun _ => 0) s.cp.ethCount (b2n e) < 20000) →
        ∃ t, exec (.ethernetFrame e len false true) s = .next t ∧ BitVec.ofNat 10 (416 + 4 * b2n e) ∈ t.ev.pend ∧
          t.cp.ethDiscards = s.cp.ethDiscards ∧ t.mem = s.mem ∧
          t.cp.ethRing = mput (fun _ => 0) s.cp.ethRing (b2n e) (mget (fun _ => 0) s.cp.ethRing (b2n e) + 1)))) ∧
    (∀ e up, s.cp.link.getLsbD (b2n e) ≠ up → ∃ t, exec (.ethernetLink e up) s = .next t ∧
      t.cp.link.getLsbD (b2n e) = up ∧ BitVec.ofNat 10 (418 + 4 * b2n e) ∈ t.ev.pend ∧ t.mem = s.mem ∧
      t.cp.sessions = if up then s.cp.sessions else mput (fun _ => none) s.cp.sessions (b2n e) none) ∧
    (s.pair.mstate ≠ .sleep → exec (.usbVbus true) s = .next { s with cp := { s.cp with usb := true } }) ∧
    exec (.usbVbus false) s = .next { s with cp := { s.cp with
      usb := false, sessions := mput (fun _ => none) s.cp.sessions 2 none } } ∧
    (s.sys.powered = true → s.sys.recovery = true → s.pair.mstate = .init → ∃ t, exec (.usbLoader true) s = .next t ∧
      t.sys.recovery = false ∧ t.upd.sigA = true ∧ t.mem = s.mem) ∧
    (∀ i : BitVec 2, ifaceOpen s i.toNat = true → ∃ t x, exec (.sessionOpen i) s = .next t ∧
      t.cp.sessions = mput (fun _ => none) s.cp.sessions i.toNat (some x) ∧ x.roles = 0 ∧ x.until_ = none ∧
      t.mem = s.mem) ∧
    (∀ (i : BitVec 2) x (m : TokenMsg), session s i.toNat = some x → ifaceLive s i.toNat = true →
      (m.nonce = x.nonce → tokenScope s m = true → tokenMac s m = true → 1 ≤ m.validMin.toNat → m.validMin.toNat ≤ 1440 →
        m.roles.toNat < 16 → exec (.token i m) s = .next (sessPut s i.toNat (some { x with
          roles := m.roles, scopeKind := m.scopeKind
          until_ := some (s.time.cyc + 12000000000 * m.validMin.toNat) }))) ∧
      ((m.nonce ≠ x.nonce ∨ tokenScope s m = false ∨ tokenMac s m = false) → ∃ t, exec (.token i m) s = .next t ∧ t.cp.sessions = s.cp.sessions ∧
        t.mem = s.mem) ∧
      (∀ c, x.until_ = some c → c ≤ s.time.cyc →
        exec (.sessionExpiry i) s = .next (sessPut s i.toNat (some { x with roles := 0, until_ := none })))) ∧
    (∀ (i : BitVec 2) c, mget (fun _ => none) s.cp.tokLock i.toNat = some c → c ≤ s.time.cyc →
      exec (.tokenLockEnd i) s = .next { s with cp := { s.cp with
        tokLock := mput (fun _ => none) s.cp.tokLock i.toNat none } })

/-! ### Faults, watchdogs and the clock monitor -/

/-- Protection, watchdogs, the clock monitor and the FCU's own registers (R286, R288, R293, R294, R298-R305, R353, R402). -/
def Obligations.FaultsAndWatchdogs : Prop :=
  ∀ s : State,
    (∀ addr, cpRuns s = true → s.prot.frozen.getLsbD 1 = false →
      (∀ wr, assigned addr.toNat = false → exec (.protectionViolation 1 addr wr) s = .next { s with cp := { s.cp with
        busErrors := s.cp.busErrors + 1 } }) ∧
      (assigned addr.toNat = true → flBankBusy s addr.toNat = true → exec (.protectionViolation 1 addr false) s =
        .next { s with
          cp := { s.cp with busErrors := s.cp.busErrors + 1 }
          nv := { s.nv with flBusyRead := true } })) ∧
    (∀ (m : BitVec 3) addr wr, m ≠ 7 → (m = 1 → wr = true ∨ flBankBusy s addr.toNat = false) → s.prot.frozen.getLsbD m.toNat = false →
      permitted s m.toNat addr.toNat wr = false → (m ≠ 0 ∨ s.le.running = true) →
      ∃ t, exec (.protectionViolation m addr wr) s = .next t ∧ t.prot.frozen.getLsbD m.toNat = true ∧
        t.prot.violAddr = mput (fun _ => 0) s.prot.violAddr m.toNat addr ∧ t.prot.violWrite.getLsbD m.toNat = wr ∧
        t.prot.violValid.getLsbD m.toNat = true ∧ (540 : BitVec 10) ∈ t.ev.pend ∧ t.mem = s.mem ∧
        (m = 0 → s.pair.role = .solo → s.pair.mstate = .run → t.pair.mstate = .safe)) ∧
    (∀ v : Word, rowMay s (.freezeClr v) = true → v.extractLsb' 16 16 ≠ 0xC35A →
      exec (.freezeClr v) s = .next { s with prot := { s.prot with keyErr := true } }) ∧
    (∀ v : Word, rowMay s (.freezeClr v) = true → v.extractLsb' 16 16 = 0xC35A → v.getLsbD 2 = false → exec (.freezeClr v) s =
      .next { s with prot := { s.prot with frozen := s.prot.frozen &&& ~~~(v.truncate 7 &&& 0x7E) } }) ∧
    (∀ k : BitVec 3, inRun s = true → twdEn s k.toNat = true → (twd s k.toNat).started = true →
      twdTimeout s k.toNat ≤ (twd s k.toNat).count → 0 < (twd s k.toNat).count →
      s.wd.expired.getLsbD k.toNat = false → ∃ t, exec (.twdExpired k) s = .next t ∧
        t.wd.expired.getLsbD k.toNat = true ∧ t.wd.nTask = min 65535 (s.wd.nTask + 1) ∧
        BitVec.ofNat 10 (480 + k.toNat) ∈ t.ev.pend ∧ t.mem = s.mem) ∧
    (bwdRan s 1 = true → s.sys.pendReset = none →
      (s.pair.mstate ≠ .sleep → exec .backupWdg s = .next { s with
        wd := { s.wd with bwdFrom := s.time.cyc }
        sys := { s.sys with pendReset := some 3 } }) ∧
      (s.pair.mstate = .sleep → fbit (force s (aSYS + 0x14)) 1 = true →
        exec .backupWdg s = .next { s with sys := { s.sys with wake := true, pendReset := some 5 } })) ∧
    (bwdRan s 2 = true → s.tick.on = true → s.wd.bwdHalf = false → s.pair.mstate ≠ .sleep → s.pair.mstate ≠ .init →
      ∃ t, exec .bwdHalfTimeout s = .next t ∧ t.wd.bwdHalf = true ∧ (495 : BitVec 10) ∈ t.ev.pend ∧ t.mem = s.mem) ∧
    (∀ dev : Int, dev.natAbs ≤ 200 → s.sys.powered = true → s.pair.mstate ≠ .sleep → s.wd.backupFail = false →
      exec (.clockFail dev) s = .next { s with wd := { s.wd with devPpm := dev } }) ∧
    (∀ dev : Int, 200 < dev.natAbs → s.sys.powered = true → s.sys.inReset = false → s.pair.mstate ≠ .sleep →
      s.wd.backupFail = false → ∃ t, exec (.clockFail dev) s = .next t ∧ t.sys.inReset = true ∧
        t.pair.tokenOut = false ∧ t.le.running = false ∧ t.wd.mainFailed = true ∧ t.wd.devPpm = dev ∧
        t.wd.nClock = min 65535 (s.wd.nClock + 1) ∧ t.wd.clkFailCyc = some s.time.cyc ∧ t.chan = s.chan ∧
        t.mem = s.mem) ∧
    (∀ c, s.wd.clkFailCyc = some c → s.sys.powered = true → s.sys.inReset = true → s.sys.supplyLost = false →
      s.time.cyc < c + 20000000 → exec .clockRecovery s = .next { s with wd := { s.wd with clkBad := false } }) ∧
    (∀ c, s.wd.clkFailCyc = some c → s.sys.powered = true → s.sys.inReset = true → s.sys.supplyLost = false →
      c + 20000000 ≤ s.time.cyc → ∃ t, exec .clockRecovery s = .next t ∧ t.pair.mstate = .init ∧ t.sys.cause = 4 ∧
        t.sys.inReset = false ∧ t.wd.nFatal = min 65535 (s.wd.nFatal + 1) ∧
        t.mem.words = s.mem.words.filter (fun p => keptWord p.1)) ∧
    (∀ bad, s.sys.powered = true → s.sys.inReset = false → s.pair.mstate ≠ .sleep → s.wd.backupFail = !bad →
      ∃ t, exec (.backupClock bad) s = .next t ∧ t.wd.backupFail = bad ∧ (496 : BitVec 10) ∈ t.ev.pend ∧
        t.mem = s.mem) ∧
    (∀ w : BitVec 6, w.toNat < 34 → s.sys.powered = true → s.sys.inReset = false →
      s.pair.mstate ≠ .sleep → s.fcu.parityBad.getLsbD w.toNat = false → ∃ t, exec (.fcuParity w) s = .next t ∧
        t.pair.mstate = .safe ∧ t.pair.tokenOut = false ∧ t.fcu.selfBit = true ∧ t.fcu.selfReg = w ∧
        t.le.running = false ∧ t.slc.lastCause = 3 ∧ t.mem = s.mem ∧
        (s.pair.role = .active → s.pair.mstate = .run → t.pair.giveKind = 4)) ∧
    (rowMay s .fcuFirstTimeLo = true → exec .fcuFirstTimeLo s = .next { s with
      fcu := { s.fcu with first := { s.fcu.first with timeHi := BitVec.ofNat 32 (s.fcu.first.time / 4294967296) } }
      cp := { s.cp with rdata := BitVec.ofNat 32 s.fcu.first.time } }) ∧
    (rowMay s .fcuFatalTimeLo = true → exec .fcuFatalTimeLo s = .next { s with
      fcu := { s.fcu with fatal := { s.fcu.fatal with timeHi := BitVec.ofNat 32 (s.fcu.fatal.time / 4294967296) } }
      cp := { s.cp with rdata := BitVec.ofNat 32 s.fcu.fatal.time } })

/-! ### The record store and the Bittern log -/

/-- The NV controller (R311-R318, R321): a WRITE joins the queue with the next sequence number, or is refused with its code; a READ
returns the winner; records are programmed into the head; sectors are erased, repeated or retired; the mount and the modes; a
persistence round at a seal. That a module which runs no scan takes the words as they stand is the model's choice (log 98). -/
def Obligations.RecordStore : Prop :=
  ∀ s : State,
    let w := force s (aNV + 8)
    let coded := fun (x : State) (c : BitVec 4) => { x with nv := { x.nv with code := c } }
    (rowMay s .nvWrite = true → s.nv.mounted = false → exec .nvWrite s = .next (coded s 7) ∧ exec .nvRead s = .next (coded s 7)) ∧
    (rowMay s .nvWrite = true → s.nv.mounted = true →
      (32768 ≤ w.toNat % 65536 ∨ w.toNat % 65536 = 0 → exec .nvWrite s = .next (coded s 4)) ∧
      (w.toNat % 65536 ≠ 0 → w.toNat % 65536 < 32768 → 20 < fld w 24 5 → exec .nvWrite s = .next (coded s 5)) ∧
      (w.toNat % 65536 ≠ 0 → w.toNat % 65536 < 32768 → fld w 24 5 ≤ 20 → 2048 ≤ (entriesDue s).length →
        (w.truncate 16, BitVec.ofNat 4 (fld w 16 4)) ∉ entriesDue s → exec .nvWrite s = .next (coded s 3)) ∧
      (w.toNat % 65536 ≠ 0 → w.toNat % 65536 < 32768 → fld w 24 5 ≤ 20 → (entriesDue s).length < 2048 →
        64 ≤ s.nv.queue.length → s.nv.queue.any (fun q => q.key = w.truncate 16 && q.fmt = BitVec.ofNat 4 (fld w 16 4)) = false →
        exec .nvWrite s = .next (coded s 2)) ∧
      (w.toNat % 65536 ≠ 0 → w.toNat % 65536 < 32768 → fld w 24 5 ≤ 20 → (entriesDue s).length < 2048 →
        s.nv.queue.length < 64 → s.nv.queue.any (fun q => q.key = w.truncate 16 && q.fmt = BitVec.ofNat 4 (fld w 16 4)) = false →
        ∃ t r, exec .nvWrite s = .next t ∧ t.nv.queue = s.nv.queue ++ [r] ∧ r.key = w.truncate 16 ∧
          r.fmt.toNat = fld w 16 4 ∧ r.crit = w.getLsbD 20 ∧ r.data.length = fld w 24 5 ∧ r.seq = s.nv.nextSeq ∧
          t.nv.nextSeq = s.nv.nextSeq + 1 ∧ t.nv.code = 1 ∧ t.mem = s.mem) ∧
      (∀ r, winner s (w.truncate 16) (BitVec.ofNat 4 (fld w 16 4)) = some r →
        ∃ t, exec .nvRead s = .next t ∧ t.nv.code = 0 ∧ t.nv.rdata = r.data ∧ t.nv.rseq = r.seq ∧ t.nv.rfmt = r.fmt ∧
          t.nv.rtwin = r.twin ∧ t.nv.sectors = s.nv.sectors ∧ t.mem = s.mem) ∧
      (winner s (w.truncate 16) (BitVec.ofNat 4 (fld w 16 4)) = none → exec .nvRead s = .next (coded s 6))) ∧
    (s.nv.mounted = true →
      (∀ r rest, s.nv.queue = r :: rest → s.nv.cur = none → s.nv.moving = [] → 16 ≤ s.nv.level →
        headFree s = true → exec .nvDrain s = .next { s with nv := { s.nv with queue := rest, cur := some (r, false) } }) ∧
      (∀ r rest, s.nv.queue = r :: rest → s.nv.cur = none → s.nv.moving = [] → 16 ≤ s.nv.level →
        headFree s = false → ∃ t, exec .nvDrain s = .next t ∧ t.nv.queue = s.nv.queue ∧ t.nv.cur = none ∧ t.mem = s.mem ∧
          (s.nv.reclaiming = none → ∀ i j rest', erasedSecs s = i :: j :: rest' → ∃ k, t.nv.head = some k ∧ (sec s k).erased = true ∧
            (sec t k).erased = false)) ∧
      (∀ r rest, s.nv.queue = r :: rest → s.nv.level < 16 → exec .nvDrain s = .next s)) ∧
    (∀ r i, s.nv.cur = some (r, false) → s.nv.head = some i → headFree s = true →
      (r.crit = false → ∃ t, exec (.nvProgramDone true) s = .next t ∧ t.nv.cur = none ∧ t.nv.level = s.nv.level - 16 ∧
        t.nv.code = 0 ∧ t.nv.rseq = r.seq ∧ (488 : BitVec 10) ∈ t.ev.pend ∧ t.mem = s.mem ∧
        t.nv.sectors = mput (fun _ => {}) s.nv.sectors i { sec s i with
          slots := (sec s i).slots ++ [some {
            key := r.key, fmt := r.fmt, twin := false, moved := false, len := r.data.length, seq := r.seq, data := r.data }] }) ∧
      (∃ t, exec (.nvProgramDone false) s = .next t ∧ t.nv.cur = s.nv.cur ∧ t.nv.recCyc = s.time.cyc ∧ t.mem = s.mem ∧
        t.nv.sectors = mput (fun _ => {}) s.nv.sectors i { sec s i with slots := (sec s i).slots ++ [none] })) ∧
    (∀ i, s.nv.reclaiming = some i →
      (∃ t, exec (.nvEraseDone true) s = .next t ∧ t.nv.reclaiming = none ∧ t.mem = s.mem ∧
        t.nv.sectors = mput (fun _ => {}) s.nv.sectors i {
          erased := true, erases := (sec s i).erases + s.nv.eraseTries + 1 }) ∧
      (s.nv.eraseTries = 0 → exec (.nvEraseDone false) s = .next { s with nv := { s.nv with eraseTries := 1 } }) ∧
      (s.nv.eraseTries ≠ 0 → ∃ t, exec (.nvEraseDone false) s = .next t ∧ t.nv.reclaiming = none ∧
        t.nv.sectors = mput (fun _ => {}) s.nv.sectors i { sec s i with
          erases := (sec s i).erases + s.nv.eraseTries + 1, role := 0, slots := [], retired := true })) ∧
    (s.nv.mounted = false → s.sys.powered = true → ∃ t, exec .mountDone s = .next t ∧ t.nv.mounted = true ∧
      t.nv.startup = true ∧ t.nv.startCyc = s.time.cyc ∧ t.nv.torn = min 65535 (tornSlots s) ∧
      t.nv.recovery = decide (0 < tornSlots s) ∧ t.btn.restored = true ∧ t.btn.early = [] ∧
      (488 : BitVec 10) ∈ t.ev.pend ∧ t.mem = s.mem) ∧
    (s.nv.startup = true → s.nv.startCyc + 12000000000 ≤ s.time.cyc → ∃ t, exec .startupEnd s = .next t ∧
      t.nv.startup = false ∧ (s.nv.recovery = false → s.nv.test = false → t.nv.twinHead = none) ∧ t.mem = s.mem) ∧
    (s.nv.recovery = true → s.nv.recCyc + 120000000000 ≤ s.time.cyc → ∃ t, exec .recoveryEnd s = .next t ∧
      t.nv.recovery = false ∧ (s.nv.startup = false → s.nv.test = false → t.nv.twinHead = none) ∧ t.mem = s.mem) ∧
    (∀ v : Word, rowMay s (.nvTest v) = true → ∃ t, exec (.nvTest v) s = .next t ∧ t.nv.test = v.getLsbD 0 ∧
      (tablesOk s = true → force t aNV = v &&& 1) ∧ t.mem = s.mem) ∧
    (s.nv.mounted = true → fbit (force s (aNV + 0x64)) 12 = true →
      s.nv.roundCyc + 200000000 * fld (force s (aNV + 0x64)) 0 12 ≤ s.time.cyc →
      (inRun s = false ∧ s.le.running = false ∧ s.prot.frozen.getLsbD 2 = false ∨
        inRun s = true ∧ ∃ k, s.nv.roundAcc = some k ∧ sealServes s k = true) →
      (∀ a ∈ s.nv.pmap, permitted s 2 (engAddr a.toNat) false = true) →
      ∃ t, exec .persistRound s = .next t ∧ t.nv.roundCyc = s.time.cyc ∧ t.nv.roundAcc = none ∧
        t.nv.sectors = s.nv.sectors ∧ t.mem = s.mem)

/-- The CP flash (R323, R324): a keyed command starts a line program or a sector erase, except on the bank that it comes from, where it
is refused with the OWN_BANK bit, and while another operation is in progress; its end is reported. -/
def Obligations.CpFlash : Prop :=
  ∀ (s : State) (v : Word) (src : BitVec 2), fld v 16 16 = 0xC35A → rowMay s (.flProgram v src) = true →
    let bank := fld v 0 1
    let addr := fld (force s (aNV + 0x80)) 0 22 + 0x400000 * bank
    (src.toNat ≠ bank → s.nv.flBusy = none →
      (∃ t, exec (.flProgram v src) s = .next t ∧ t.mem = s.mem ∧ t.regs = s.regs ∧ t.nv = { s.nv with
        flBusy := some (BitVec.ofNat 1 bank, false, addr / 32)
        flash := mputs (fun _ => 0xFFFFFFFF) s.nv.flash
          ((List.range 8).map (fun i => (addr / 32 * 8 + i, force s (aNV + 0xA0 + 4 * i)))) }) ∧
      ∃ t, exec (.flErase v src) s = .next t ∧ t.nv.flBusy = some (BitVec.ofNat 1 bank, true, addr / 65536) ∧
        t.nv.flash = s.nv.flash.filter (fun p => decide (p.1 / 16384 ≠ addr / 65536)) ∧ t.mem = s.mem) ∧
    (src.toNat ≠ bank → s.nv.flBusy.isSome = true → exec (.flProgram v src) s = .next s ∧ exec (.flErase v src) s = .next s) ∧
    (src.toNat = bank → ∀ i ∈ [Instr.flProgram v src, .flErase v src], ∃ t, exec i s = .next t ∧ t.nv.flOwn = true ∧
      t.nv.flBusy = s.nv.flBusy ∧ t.nv.flash = s.nv.flash ∧ (488 : BitVec 10) ∈ t.ev.pend ∧ t.mem = s.mem) ∧
    (∀ x ok, ∃ t, exec (.flDone ok) { s with nv := { s.nv with flBusy := some x } } = .next t ∧ t.nv.flBusy = none ∧
      t.nv.flDone = true ∧ t.nv.flVerify = (s.nv.flVerify || !ok) ∧ (488 : BitVec 10) ∈ t.ev.pend ∧ t.mem = s.mem)

/-- The Bittern log (R325, R327, R331, R334-R336): samples enter their bins, minutes count, rounds start, reading changes nothing
but the latch and what it delivers, and a clear empties what its scope names and is counted. -/
def Obligations.BitternLog : Prop :=
  ∀ s : State,
    ((∃ i < 3, ifaceLive s i = true) → ∃ t, exec .readout s = .next t ∧
      t = { s with cp := { s.cp with readout := t.cp.readout } } ∧
      (∀ i < 0x67E, t.cp.readout.getD i 0 = btnRead s (8 + 4 * i)) ∧
      ∀ r < 256, ∀ j < 8, t.cp.readout.getD (0x67E + 8 * r + j) 0 = noticeWord (noticeAt s r) j) ∧
    ((∀ i < 3, ifaceLive s i = false) → exec .readout s = .next s) ∧
    (∀ r : Byte, rowMay s (.noticeRead r) = true → ∃ t, exec (.noticeRead r) s = .next t ∧ t.cp.rdata = noticeWord (noticeAt s r.toNat) 0 ∧
      t.btn.latchSlot = some r.toNat ∧ t.btn.latch = (List.range 7).map (fun j => noticeWord (noticeAt s r.toNat) (j + 1)) ∧
      t.btn.ring = s.btn.ring ∧ t.mem = s.mem) ∧
    (∀ mv temp die field, alive s = true → s.pair.mstate ≠ .sleep → ∃ t, exec (.logSample mv temp die field) s = .next t ∧
      t.btn.supplyHist = binAdd s.btn.supplyHist (if mv < 16500 then 0 else min 31 ((mv - 16000) / 500)) ∧
      t.btn.tempHist = binAdd s.btn.tempHist (if temp < -44 then 0 else min 31 ((temp + 48) / 4).toNat) ∧
      t.grd.base = temp ∧ t.grd.die = die ∧ t.mem = s.mem) ∧
    (alive s = true → s.btn.minCyc + 12000000000 ≤ s.time.cyc → ∃ t, exec .operatingMinute s = .next t ∧
      t.btn.opMin = s.btn.opMin + 1 ∧ t.btn.minCyc = s.time.cyc ∧ t.mem = s.mem ∧
      ∀ n < nCh s, (ch t n).calAgeMin = (ch s n).calAgeMin + 1) ∧
    (roundFree s = true →
      let started := fun (i : Instr) => ∃ t, exec i s = .next t ∧ t.btn.busy = true ∧ t.mem = s.mem ∧
        t.btn.wdCopy = [s.wd.nCp, s.wd.nBackup, s.wd.nTask, s.wd.nClock, s.wd.nFatal]
      ((s.btn.again = true ∨ s.btn.lastRound.toNat + 10 ≤ s.btn.opMin.toNat) → started .bitternRound) ∧
      (∀ v : Word, rowMay s (.persist v) = true → v.getLsbD 0 = true → started (.persist v))) ∧
    (let cleared := fun (i : Instr) (scope : Nat) => ∃ t, exec i s = .next t ∧ t.btn.clears = min 65535 (s.btn.clears + 1) ∧
       t.btn.nonceGen = s.btn.nonceGen + 1 ∧ t.btn.opMin = s.btn.opMin ∧ t.mem = s.mem ∧
       (scope.testBit 1 = true → t.btn.supplyHist = [] ∧ t.btn.tempHist = []) ∧
       (scope.testBit 1 = false → t.btn.supplyHist = s.btn.supplyHist ∧ t.btn.tempHist = s.btn.tempHist) ∧
       (scope.testBit 2 = true → t.btn.tecMax = [] ∧ t.btn.busoff = []) ∧
       (scope.testBit 2 = false → t.btn.tecMax = s.btn.tecMax ∧ t.btn.busoff = s.btn.busoff)
     (∀ v : Word, rowMay s (.btnClear v) = true → v.extractLsb' 16 16 = 0xC35A → cleared (.btnClear v) (v.toNat % 8)) ∧
     (∀ (i : BitVec 2) x (r : ClearReq), session s i.toNat = some x → ifaceLive s i.toNat = true → r.serial = s.fixed.serial →
       r.nonce = s.btn.nonce → clearMac s r = true → x.roles.getLsbD 3 = true → x.scopeKind = 0 → r.scope.toNat < 8 →
       cleared (.clearRequest i r) r.scope.toNat))

/-! ### Power, starts and stops -/

/-- Supply, start-up and resets (R25, R184, R187, R188, R344, R346, R351): loss of the logic supply, its low threshold, power-up with what the
backup domain keeps, and a reset that has been called for. -/
def Obligations.PowerAndReset : Prop :=
  ∀ s : State,
    (s.sys.powered = true → s.sys.supplyLost = false → ∃ t, exec .supplyLoss s = .next t ∧ t.sys.supplyLost = true ∧
      t.sys.lossCyc = s.time.cyc ∧ t.pair.tokenOut = false ∧ (494 : BitVec 10) ∈ t.ev.pend ∧
      t.slc.grp = [] ∧ t.mem = s.mem ∧ (s.pair.role = .active → s.pair.mstate = .run → t.pair.mstate = .hold ∧ t.pair.giveKind = 2) ∧
      (tablesOk s = true → ∀ n < nCh s, (ch t n).drive = false)) ∧
    (∀ low, alive s = true → s.sys.supplyLow = !low → ∃ t, exec (.supplyLow low) s = .next t ∧ t.sys.supplyLow = low ∧
      (494 : BitVec 10) ∈ t.ev.pend ∧ t.mem = s.mem) ∧
    (∀ b seatB, bootBank s = some b → s.sys.powered = true → s.sys.supplyLost = false → s.pair.mstate = .init →
      s.sys.inReset = false → s.sys.recovery = false → ∃ t, exec (.powerUp seatB) s = .next t ∧
        t.pair.mstate = .ready ∧ (t.pair.role = .solo ∨ t.pair.role = .undecided) ∧
        t.pair.seatB = (hasTwin s && seatB) ∧ t.wd.cpTimeout = 2000 ∧ t.mem.words = s.mem.words) ∧
    (∀ seatB, s.sys.powered = true → s.sys.supplyLost = true → s.time.cyc < s.sys.lossCyc + 1600000 →
      exec (.powerUp seatB) s = .next { s with sys := { s.sys with powerBack := some seatB } }) ∧
    (∀ b seatB, bootBank s = some b → s.sys.powered = false → ∃ t, exec (.powerUp seatB) s = .next t ∧
      t.sys.powered = true ∧ t.sys.cause = 1 ∧ t.pair.mstate = .ready ∧ t.mem.words = [] ∧ t.tick.on = false) ∧
    (∀ seatB, bootBank s = none → s.sys.powered = false → ∃ t, exec (.powerUp seatB) s = .next t ∧
      t.sys.powered = true ∧ t.pair.mstate = .init ∧ t.sys.recovery = true) ∧
    (∀ v : Word, rowMay s (.softReset v) = true → fld v 16 16 = 0xC35A → fld v 0 4 = 1 → alive s = true → s.sys.pendReset = none →
      exec (.softReset v) s = .next { s with sys := { s.sys with pendReset := some 5 } }) ∧
    (∀ c, s.sys.pendReset = some c → s.sys.powered = true → s.sys.inReset = false → s.sys.supplyLost = false →
      anyRunning s = false → ∃ t, exec .moduleReset s = .next t ∧ t.pair.mstate = .init ∧ t.sys.cause = c ∧
        t.sys.pendReset = none ∧ t.wd.nBackup = (if c = 3 then min 65535 (s.wd.nBackup + 1) else s.wd.nBackup) ∧
        t.wd.nFatal = (if c = 4 then min 65535 (s.wd.nFatal + 1) else s.wd.nFatal) ∧ t.pair.tokenOut = false ∧ t.tick.on = false ∧ t.le.running = false ∧
        t.mem.words = s.mem.words.filter (fun p => keptWord p.1)) ∧
    (∀ v : Word, rowMay s (.tickGo v) = true → fld v 16 16 = 0xC35A → fld v 0 4 = 2 → s.pair.mstate = .ready → s.tick.on = false →
      s.tick.goAt = none →
      let p := 1000 * s.tick.period
      exec (.tickGo v) s = .next { s with tick := { s.tick with
        goAt := some ((s.time.ns / p + 1) * p), next := (s.time.ns / p + 1) * p } })

/-- Starting and stopping the logic engine, and deep sleep (R350, R352, R353): the results of RUN and STOP in the order of their
checks, the end of a stop, and SLEEP with its wake sources: an accepted request is carried out by the idle clockwork (`sleepStep`). That a
request waits for the mount and the restore is the model's choice (log 114). -/
def Obligations.RunStopAndSleep : Prop :=
  ∀ s : State,
    let res := fun (x : State) (r : BitVec 4) => { x with le := { x.le with result := r } }
    let slp := fun (x : State) (r : BitVec 4) => { x with sys := { x.sys with sleepResult := r } }
    (∀ v : Word, fld v 16 16 ≠ 0xC35A →
      (rowMay s (.leRun v) = true → exec (.leRun v) s = .next (res s 1) ∧ exec (.leStop v) s = .next (res s 1)) ∧
      (rowMay s (.sleep v) = true → v.getLsbD 0 = true → exec (.sleep v) s = .next (slp s 1))) ∧
    (∀ v : Word, rowMay s (.sleep v) = true → v.getLsbD 0 = false → exec (.sleep v) s = .next s) ∧
    (∀ v : Word, rowMay s (.leRun v) = true → fld v 16 16 = 0xC35A →
      ((s.pair.role = .active ∨ s.pair.role = .standby) → exec (.leRun v) s = .next (res s 5)) ∧
      ((s.pair.role = .solo ∨ s.pair.role = .undecided) →
        (s.pair.mstate ≠ .ready → exec (.leRun v) s = .next (res s 2)) ∧
        (s.pair.mstate = .ready → s.sys.fatalHold = true → exec (.leRun v) s = .next (res s 6)) ∧
        (s.pair.mstate = .ready → s.sys.fatalHold = false → s.le.progId = 0 → exec (.leRun v) s = .next (res s 3)) ∧
        (s.pair.mstate = .ready → s.sys.fatalHold = false → s.le.progId ≠ 0 → budgetOk s = false →
          ∃ t, exec (.leRun v) s = .next t ∧ t.le.result = 4 ∧ t.le.budgetOver = true ∧ t.le.runPending = false ∧
            t.pair = s.pair ∧ t.mem = s.mem) ∧
        (s.pair.mstate = .ready → s.sys.fatalHold = false → s.le.progId ≠ 0 → budgetOk s = true →
          exec (.leRun v) s = .next (res { s with le := { s.le with runPending := true } } 0))) ∧
      (s.pair.role ≠ .solo → exec (.leStop v) s = .next (res s 5)) ∧
      (s.pair.role = .solo → s.pair.mstate ≠ .run → exec (.leStop v) s = .next (res s 2)) ∧
      (s.pair.mstate = .run → s.pair.role = .solo → ∃ t, exec (.leStop v) s = .next t ∧ t.le.stopping = true ∧
        t.le.result = 0 ∧ t.pair.mstate = .run ∧ t.slc.lastCause = 4 ∧ t.mem = s.mem ∧
        (tablesOk s = true → ∀ g < nGroups s, (sg s g).phase = .idle → (sg t g).phase = .running))) ∧
    (∀ v : Word, rowMay s (.sleep v) = true → fld v 16 16 = 0xC35A →
      (v.getLsbD 0 = true → s.pair.mstate ≠ .ready → exec (.sleep v) s = .next (slp s 2)) ∧
      (v.getLsbD 0 = true → s.pair.mstate = .ready → (s.pair.role = .solo ∨ s.pair.role = .undecided) →
        (anyRunning s = true → exec (.sleep v) s = .next (slp s 3)) ∧
        (anyRunning s = false → exec (.sleep v) s = .next { s with sys := { s.sys with
          sleepPend := true, sleepRound := false, sleepResult := 0 } }))) ∧
    (s.sys.sleepPend = true → s.pair.mstate = .ready → (s.pair.role = .solo ∨ s.pair.role = .undecided) → anyRunning s = false →
      (s.sys.sleepRound = false → roundFree s = true →
        (sleepStep s).btn.busy = true ∧ (sleepStep s).sys.sleepRound = true ∧ (sleepStep s).mem = s.mem) ∧
      (s.sys.sleepRound = true → (s.btn.busy = true ∨ nvBusy s = true) → sleepStep s = s) ∧
      (s.sys.sleepRound = true → s.btn.busy = false → nvBusy s = false → (sleepStep s).pair.mstate = .sleep ∧
        (sleepStep s).sys.sleepPend = false ∧ (sleepStep s).wd.bwdFrom = s.time.cyc ∧ (sleepStep s).mem = s.mem)) ∧
    (s.le.stopping = true → s.pair.mstate = .run → anyRunning s = false →
      exec .stopComplete s = .next { s with le := { s.le with stopReady := true } }) ∧
    (∀ src, s.pair.mstate = .sleep → fbit (force s (aSYS + 0x14)) (wakeBit src) = true →
      (src ≠ .timer ∨ bwdRan s 1 = true) → s.sys.pendReset = none →
      exec (.wake src) s = .next { s with sys := { s.sys with wake := true, pendReset := some 5 } }) ∧
    (s.pair.mstate = .sleep → s.sys.pendReset = none →
      let wakes := fun (i : Instr) => ∃ t, exec i s = .next t ∧ t.sys.wake = true ∧ t.sys.pendReset = some 5 ∧ t.mem = s.mem
      let en := force s (aSYS + 0x14)
      (en.getLsbD 4 = true → s.cp.usb = false → wakes (.usbVbus true)) ∧
      (en.getLsbD 5 = true → hasTwin s = true → ∀ on, on ≠ s.pair.tokenIn → wakes (.tokenIn on)) ∧
      (∀ (u : BitVec 2) lines, u.toNat < 2 → s.sys.powered = true → en.getLsbD (2 + u.toNat) = true →
        (ua s u.toNat).lines.getLsbD 0 = false → lines.getLsbD 0 = true → wakes (.modemLineChange u lines)))

/-- Register writes of the CP (R3, R9-R11, R260, R261, R278, R297, R298, R398): access types RW, RWT and RWL, writes that stop, and writes
that do nothing; the limits of the OEM partition, the roles of a session, and the writes that the vendor base makes for such a session only; the
rows of other commands that are accesses of the CP; and the write of a configuration slot (R343). Which writes need which roles is
the model's reading of R278 (log 74), and that the check word and the signature are written in a cycle each is its choice (log 117). -/
def Obligations.RegisterWrites : Prop :=
  (∀ (s : State) (i : Instr) (a : Nat) (wr : Bool), regRow i = some (a, wr) →
    (cpRuns s = false ∨ s.prot.frozen.getLsbD 1 = true ∨ rowHeld s i = false → exec i s = .next s) ∧
    (rowHeld s i = true → cpRuns s = true → s.prot.frozen.getLsbD 1 = false → permitted s 1 a wr = false →
      ∃ t, exec i s = .next t ∧ t.prot.frozen.getLsbD 1 = true ∧ t.regs = s.regs ∧ t.mem = s.mem ∧
        (540 : BitVec 10) ∈ t.ev.pend ∧ (wr = false → t.cp.rdata = 0))) ∧
  (∀ s : State, cpRuns s = true → sessionHolds s 4 = true → ∀ slot,
    (updBusy s = true → ∃ t, exec (.configSlotWrite slot) s = .next t ∧ t.upd.result = 21 ∧ t.mem = s.mem ∧
      t.sys.slot0 = s.sys.slot0 ∧ t.sys.slot1 = s.sys.slot1 ∧ (493 : BitVec 10) ∈ t.ev.pend) ∧
    (updBusy s = false →
      let c := slotStamp (s.sys.gen + 1) slot
      let i := s.sys.slotUse + 1
      ∃ t, exec (.configSlotWrite slot) s = .next t ∧ t.mem = s.mem ∧ slotOf t s.sys.slotUse = slotOf s s.sys.slotUse ∧
        (slotOf t i).bytes = c.bytes.take (slotLen c - 68) ∧ (slotOf t i).sigOk = false ∧
        t.sys.slotWr = some { slot := i, stage := 0, cfg := c, pulled := false })) ∧
  (∀ s w, s.sys.slotWr = some w → slotOf (slotStep s) (w.slot + 1) = slotOf s (w.slot + 1) ∧
    (w.stage = 0 → (slotOf (slotStep s) w.slot).bytes = w.cfg.bytes.take (slotLen w.cfg - 64) ∧
      (slotOf (slotStep s) w.slot).sigOk = false ∧ (slotStep s).sys.slotWr = some { w with stage := 1 }) ∧
    (w.stage ≠ 0 → slotOf (slotStep s) w.slot = w.cfg ∧ (slotStep s).sys.slotWr = none)) ∧
  ∀ (s : State) (a v : Word), cpRuns s = true →
    let n := a.toNat
    let i := regInfo n
    ((vendorNeeds s n).all (sessionHolds s) = false → exec (.registerWrite ⟨a, .vendor⟩ v) s = .next s) ∧
    (s.prot.frozen.getLsbD 1 = true → ∀ k, exec (.registerWrite ⟨a, k⟩ v) s = .next s) ∧
    (s.prot.frozen.getLsbD 1 = false → (vendorNeeds s n).all (sessionHolds s) = true →
      (assigned n = false → exec (.registerWrite ⟨a, .vendor⟩ v) s = .next { s with cp := { s.cp with
        busErrors := s.cp.busErrors + 1 } }) ∧
      (assigned n = true → (n % 4 ≠ 0 ∨ absentAddr s n = true) → exec (.registerWrite ⟨a, .vendor⟩ v) s = .next s) ∧
      (n % 4 = 0 → assigned n = true → absentAddr s n = false → permitted s 1 n true = false →
        ∃ t, exec (.registerWrite ⟨a, .vendor⟩ v) s = .next t ∧ t.prot.frozen.getLsbD 1 = true ∧ t.regs = s.regs ∧
          t.mem = s.mem ∧ (540 : BitVec 10) ∈ t.ev.pend) ∧
      (s.cp.oemValid = true → s.cp.oemStopped = false →
        (oemMayWrite s n = false → ∃ t, exec (.registerWrite ⟨a, .oem⟩ v) s = .next t ∧ t.cp.oemStopped = true ∧
          t.cp.oemStopCyc = s.time.cyc ∧ t.regs = s.regs ∧ t.mem = s.mem) ∧
        (oemMayWrite s n = true → (n < 0x40320000 ∨ 0x40320400 ≤ n ∨ n % 256 ≠ 0) →
          exec (.registerWrite ⟨a, .oem⟩ v) s = exec (.registerWrite ⟨a, .vendor⟩ v) s)) ∧
      ((s.cp.oemValid = false ∨ s.cp.oemStopped = true) → exec (.registerWrite ⟨a, .oem⟩ v) s = .next s) ∧
      (∀ k : BitVec 2,
        (ifaceLive s k.toNat = true → sessionMay s k.toNat n v = true →
          exec (.registerWrite ⟨a, .session k⟩ v) s = exec (.registerWrite ⟨a, .vendor⟩ v) s) ∧
        ((ifaceLive s k.toNat = false ∨ sessionMay s k.toNat n v = false) →
          exec (.registerWrite ⟨a, .session k⟩ v) s = .next s)) ∧
      (n % 4 = 0 → assigned n = true → absentAddr s n = false → permitted s 1 n true = true →
        (0x20000000 ≤ n → n < 0x20100000 → exec (.registerWrite ⟨a, .vendor⟩ v) s = .next { s with cp := { s.cp with
          sram := mput (fun _ => 0) s.cp.sram ((n - 0x20000000) / 4) v } }) ∧
        (0x40000000 ≤ n → badCode n v = true → exec (.registerWrite ⟨a, .vendor⟩ v) s = .fault (.reservedCode a)) ∧
        (0x40000000 ≤ n → badCode n v = false → ignored s n v = false → tablesOk s = true →
          (i.cls = .rwl → s.pair.mstate = .ready → ∃ t, exec (.registerWrite ⟨a, .vendor⟩ v) s = .next t ∧
            written t n = v &&& i.mask ∧ (∀ b, b ≠ n → written t b = written s b) ∧ ∀ b, force t b = force s b) ∧
          (i.cls = .rwl → s.pair.mstate ≠ .ready → ∃ t, exec (.registerWrite ⟨a, .vendor⟩ v) s = .next t ∧ t.regs = s.regs ∧
            t.mem = s.mem) ∧
          (i.cls = .rwt → n < aLE + 0xC00 ∨ aLE + 0xC44 ≤ n → ∃ t, exec (.registerWrite ⟨a, .vendor⟩ v) s = .next t ∧
            written t n = v &&& i.mask ∧ (∀ b, b ≠ n → written t b = written s b) ∧ ∀ b, force t b = force s b) ∧
          (i.cls = .rw → n < aIC → n ≠ aPNL → n ≠ aTIME + 0x18 → ∃ t, exec (.registerWrite ⟨a, .vendor⟩ v) s = .next t ∧
            written t n = v &&& i.mask ∧ force t n = v &&& i.mask ∧
            ∀ b, b ≠ n → written t b = written s b ∧ force t b = force s b))))

/-! ### Updating in the field, the Graduation monitor and the local panel -/

/-- An update in the field (R354-R368): manifests and chunks, the decision, the activation, confirmation, and fallback. -/
def Obligations.FieldUpdate : Prop :=
  ∀ s : State,
    let u := s.upd
    ((cpRuns s = false ∨ sessionHolds s 4 = false) → (∀ m, exec (.manifest m) s = .next s) ∧
      ∀ type c data crc readOk img, exec (.chunk type c data crc readOk img) s = .next s) ∧
    (cpRuns s = true → sessionHolds s 4 = true →
      (∀ m, manifestCode s m ≠ 0 → ∃ t, exec (.manifest m) s = .next t ∧
        t.upd = { u with result := BitVec.ofNat 8 (manifestCode s m) } ∧ (493 : BitVec 10) ∈ t.ev.pend ∧ t.mem = s.mem) ∧
      (∀ m, manifestCode s m = 0 → ∃ t, exec (.manifest m) s = .next t ∧ t.upd.man = some m ∧ t.upd.seq = manSeq m ∧
        t.mem = s.mem) ∧
      (∀ type c data crc readOk img, byteCrc data ≠ crc → exec (.chunk type c data crc readOk img) s = .next s) ∧
      (∀ (type : BitVec 4) c (data : List Byte) img p, partOf s type.toNat = some p → c < partChunks p →
        data.length = (if c + 1 = partChunks p then p.length - 512 * c else 512) → u.verified.getLsbD (type.toNat - 1) = false →
        (u.phase = .staging ∨ u.phase = .staged) → u.erased.getLsbD (type.toNat - 1) = true → s.nv.flOpen = [] →
        let l := addNew (type.toNat, c) u.chunks
        let full := partChunks p ≤ (l.filter (fun q => decide (q.1 = type.toNat))).length
        let x := chunkStore p c data s
        let hash := bytesBE (sha256 (partBytes x p))
        (partChunks p ≤ (u.chunks.filter (fun q => decide (q.1 = type.toNat))).length ∨
          ∃ t, exec (.chunk type c data (byteCrc data) false img) s = .next t ∧ t.upd.chunks = u.chunks ∧
            t.upd.verified = u.verified ∧ t.mem = s.mem) ∧
        (¬ full → ∃ t, exec (.chunk type c data (byteCrc data) true img) s = .next t ∧ t.upd.chunks = l ∧
          t.upd.verified = u.verified ∧ t.upd.phase = u.phase ∧ t.mem = s.mem ∧
          (type = 1 → mwf (fun _ => (0xFFFFFFFF : Word)) s.nv.flash = true → ∀ i < data.length / 4,
            mget (fun _ => 0xFFFFFFFF) t.nv.flash (0x100000 * p.target + 128 * c + i) =
              data.getD (4 * i + 3) 0xFF ++ data.getD (4 * i + 2) 0xFF ++ data.getD (4 * i + 1) 0xFF ++ data.getD (4 * i) 0xFF)) ∧
        (full → type ≠ 4 → hash = p.hash → ∃ t, exec (.chunk type c data (byteCrc data) true img) s = .next t ∧ t.upd.chunks = l ∧
          t.upd.verified = u.verified ||| typeBit type.toNat ∧ t.mem = s.mem) ∧
        (full → hash ≠ p.hash → ∃ t, exec (.chunk type c data (byteCrc data) true img) s = .next t ∧ t.upd.result = 8 ∧
          t.upd.verified = u.verified ∧ t.upd.chunks = l.filter (fun q => decide (q.1 ≠ type.toNat)) ∧ t.mem = s.mem))) ∧
    (u.phase = .armed → u.decided = false → tickRuns s = true → decisionTick s ≤ s.tick.num →
      (s.pair.role = .solo ∨ s.pair.role = .active) →
      (decisionCode s ≠ 0 → ∃ t, exec .decision s = .next t ∧ t.upd.phase = .staged ∧ t.upd.decided = false ∧
        t.upd.result = BitVec.ofNat 8 (decisionCode s) ∧ t.mem = s.mem) ∧
      (decisionCode s = 0 → ∃ t, exec .decision s = .next t ∧ t.upd.phase = .armed ∧ t.upd.decided = true ∧
        t.upd.goSent = true ∧ t.mem = s.mem)) ∧
    (u.phase = .armed → u.decided = true → tickRuns s = true → u.actTick ≤ s.tick.num → s.le.running = false →
      ∃ t, exec .activation s = .next t ∧ t.upd.phase = .probation ∧ t.upd.probFrom = opCycles s ∧
        t.upd.partnerConfirmed = false ∧ (restarts s = false → t.cp.down = true) ∧
        (restarts s = true → s.sys.pendReset = none → t.sys.pendReset = some 6 ∧ t.mem = s.mem)) ∧
    (u.phase = .probation →
      (let confirms := fun (i : Instr) (parts : BitVec 6) =>
         let x := { s with upd := { u with confirmed := parts } }
         (updConfirmed x = false → exec i s = .next x) ∧
         (updConfirmed x = true → ∃ t, exec i s = .next t ∧ t.upd.phase = .idle ∧ t.upd.confSeq = u.seq ∧
           t.upd.result = 17 ∧ t.upd.man = none ∧ t.mem = s.mem)
       (cpRuns s = true → confirms .confirm (u.confirmed ||| vendorParts s)) ∧
       (cpRuns s = true → s.cp.oemValid = true → s.cp.oemStopped = false → confirms .oemConfirm (u.confirmed ||| 2)) ∧
       (rowMay s (.updConfirm 0xC35A) = true → confirms (.updConfirm 0xC35A) 0x3F)) ∧
      (let falls := fun (i : Instr) (r : Byte) => ∃ t, exec i s = .next t ∧ t.upd.phase = .fallingBack ∧ t.upd.result = r ∧
         t.upd.fallNs = s.time.ns ∧ (493 : BitVec 10) ∈ t.ev.pend ∧ t.mem = s.mem
       (alive s = true → confirmLeft s = 0 → falls .confirmTimeout 18) ∧
       (rowMay s (.updFallback 0xC35A) = true → falls (.updFallback 0xC35A) 19))) ∧
    (u.phase = .fallingBack → tickRuns s = true → u.fallNs < s.tick.t0 → s.sys.pendReset = none →
      ∃ t, exec .fallback s = .next t ∧ t.upd.phase = .idle ∧ t.upd.result = u.result ∧ t.upd.man = none ∧
        t.sys.pendReset = some 7 ∧ t.mem = s.mem) ∧
    (rowMay s (.updCancel 0xC35A) = true → u.phase = .armed → u.decided = false → ∃ t, exec (.updCancel 0xC35A) s = .next t ∧ t.upd.phase = .staged ∧
      t.upd.result = 16 ∧ t.upd.man = u.man ∧ t.mem = s.mem) ∧
    (rowMay s (.updDiscard 0xC35A) = true → u.phase ≠ .probation → u.phase ≠ .fallingBack → ∃ t, exec (.updDiscard 0xC35A) s = .next t ∧
      t.upd.phase = .idle ∧ t.upd.man = none ∧ t.upd.chunks = [] ∧ t.upd.verified = 0 ∧ t.mem = s.mem)

/-- The Graduation monitor (R369-R380): the actions of R371 on the worst slack, the canary's urgent and fatal slacks, month records,
derating that only ever falls, and the periodic measurements with the reasons that they raise; that a period counts from the last
measurement, and the first is not held back, is the model's choice (log 100). -/
def Obligations.GraduationMonitor : Prop :=
  ∀ s : State, grdRuns s = true →
    let c := s.grd.code
    let f := s.le.mhz
    let w := s.grd.worst
    (s.grd.evalCyc + 120000000000 ≤ s.time.cyc → ∃ t, exec .grdEvaluation s = .next t ∧ t.grd.worst = 0xFF ∧
      t.grd.evalCyc = s.time.cyc ∧ t.le.mhz = s.le.mhz ∧ t.mem = s.mem ∧
      (w < 8 → c < 21 → t.grd.code = c + 1 ∧ t.grd.codePend = none) ∧
      (w < 8 → c = 21 → 360 < f → t.grd.clockPend = some (f - 5) ∧
        (s.grd.clockPend ≠ some (f - 5) → (490 : BitVec 10) ∈ t.ev.pend)) ∧
      (16 ≤ w → f < 400 → c ≤ 19 → t.grd.clockPend = some (f + 5) ∧
        (s.grd.clockPend ≠ some (f + 5) → (490 : BitVec 10) ∈ t.ev.pend)) ∧
      (16 ≤ w → 400 ≤ f → s.fixed.codeMin < c → t.grd.codePend = some (c - 1)) ∧
      (8 ≤ w → w < 16 → t.grd.code = s.grd.code ∧ t.grd.codePend = s.grd.codePend ∧
        t.grd.clockPend = s.grd.clockPend)) ∧
    (∀ (k : Byte) can,
      (4 ≤ k.toNat → ∃ t, exec (.canaryUrgent k can) s = .next t ∧ t.grd.worst = min w k.toNat ∧
        t.grd.code = s.grd.code ∧ t.mem = s.mem) ∧
      (k.toNat < 2 → c = 21 → f = 360 → ∃ t, exec (.canaryUrgent k can) s = .next t ∧ fatalOutcome s t 490 0x25 2) ∧
      (k.toNat < 4 → (c ≠ 21 ∨ f ≠ 360) → grdMayAct s = true → s.grd.urgentTick ≠ some s.tick.num →
        ∃ t, exec (.canaryUrgent k can) s = .next t ∧ t.grd.urgentSeen = true ∧ t.grd.urgentTick = some s.tick.num ∧
          (c < 21 → t.grd.code = c + 1) ∧ (c = 21 → 360 < f → t.grd.clockPend = some (f - 5)) ∧ t.mem = s.mem) ∧
      (2 ≤ k.toNat → grdMayAct s = false → ∃ t, exec (.canaryUrgent k can) s = .next t ∧ t.grd.urgentSeen = s.grd.urgentSeen ∧
        t.grd.code = s.grd.code ∧ t.mem = s.mem)) ∧
    (s.grd.monthMin + 43200 ≤ s.btn.opMin.toNat → ∃ t m, exec .monthRecord s = .next t ∧
      t.grd.monthNo = s.grd.monthNo + 1 ∧ t.grd.months.getLast? = some m ∧ m.code = max s.grd.monthCode s.grd.code ∧
      m.slack = min s.grd.monthSlack w ∧ t.grd.months.length ≤ 24 ∧ t.grd.horizon ≤ 4095 ∧ t.mem = s.mem) ∧
    (∀ temp, sensorDue 1 86400 s = true → ∃ t, exec (.derate temp) s = .next t ∧ t.mem = s.mem ∧ (tablesOk s = true → ∀ g < nGroups s,
      (gr t g).deratedNew ≤ (gr s g).deratedNew ∧ (gr t g).derated = (gr s g).derated)) ∧
    (∀ (n : BitVec 8) mv, n.toNat < nCh s → sensorDue (8 + n.toNat) 3600 s = true → ∃ t, exec (.refDrift n mv) s = .next t ∧ t.mem = s.mem ∧
      t.grd.chDrift = mput (fun _ => 0) s.grd.chDrift n.toNat mv ∧
      (tablesOk s = true → (ch t n.toNat).calDue = ((ch s n.toNat).calDue || decide (100 < mv.natAbs)))) ∧
    (∀ weak, s.nv.mounted = true → s.nv.test = true →
      (mget (fun _ => none) s.grd.taken 4 = none ∨
        ∃ m, mget (fun _ => none) s.grd.taken 4 = some m ∧ m + 43200 ≤ s.btn.opMin.toNat) → ∃ t, exec (.flashMarginRead weak) s = .next t ∧ t.mem = s.mem ∧
      ∀ p ∈ weak, ∀ r, weakRec s p = some r → p.1 ∈ t.grd.wornSec ∧ r ∈ t.nv.moving) ∧
    (∀ mv : BitVec 16, sensorDue 2 86400 s = true → ∃ t, exec (.cellTest mv) s = .next t ∧ t.grd.cell = mv ∧ t.mem = s.mem ∧
      (mv.toNat < (if s.fixed.supercap then 2000 else 2700) → (490 : BitVec 10) ∈ t.ev.pend)) ∧
    (∀ temp : Int, 70 < temp → ∃ t, exec (.overtemp temp) s = .next t ∧ (490 : BitVec 10) ∈ t.ev.pend ∧ t.mem = s.mem) ∧
    (∀ l, sensorDue 0 3600 s = true → ∃ t, exec (.roMeasure l) s = .next t ∧ t.mem = s.mem ∧
      ∀ i < 8, mget (fun _ => (0 : BitVec 16)) t.grd.ro i = l.getD i 0) ∧
    (∀ ppb : Int, sensorDue 3 86400 s = true → ∃ t, exec (.tcxoDailyMean ppb) s = .next t ∧ t.grd.tcxo = ppb ∧ t.mem = s.mem ∧
      (1800 < ppb.natAbs → (490 : BitVec 10) ∈ t.ev.pend))

/-- The local panel (R384-R395): power on, passes, discharge and its end, rectangles, full refresh, the row scrub and blinking. -/
def Obligations.LocalPanel : Prop :=
  ∀ s : State,
    let p := s.pnl
    (pnlUp s = true → rowMay s .pwrOn = true → p.phase = .off → ∃ t, exec .pwrOn s = .next t ∧ t.pnl.phase = .rising ∧
      t.pnl.stopCyc = s.time.cyc ∧ (tablesOk s = true → force t aPNL = 1) ∧ t.mem = s.mem) ∧
    (hasPanel s = true → rowMay s .pwrOff = true → (p.phase = .rising ∨ p.phase = .on) → ∃ t, exec .pwrOff s = .next t ∧
      t.pnl.phase = .discharging ∧ t.pnl.queue = [] ∧ t.pnl.pass = false ∧ t.mem = s.mem) ∧
    (pnlUp s = true → p.phase = .on → ∃ t, exec .panelSupplyFault s = .next t ∧ t.pnl.fault = true ∧
      t.pnl.phase = .discharging ∧ t.pnl.queue = [] ∧ t.mem = s.mem) ∧
    (p.phase = .discharging → p.stopCyc + 1000000 ≤ s.time.cyc → ∃ t, exec .dischargeDone s = .next t ∧
      t.pnl.phase = .off ∧ (tablesOk s = true → force t aPNL = 0) ∧ t.mem = s.mem) ∧
    (rowMay s .flush = true → exec .flush s = .next { s with pnl := { p with queue := p.queue.filter (·.taken) } }) ∧
    (∀ v : Word, hasPanel s = true → rowMay s (.rectSubmit v) = true → v.getLsbD 0 = true →
      let r := regRect s (fld v 8 8)
      (p.phase ≠ .on → exec (.rectSubmit v) s = .next { s with pnl := { p with code := 3 } }) ∧
      (p.phase = .on → badRect r = true → exec (.rectSubmit v) s = .next { s with pnl := { p with code := 2 } }) ∧
      (p.phase = .on → badRect r = false → 8 ≤ p.queue.length →
        exec (.rectSubmit v) s = .next { s with pnl := { p with code := 1 } }) ∧
      (p.phase = .on → badRect r = false → p.queue.length < 8 →
        exec (.rectSubmit v) s = .next { s with pnl := { p with code := 0, queue := p.queue ++ [r] } })) ∧
    (pnlUp s = true →
      (p.pass = false → passDue s = true → ∃ t, exec .passStart s = .next t ∧ t.pnl.pass = true ∧
        t.pnl.passCyc = s.time.cyc ∧ (p.phase = .rising → t.pnl.passRows = List.range 160) ∧
        t.pnl.passDone = 0 ∧ t.pnl.vcom = force s (aPNL + 0xC) ∧ t.pnl.scrubRows = [] ∧ t.pnl.blinkRows = [] ∧
        t.pnl.passScrub = p.scrubRows ∧ t.pnl.passBlink = blinkNow s ∧ t.pnl.scrubbed = p.scrubbed ∧
        t.mem = s.mem) ∧
      (p.pass = true → p.passCyc + passLen s ≤ s.time.cyc → ∃ t, exec .passEnd s = .next t ∧ t.pnl.pass = false ∧
        t.pnl.passes = min 65535 (p.passes + 1) ∧
        (p.queue.any (·.taken) = false → t.pnl.queue = p.queue) ∧
        t.pnl.queue.map (·.tag) = (p.queue.filter (fun r => !r.taken)).map (·.tag) ∧ (p.phase = .rising → t.pnl.phase = .on) ∧ t.mem = s.mem) ∧
      (∃ t, exec .blinkPhase s = .next t ∧ t.pnl.blinkOff = blinkNow s ∧ t.pnl.queue = p.queue ∧ t.mem = s.mem) ∧
      (p.phase = .on →
        (p.passMode = true → p.fullDue = false → p.fullCyc + 200 * (1000000 / max 1 p.rate) ≤ s.time.cyc →
          exec .fullRefresh s = .next { s with pnl := { p with fullDue := true } }) ∧
        (∀ y < 160, p.passMode = false → rowWaits s y = false → 200000000 ≤ rowAge s y →
          ∃ t, exec .rowScrub s = .next t ∧ y ∈ t.pnl.scrubRows ∧ t.mem = s.mem ∧
            ∀ z < 160, rowWaits s z = false → 150000000 ≤ rowAge s z → z ∈ t.pnl.scrubRows)))

/-! ### What a command leaves -/

/-- No command changes the queue of waiting commands or what is fixed at manufacture, and the words of Q, M and T change by no
command but those that store them: LE instructions, the monitor's and the data window's writes, a register write into that window,
the copy engine (Harvest, migration, starts, updates), the commit's write-back for absent units, and resets (R5, R26). -/
def Obligations.CommandFrame : Prop :=
  (∀ (i : Instr) (s t : State), exec i s = .next t → t.pending = s.pending ∧ t.fixed = s.fixed) ∧
  (∀ (i : Instr) (s t : State), storesWords i = false → exec i s = .next t → t.mem.words = s.mem.words)
end

