-- ==== Sys2Proof/Laws/SMap.lean ====
section
/-! SUPPORT. The laws of sparse tables: a read after a write, and the canonical form. -/

namespace Sys2Proof.Machine

variable {α : Type} [DecidableEq α] (d : Nat → α)

/-- A canonical table that starts at a later key is one that starts earlier. -/
theorem mwfFrom_mono {m : SMap α} {a b : Nat} (hab : a ≤ b) (h : mwfFrom d b m = true) : mwfFrom d a m = true := by
  cases m with
  | nil => rfl
  | cons p m => simp only [mwfFrom, Bool.and_eq_true, decide_eq_true_eq] at h ⊢; exact ⟨⟨by omega, h.1.2⟩, h.2⟩

/-- A key below the first key of a canonical table reads as the default. -/
theorem mget_below {m : SMap α} {b k : Nat} (h : mwfFrom d b m = true) (hk : k < b) : mget d m k = d k := by
  induction m generalizing b with
  | nil => rfl
  | cons p m ih =>
    simp only [mwfFrom, Bool.and_eq_true, decide_eq_true_eq] at h
    have : p.1 ≠ k := by omega
    simp only [mget, this, if_false]
    exact ih h.2 (by omega)

/-- A write keeps the canonical form. -/
theorem mwfFrom_mput {m : SMap α} {b k : Nat} {v : α} (h : mwfFrom d b m = true) (hk : b ≤ k) :
    mwfFrom d b (mput d m k v) = true := by
  induction m generalizing b with
  | nil => by_cases hv : v = d k <;> simp [mput, mwfFrom, hv, hk]
  | cons p m ih =>
    have h' := h
    simp only [mwfFrom, Bool.and_eq_true, decide_eq_true_eq] at h'
    unfold mput
    split
    · split
      · exact h
      · simp only [mwfFrom, Bool.and_eq_true, decide_eq_true_eq]; exact ⟨⟨hk, by assumption⟩, ⟨⟨by omega, h'.1.2⟩, h'.2⟩⟩
    · split
      · rename_i he; subst he
        split
        · exact mwfFrom_mono d (by omega) h'.2
        · simp only [mwfFrom, Bool.and_eq_true, decide_eq_true_eq]; exact ⟨⟨hk, by assumption⟩, h'.2⟩
      · simp only [mwfFrom, Bool.and_eq_true, decide_eq_true_eq]
        exact ⟨h'.1, ih h'.2 (by omega)⟩

/-- A write keeps the canonical form. -/
theorem mwf_mput {m : SMap α} (k : Nat) (v : α) (h : mwf d m = true) : mwf d (mput d m k v) = true :=
  mwfFrom_mput d h (Nat.zero_le k)

/-- An update keeps the canonical form. -/
theorem mwf_mupd {m : SMap α} (k : Nat) (f : α → α) (h : mwf d m = true) : mwf d (mupd d m k f) = true :=
  mwf_mput d k _ h

/-- Writes from a list keep the canonical form. -/
theorem mwf_mputs {m : SMap α} (l : List (Nat × α)) (h : mwf d m = true) : mwf d (mputs d m l) = true := by
  unfold mputs
  induction l generalizing m with
  | nil => exact h
  | cons p l ih => exact ih (mwf_mput d p.1 p.2 h)

/-- Leaving entries out keeps the canonical form. -/
theorem mwfFrom_filter {m : SMap α} {b : Nat} (q : Nat × α → Bool) (h : mwfFrom d b m = true) :
    mwfFrom d b (m.filter q) = true := by
  induction m generalizing b with
  | nil => rfl
  | cons p m ih =>
    have h' := h
    simp only [mwfFrom, Bool.and_eq_true, decide_eq_true_eq] at h'
    rw [List.filter_cons]
    split
    · simp only [mwfFrom, Bool.and_eq_true, decide_eq_true_eq]; exact ⟨h'.1, ih h'.2⟩
    · exact mwfFrom_mono d (by omega) (ih h'.2)

/-- Leaving entries out keeps the canonical form. -/
theorem mwf_filter {m : SMap α} (q : Nat × α → Bool) (h : mwf d m = true) : mwf d (m.filter q) = true :=
  mwfFrom_filter d q h

/-- A read after a write to the same key gives the value written. -/
theorem mget_mput_same {m : SMap α} {b k : Nat} {v : α} (h : mwfFrom d b m = true) : mget d (mput d m k v) k = v := by
  induction m generalizing b with
  | nil => by_cases hv : v = d k <;> simp [mput, mget, hv]
  | cons p m ih =>
    have h' := h
    simp only [mwfFrom, Bool.and_eq_true, decide_eq_true_eq] at h'
    unfold mput
    split
    · split
      · rename_i hlt hv
        rw [mget, if_neg (by omega), mget_below d h'.2 (by omega), hv]
      · simp [mget]
    · split
      · rename_i he; subst he
        split
        · rename_i hv; rw [mget_below d h'.2 (by omega), hv]
        · simp [mget]
      · rw [mget, if_neg (by omega)]; exact ih h'.2

/-- A write leaves every other key alone. -/
theorem mget_mput_other {m : SMap α} {k j : Nat} {v : α} (hj : j ≠ k) : mget d (mput d m k v) j = mget d m j := by
  induction m with
  | nil => by_cases hv : v = d k <;> simp [mput, mget, hv, Ne.symm hj]
  | cons p m ih =>
    unfold mput
    split
    · split
      · rfl
      · rw [mget, if_neg (Ne.symm hj)]
    · split
      · rename_i he; subst he
        split
        · rw [mget, if_neg (Ne.symm hj)]
        · rw [mget, if_neg (Ne.symm hj), mget, if_neg (Ne.symm hj)]
      · rw [mget]; split
        · rename_i hp; rw [mget, if_pos hp]
        · rename_i hp; rw [ih, mget, if_neg hp]

/-- A table made from a test of each key is canonical. -/
theorem mwf_mtab (n : Nat) (f : Nat → α) : mwf d (mtab d n f) = true := by
  have key : ∀ (l : List Nat) (b : Nat), (∀ k ∈ l, b ≤ k) → l.Pairwise (· < ·) →
      mwfFrom d b ((l.filter (fun k => decide (f k ≠ d k))).map (fun k => (k, f k))) = true := by
    intro l
    induction l with
    | nil => intros; rfl
    | cons k l ih =>
      intro b hb hp
      rw [List.pairwise_cons] at hp
      have hl := ih (k + 1) (fun j hj => hp.1 j hj) hp.2
      have hk := hb k (by simp)
      rw [List.filter_cons]
      split
      · rename_i hd
        simp only [List.map_cons, mwfFrom, Bool.and_eq_true, decide_eq_true_eq]
        exact ⟨⟨hk, by simpa using hd⟩, hl⟩
      · exact mwfFrom_mono d (by omega) hl
  exact key _ 0 (fun _ _ => Nat.zero_le _) List.pairwise_lt_range

/-- The second of two writes to one key is the one that stands. -/
theorem mput_mput {m : SMap α} {b k : Nat} {v w : α} (h : mwfFrom d b m = true) :
    mput d (mput d m k v) k w = mput d m k w := by
  induction m generalizing b with
  | nil => by_cases hv : v = d k <;> by_cases hw : w = d k <;> simp [mput, hv, hw]
  | cons p m ih =>
    simp only [mwfFrom, Bool.and_eq_true, decide_eq_true_eq] at h
    by_cases hlt : k < p.1
    · by_cases hv : v = d k <;> by_cases hw : w = d k <;> simp [mput, hlt, hv, hw]
    · by_cases he : k = p.1
      · by_cases hv : v = d k
        · have hm : mput d m k w = if w = d k then m else (k, w) :: m := by
            have hb : mwfFrom d (k+1) m = true := by rw [he]; exact h.2
            cases m with
            | nil => rfl
            | cons q m =>
              simp only [mwfFrom, Bool.and_eq_true, decide_eq_true_eq] at hb
              have : k < q.1 := by omega
              simp [mput, this]
          simp [mput, he] at *
          simp [hv, hm]
        · simp [mput, he] at *; simp [hv, mput]
      · simp [mput, hlt, he, ih h.2]

end Sys2Proof.Machine
end

