-- ==== Sys2Proof/Laws/State.lean ====
section
/-! SUPPORT. What the updates of one table leave unchanged: one lemma per field, true by unfolding. -/

namespace Sys2Proof.Machine

@[simp] theorem chPut_pending (s : State) (n : Nat) (c : ChanSt) : (chPut s n c).pending = s.pending := rfl
@[simp] theorem chPut_fixed (s : State) (n : Nat) (c : ChanSt) : (chPut s n c).fixed = s.fixed := rfl
@[simp] theorem chPut_regs (s : State) (n : Nat) (c : ChanSt) : (chPut s n c).regs = s.regs := rfl
@[simp] theorem chPut_le (s : State) (n : Nat) (c : ChanSt) : (chPut s n c).le = s.le := rfl
@[simp] theorem chPut_mem (s : State) (n : Nat) (c : ChanSt) : (chPut s n c).mem = s.mem := rfl
@[simp] theorem chPut_img (s : State) (n : Nat) (c : ChanSt) : (chPut s n c).img = s.img := rfl
@[simp] theorem chPut_tick (s : State) (n : Nat) (c : ChanSt) : (chPut s n c).tick = s.tick := rfl
@[simp] theorem chPut_edit (s : State) (n : Nat) (c : ChanSt) : (chPut s n c).edit = s.edit := rfl
@[simp] theorem chPut_mon (s : State) (n : Nat) (c : ChanSt) : (chPut s n c).mon = s.mon := rfl
@[simp] theorem chPut_rfx (s : State) (n : Nat) (c : ChanSt) : (chPut s n c).rfx = s.rfx := rfl
@[simp] theorem chPut_grp (s : State) (n : Nat) (c : ChanSt) : (chPut s n c).grp = s.grp := rfl
@[simp] theorem chPut_slc (s : State) (n : Nat) (c : ChanSt) : (chPut s n c).slc = s.slc := rfl
@[simp] theorem chPut_pair (s : State) (n : Nat) (c : ChanSt) : (chPut s n c).pair = s.pair := rfl
@[simp] theorem chPut_time (s : State) (n : Nat) (c : ChanSt) : (chPut s n c).time = s.time := rfl
@[simp] theorem chPut_bus (s : State) (n : Nat) (c : ChanSt) : (chPut s n c).bus = s.bus := rfl
@[simp] theorem chPut_node (s : State) (n : Nat) (c : ChanSt) : (chPut s n c).node = s.node := rfl
@[simp] theorem chPut_ev (s : State) (n : Nat) (c : ChanSt) : (chPut s n c).ev = s.ev := rfl
@[simp] theorem chPut_cp (s : State) (n : Nat) (c : ChanSt) : (chPut s n c).cp = s.cp := rfl
@[simp] theorem chPut_fcu (s : State) (n : Nat) (c : ChanSt) : (chPut s n c).fcu = s.fcu := rfl
@[simp] theorem chPut_prot (s : State) (n : Nat) (c : ChanSt) : (chPut s n c).prot = s.prot := rfl
@[simp] theorem chPut_wd (s : State) (n : Nat) (c : ChanSt) : (chPut s n c).wd = s.wd := rfl
@[simp] theorem chPut_nv (s : State) (n : Nat) (c : ChanSt) : (chPut s n c).nv = s.nv := rfl
@[simp] theorem chPut_btn (s : State) (n : Nat) (c : ChanSt) : (chPut s n c).btn = s.btn := rfl
@[simp] theorem chPut_sys (s : State) (n : Nat) (c : ChanSt) : (chPut s n c).sys = s.sys := rfl
@[simp] theorem chPut_upd (s : State) (n : Nat) (c : ChanSt) : (chPut s n c).upd = s.upd := rfl
@[simp] theorem chPut_grd (s : State) (n : Nat) (c : ChanSt) : (chPut s n c).grd = s.grd := rfl
@[simp] theorem chPut_pnl (s : State) (n : Nat) (c : ChanSt) : (chPut s n c).pnl = s.pnl := rfl

@[simp] theorem grPut_pending (s : State) (g : Nat) (c : GrpSt) : (grPut s g c).pending = s.pending := rfl
@[simp] theorem grPut_fixed (s : State) (g : Nat) (c : GrpSt) : (grPut s g c).fixed = s.fixed := rfl
@[simp] theorem grPut_regs (s : State) (g : Nat) (c : GrpSt) : (grPut s g c).regs = s.regs := rfl
@[simp] theorem grPut_le (s : State) (g : Nat) (c : GrpSt) : (grPut s g c).le = s.le := rfl
@[simp] theorem grPut_mem (s : State) (g : Nat) (c : GrpSt) : (grPut s g c).mem = s.mem := rfl
@[simp] theorem grPut_img (s : State) (g : Nat) (c : GrpSt) : (grPut s g c).img = s.img := rfl
@[simp] theorem grPut_tick (s : State) (g : Nat) (c : GrpSt) : (grPut s g c).tick = s.tick := rfl
@[simp] theorem grPut_edit (s : State) (g : Nat) (c : GrpSt) : (grPut s g c).edit = s.edit := rfl
@[simp] theorem grPut_mon (s : State) (g : Nat) (c : GrpSt) : (grPut s g c).mon = s.mon := rfl
@[simp] theorem grPut_rfx (s : State) (g : Nat) (c : GrpSt) : (grPut s g c).rfx = s.rfx := rfl
@[simp] theorem grPut_chan (s : State) (g : Nat) (c : GrpSt) : (grPut s g c).chan = s.chan := rfl
@[simp] theorem grPut_slc (s : State) (g : Nat) (c : GrpSt) : (grPut s g c).slc = s.slc := rfl
@[simp] theorem grPut_pair (s : State) (g : Nat) (c : GrpSt) : (grPut s g c).pair = s.pair := rfl
@[simp] theorem grPut_time (s : State) (g : Nat) (c : GrpSt) : (grPut s g c).time = s.time := rfl
@[simp] theorem grPut_bus (s : State) (g : Nat) (c : GrpSt) : (grPut s g c).bus = s.bus := rfl
@[simp] theorem grPut_node (s : State) (g : Nat) (c : GrpSt) : (grPut s g c).node = s.node := rfl
@[simp] theorem grPut_ev (s : State) (g : Nat) (c : GrpSt) : (grPut s g c).ev = s.ev := rfl
@[simp] theorem grPut_cp (s : State) (g : Nat) (c : GrpSt) : (grPut s g c).cp = s.cp := rfl
@[simp] theorem grPut_fcu (s : State) (g : Nat) (c : GrpSt) : (grPut s g c).fcu = s.fcu := rfl
@[simp] theorem grPut_prot (s : State) (g : Nat) (c : GrpSt) : (grPut s g c).prot = s.prot := rfl
@[simp] theorem grPut_wd (s : State) (g : Nat) (c : GrpSt) : (grPut s g c).wd = s.wd := rfl
@[simp] theorem grPut_nv (s : State) (g : Nat) (c : GrpSt) : (grPut s g c).nv = s.nv := rfl
@[simp] theorem grPut_btn (s : State) (g : Nat) (c : GrpSt) : (grPut s g c).btn = s.btn := rfl
@[simp] theorem grPut_sys (s : State) (g : Nat) (c : GrpSt) : (grPut s g c).sys = s.sys := rfl
@[simp] theorem grPut_upd (s : State) (g : Nat) (c : GrpSt) : (grPut s g c).upd = s.upd := rfl
@[simp] theorem grPut_grd (s : State) (g : Nat) (c : GrpSt) : (grPut s g c).grd = s.grd := rfl
@[simp] theorem grPut_pnl (s : State) (g : Nat) (c : GrpSt) : (grPut s g c).pnl = s.pnl := rfl

@[simp] theorem sgPut_pending (s : State) (g : Nat) (c : SlcGrp) : (sgPut s g c).pending = s.pending := rfl
@[simp] theorem sgPut_fixed (s : State) (g : Nat) (c : SlcGrp) : (sgPut s g c).fixed = s.fixed := rfl
@[simp] theorem sgPut_regs (s : State) (g : Nat) (c : SlcGrp) : (sgPut s g c).regs = s.regs := rfl
@[simp] theorem sgPut_le (s : State) (g : Nat) (c : SlcGrp) : (sgPut s g c).le = s.le := rfl
@[simp] theorem sgPut_mem (s : State) (g : Nat) (c : SlcGrp) : (sgPut s g c).mem = s.mem := rfl
@[simp] theorem sgPut_img (s : State) (g : Nat) (c : SlcGrp) : (sgPut s g c).img = s.img := rfl
@[simp] theorem sgPut_tick (s : State) (g : Nat) (c : SlcGrp) : (sgPut s g c).tick = s.tick := rfl
@[simp] theorem sgPut_edit (s : State) (g : Nat) (c : SlcGrp) : (sgPut s g c).edit = s.edit := rfl
@[simp] theorem sgPut_mon (s : State) (g : Nat) (c : SlcGrp) : (sgPut s g c).mon = s.mon := rfl
@[simp] theorem sgPut_rfx (s : State) (g : Nat) (c : SlcGrp) : (sgPut s g c).rfx = s.rfx := rfl
@[simp] theorem sgPut_chan (s : State) (g : Nat) (c : SlcGrp) : (sgPut s g c).chan = s.chan := rfl
@[simp] theorem sgPut_grp (s : State) (g : Nat) (c : SlcGrp) : (sgPut s g c).grp = s.grp := rfl
@[simp] theorem sgPut_pair (s : State) (g : Nat) (c : SlcGrp) : (sgPut s g c).pair = s.pair := rfl
@[simp] theorem sgPut_time (s : State) (g : Nat) (c : SlcGrp) : (sgPut s g c).time = s.time := rfl
@[simp] theorem sgPut_bus (s : State) (g : Nat) (c : SlcGrp) : (sgPut s g c).bus = s.bus := rfl
@[simp] theorem sgPut_node (s : State) (g : Nat) (c : SlcGrp) : (sgPut s g c).node = s.node := rfl
@[simp] theorem sgPut_ev (s : State) (g : Nat) (c : SlcGrp) : (sgPut s g c).ev = s.ev := rfl
@[simp] theorem sgPut_cp (s : State) (g : Nat) (c : SlcGrp) : (sgPut s g c).cp = s.cp := rfl
@[simp] theorem sgPut_fcu (s : State) (g : Nat) (c : SlcGrp) : (sgPut s g c).fcu = s.fcu := rfl
@[simp] theorem sgPut_prot (s : State) (g : Nat) (c : SlcGrp) : (sgPut s g c).prot = s.prot := rfl
@[simp] theorem sgPut_wd (s : State) (g : Nat) (c : SlcGrp) : (sgPut s g c).wd = s.wd := rfl
@[simp] theorem sgPut_nv (s : State) (g : Nat) (c : SlcGrp) : (sgPut s g c).nv = s.nv := rfl
@[simp] theorem sgPut_btn (s : State) (g : Nat) (c : SlcGrp) : (sgPut s g c).btn = s.btn := rfl
@[simp] theorem sgPut_sys (s : State) (g : Nat) (c : SlcGrp) : (sgPut s g c).sys = s.sys := rfl
@[simp] theorem sgPut_upd (s : State) (g : Nat) (c : SlcGrp) : (sgPut s g c).upd = s.upd := rfl
@[simp] theorem sgPut_grd (s : State) (g : Nat) (c : SlcGrp) : (sgPut s g c).grd = s.grd := rfl
@[simp] theorem sgPut_pnl (s : State) (g : Nat) (c : SlcGrp) : (sgPut s g c).pnl = s.pnl := rfl

@[simp] theorem buPut_pending (s : State) (b : Nat) (c : BusSt) : (buPut s b c).pending = s.pending := rfl
@[simp] theorem buPut_fixed (s : State) (b : Nat) (c : BusSt) : (buPut s b c).fixed = s.fixed := rfl
@[simp] theorem buPut_regs (s : State) (b : Nat) (c : BusSt) : (buPut s b c).regs = s.regs := rfl
@[simp] theorem buPut_le (s : State) (b : Nat) (c : BusSt) : (buPut s b c).le = s.le := rfl
@[simp] theorem buPut_mem (s : State) (b : Nat) (c : BusSt) : (buPut s b c).mem = s.mem := rfl
@[simp] theorem buPut_img (s : State) (b : Nat) (c : BusSt) : (buPut s b c).img = s.img := rfl
@[simp] theorem buPut_tick (s : State) (b : Nat) (c : BusSt) : (buPut s b c).tick = s.tick := rfl
@[simp] theorem buPut_edit (s : State) (b : Nat) (c : BusSt) : (buPut s b c).edit = s.edit := rfl
@[simp] theorem buPut_mon (s : State) (b : Nat) (c : BusSt) : (buPut s b c).mon = s.mon := rfl
@[simp] theorem buPut_rfx (s : State) (b : Nat) (c : BusSt) : (buPut s b c).rfx = s.rfx := rfl
@[simp] theorem buPut_chan (s : State) (b : Nat) (c : BusSt) : (buPut s b c).chan = s.chan := rfl
@[simp] theorem buPut_grp (s : State) (b : Nat) (c : BusSt) : (buPut s b c).grp = s.grp := rfl
@[simp] theorem buPut_slc (s : State) (b : Nat) (c : BusSt) : (buPut s b c).slc = s.slc := rfl
@[simp] theorem buPut_pair (s : State) (b : Nat) (c : BusSt) : (buPut s b c).pair = s.pair := rfl
@[simp] theorem buPut_time (s : State) (b : Nat) (c : BusSt) : (buPut s b c).time = s.time := rfl
@[simp] theorem buPut_node (s : State) (b : Nat) (c : BusSt) : (buPut s b c).node = s.node := rfl
@[simp] theorem buPut_ev (s : State) (b : Nat) (c : BusSt) : (buPut s b c).ev = s.ev := rfl
@[simp] theorem buPut_cp (s : State) (b : Nat) (c : BusSt) : (buPut s b c).cp = s.cp := rfl
@[simp] theorem buPut_fcu (s : State) (b : Nat) (c : BusSt) : (buPut s b c).fcu = s.fcu := rfl
@[simp] theorem buPut_prot (s : State) (b : Nat) (c : BusSt) : (buPut s b c).prot = s.prot := rfl
@[simp] theorem buPut_wd (s : State) (b : Nat) (c : BusSt) : (buPut s b c).wd = s.wd := rfl
@[simp] theorem buPut_nv (s : State) (b : Nat) (c : BusSt) : (buPut s b c).nv = s.nv := rfl
@[simp] theorem buPut_btn (s : State) (b : Nat) (c : BusSt) : (buPut s b c).btn = s.btn := rfl
@[simp] theorem buPut_sys (s : State) (b : Nat) (c : BusSt) : (buPut s b c).sys = s.sys := rfl
@[simp] theorem buPut_upd (s : State) (b : Nat) (c : BusSt) : (buPut s b c).upd = s.upd := rfl
@[simp] theorem buPut_grd (s : State) (b : Nat) (c : BusSt) : (buPut s b c).grd = s.grd := rfl
@[simp] theorem buPut_pnl (s : State) (b : Nat) (c : BusSt) : (buPut s b c).pnl = s.pnl := rfl

@[simp] theorem ndPut_pending (s : State) (k : Nat) (c : NodeSt) : (ndPut s k c).pending = s.pending := rfl
@[simp] theorem ndPut_fixed (s : State) (k : Nat) (c : NodeSt) : (ndPut s k c).fixed = s.fixed := rfl
@[simp] theorem ndPut_regs (s : State) (k : Nat) (c : NodeSt) : (ndPut s k c).regs = s.regs := rfl
@[simp] theorem ndPut_le (s : State) (k : Nat) (c : NodeSt) : (ndPut s k c).le = s.le := rfl
@[simp] theorem ndPut_mem (s : State) (k : Nat) (c : NodeSt) : (ndPut s k c).mem = s.mem := rfl
@[simp] theorem ndPut_img (s : State) (k : Nat) (c : NodeSt) : (ndPut s k c).img = s.img := rfl
@[simp] theorem ndPut_tick (s : State) (k : Nat) (c : NodeSt) : (ndPut s k c).tick = s.tick := rfl
@[simp] theorem ndPut_edit (s : State) (k : Nat) (c : NodeSt) : (ndPut s k c).edit = s.edit := rfl
@[simp] theorem ndPut_mon (s : State) (k : Nat) (c : NodeSt) : (ndPut s k c).mon = s.mon := rfl
@[simp] theorem ndPut_rfx (s : State) (k : Nat) (c : NodeSt) : (ndPut s k c).rfx = s.rfx := rfl
@[simp] theorem ndPut_chan (s : State) (k : Nat) (c : NodeSt) : (ndPut s k c).chan = s.chan := rfl
@[simp] theorem ndPut_grp (s : State) (k : Nat) (c : NodeSt) : (ndPut s k c).grp = s.grp := rfl
@[simp] theorem ndPut_slc (s : State) (k : Nat) (c : NodeSt) : (ndPut s k c).slc = s.slc := rfl
@[simp] theorem ndPut_pair (s : State) (k : Nat) (c : NodeSt) : (ndPut s k c).pair = s.pair := rfl
@[simp] theorem ndPut_time (s : State) (k : Nat) (c : NodeSt) : (ndPut s k c).time = s.time := rfl
@[simp] theorem ndPut_bus (s : State) (k : Nat) (c : NodeSt) : (ndPut s k c).bus = s.bus := rfl
@[simp] theorem ndPut_ev (s : State) (k : Nat) (c : NodeSt) : (ndPut s k c).ev = s.ev := rfl
@[simp] theorem ndPut_cp (s : State) (k : Nat) (c : NodeSt) : (ndPut s k c).cp = s.cp := rfl
@[simp] theorem ndPut_fcu (s : State) (k : Nat) (c : NodeSt) : (ndPut s k c).fcu = s.fcu := rfl
@[simp] theorem ndPut_prot (s : State) (k : Nat) (c : NodeSt) : (ndPut s k c).prot = s.prot := rfl
@[simp] theorem ndPut_wd (s : State) (k : Nat) (c : NodeSt) : (ndPut s k c).wd = s.wd := rfl
@[simp] theorem ndPut_nv (s : State) (k : Nat) (c : NodeSt) : (ndPut s k c).nv = s.nv := rfl
@[simp] theorem ndPut_btn (s : State) (k : Nat) (c : NodeSt) : (ndPut s k c).btn = s.btn := rfl
@[simp] theorem ndPut_sys (s : State) (k : Nat) (c : NodeSt) : (ndPut s k c).sys = s.sys := rfl
@[simp] theorem ndPut_upd (s : State) (k : Nat) (c : NodeSt) : (ndPut s k c).upd = s.upd := rfl
@[simp] theorem ndPut_grd (s : State) (k : Nat) (c : NodeSt) : (ndPut s k c).grd = s.grd := rfl
@[simp] theorem ndPut_pnl (s : State) (k : Nat) (c : NodeSt) : (ndPut s k c).pnl = s.pnl := rfl

@[simp] theorem fire_pending (src st : Nat) (s : State) : (fire src st s).pending = s.pending := rfl
@[simp] theorem fire_fixed (src st : Nat) (s : State) : (fire src st s).fixed = s.fixed := rfl
@[simp] theorem fire_regs (src st : Nat) (s : State) : (fire src st s).regs = s.regs := rfl
@[simp] theorem fire_le (src st : Nat) (s : State) : (fire src st s).le = s.le := rfl
@[simp] theorem fire_mem (src st : Nat) (s : State) : (fire src st s).mem = s.mem := rfl
@[simp] theorem fire_tick (src st : Nat) (s : State) : (fire src st s).tick = s.tick := rfl
@[simp] theorem fire_edit (src st : Nat) (s : State) : (fire src st s).edit = s.edit := rfl
@[simp] theorem fire_mon (src st : Nat) (s : State) : (fire src st s).mon = s.mon := rfl
@[simp] theorem fire_rfx (src st : Nat) (s : State) : (fire src st s).rfx = s.rfx := rfl
@[simp] theorem fire_chan (src st : Nat) (s : State) : (fire src st s).chan = s.chan := rfl
@[simp] theorem fire_grp (src st : Nat) (s : State) : (fire src st s).grp = s.grp := rfl
@[simp] theorem fire_slc (src st : Nat) (s : State) : (fire src st s).slc = s.slc := rfl
@[simp] theorem fire_pair (src st : Nat) (s : State) : (fire src st s).pair = s.pair := rfl
@[simp] theorem fire_time (src st : Nat) (s : State) : (fire src st s).time = s.time := rfl
@[simp] theorem fire_bus (src st : Nat) (s : State) : (fire src st s).bus = s.bus := rfl
@[simp] theorem fire_node (src st : Nat) (s : State) : (fire src st s).node = s.node := rfl
@[simp] theorem fire_cp (src st : Nat) (s : State) : (fire src st s).cp = s.cp := rfl
@[simp] theorem fire_fcu (src st : Nat) (s : State) : (fire src st s).fcu = s.fcu := rfl
@[simp] theorem fire_prot (src st : Nat) (s : State) : (fire src st s).prot = s.prot := rfl
@[simp] theorem fire_wd (src st : Nat) (s : State) : (fire src st s).wd = s.wd := rfl
@[simp] theorem fire_nv (src st : Nat) (s : State) : (fire src st s).nv = s.nv := rfl
@[simp] theorem fire_btn (src st : Nat) (s : State) : (fire src st s).btn = s.btn := rfl
@[simp] theorem fire_sys (src st : Nat) (s : State) : (fire src st s).sys = s.sys := rfl
@[simp] theorem fire_upd (src st : Nat) (s : State) : (fire src st s).upd = s.upd := rfl
@[simp] theorem fire_grd (src st : Nat) (s : State) : (fire src st s).grd = s.grd := rfl
@[simp] theorem fire_pnl (src st : Nat) (s : State) : (fire src st s).pnl = s.pnl := rfl

@[simp] theorem sendFrame_pending (p : LinkPayload) (s : State) : (sendFrame p s).pending = s.pending := rfl
@[simp] theorem sendFrame_fixed (p : LinkPayload) (s : State) : (sendFrame p s).fixed = s.fixed := rfl
@[simp] theorem sendFrame_regs (p : LinkPayload) (s : State) : (sendFrame p s).regs = s.regs := rfl
@[simp] theorem sendFrame_le (p : LinkPayload) (s : State) : (sendFrame p s).le = s.le := rfl
@[simp] theorem sendFrame_mem (p : LinkPayload) (s : State) : (sendFrame p s).mem = s.mem := rfl
@[simp] theorem sendFrame_img (p : LinkPayload) (s : State) : (sendFrame p s).img = s.img := rfl
@[simp] theorem sendFrame_tick (p : LinkPayload) (s : State) : (sendFrame p s).tick = s.tick := rfl
@[simp] theorem sendFrame_edit (p : LinkPayload) (s : State) : (sendFrame p s).edit = s.edit := rfl
@[simp] theorem sendFrame_mon (p : LinkPayload) (s : State) : (sendFrame p s).mon = s.mon := rfl
@[simp] theorem sendFrame_rfx (p : LinkPayload) (s : State) : (sendFrame p s).rfx = s.rfx := rfl
@[simp] theorem sendFrame_chan (p : LinkPayload) (s : State) : (sendFrame p s).chan = s.chan := rfl
@[simp] theorem sendFrame_grp (p : LinkPayload) (s : State) : (sendFrame p s).grp = s.grp := rfl
@[simp] theorem sendFrame_slc (p : LinkPayload) (s : State) : (sendFrame p s).slc = s.slc := rfl
@[simp] theorem sendFrame_time (p : LinkPayload) (s : State) : (sendFrame p s).time = s.time := rfl
@[simp] theorem sendFrame_bus (p : LinkPayload) (s : State) : (sendFrame p s).bus = s.bus := rfl
@[simp] theorem sendFrame_node (p : LinkPayload) (s : State) : (sendFrame p s).node = s.node := rfl
@[simp] theorem sendFrame_ev (p : LinkPayload) (s : State) : (sendFrame p s).ev = s.ev := rfl
@[simp] theorem sendFrame_cp (p : LinkPayload) (s : State) : (sendFrame p s).cp = s.cp := rfl
@[simp] theorem sendFrame_fcu (p : LinkPayload) (s : State) : (sendFrame p s).fcu = s.fcu := rfl
@[simp] theorem sendFrame_prot (p : LinkPayload) (s : State) : (sendFrame p s).prot = s.prot := rfl
@[simp] theorem sendFrame_wd (p : LinkPayload) (s : State) : (sendFrame p s).wd = s.wd := rfl
@[simp] theorem sendFrame_nv (p : LinkPayload) (s : State) : (sendFrame p s).nv = s.nv := rfl
@[simp] theorem sendFrame_btn (p : LinkPayload) (s : State) : (sendFrame p s).btn = s.btn := rfl
@[simp] theorem sendFrame_sys (p : LinkPayload) (s : State) : (sendFrame p s).sys = s.sys := rfl
@[simp] theorem sendFrame_upd (p : LinkPayload) (s : State) : (sendFrame p s).upd = s.upd := rfl
@[simp] theorem sendFrame_grd (p : LinkPayload) (s : State) : (sendFrame p s).grd = s.grd := rfl
@[simp] theorem sendFrame_pnl (p : LinkPayload) (s : State) : (sendFrame p s).pnl = s.pnl := rfl

@[simp] theorem sendLow_pending (j : LinkJob) (s : State) : (sendLow j s).pending = s.pending := rfl
@[simp] theorem sendLow_fixed (j : LinkJob) (s : State) : (sendLow j s).fixed = s.fixed := rfl
@[simp] theorem sendLow_regs (j : LinkJob) (s : State) : (sendLow j s).regs = s.regs := rfl
@[simp] theorem sendLow_le (j : LinkJob) (s : State) : (sendLow j s).le = s.le := rfl
@[simp] theorem sendLow_mem (j : LinkJob) (s : State) : (sendLow j s).mem = s.mem := rfl
@[simp] theorem sendLow_img (j : LinkJob) (s : State) : (sendLow j s).img = s.img := rfl
@[simp] theorem sendLow_tick (j : LinkJob) (s : State) : (sendLow j s).tick = s.tick := rfl
@[simp] theorem sendLow_edit (j : LinkJob) (s : State) : (sendLow j s).edit = s.edit := rfl
@[simp] theorem sendLow_mon (j : LinkJob) (s : State) : (sendLow j s).mon = s.mon := rfl
@[simp] theorem sendLow_rfx (j : LinkJob) (s : State) : (sendLow j s).rfx = s.rfx := rfl
@[simp] theorem sendLow_chan (j : LinkJob) (s : State) : (sendLow j s).chan = s.chan := rfl
@[simp] theorem sendLow_grp (j : LinkJob) (s : State) : (sendLow j s).grp = s.grp := rfl
@[simp] theorem sendLow_slc (j : LinkJob) (s : State) : (sendLow j s).slc = s.slc := rfl
@[simp] theorem sendLow_time (j : LinkJob) (s : State) : (sendLow j s).time = s.time := rfl
@[simp] theorem sendLow_bus (j : LinkJob) (s : State) : (sendLow j s).bus = s.bus := rfl
@[simp] theorem sendLow_node (j : LinkJob) (s : State) : (sendLow j s).node = s.node := rfl
@[simp] theorem sendLow_ev (j : LinkJob) (s : State) : (sendLow j s).ev = s.ev := rfl
@[simp] theorem sendLow_cp (j : LinkJob) (s : State) : (sendLow j s).cp = s.cp := rfl
@[simp] theorem sendLow_fcu (j : LinkJob) (s : State) : (sendLow j s).fcu = s.fcu := rfl
@[simp] theorem sendLow_prot (j : LinkJob) (s : State) : (sendLow j s).prot = s.prot := rfl
@[simp] theorem sendLow_wd (j : LinkJob) (s : State) : (sendLow j s).wd = s.wd := rfl
@[simp] theorem sendLow_nv (j : LinkJob) (s : State) : (sendLow j s).nv = s.nv := rfl
@[simp] theorem sendLow_btn (j : LinkJob) (s : State) : (sendLow j s).btn = s.btn := rfl
@[simp] theorem sendLow_sys (j : LinkJob) (s : State) : (sendLow j s).sys = s.sys := rfl
@[simp] theorem sendLow_upd (j : LinkJob) (s : State) : (sendLow j s).upd = s.upd := rfl
@[simp] theorem sendLow_grd (j : LinkJob) (s : State) : (sendLow j s).grd = s.grd := rfl
@[simp] theorem sendLow_pnl (j : LinkJob) (s : State) : (sendLow j s).pnl = s.pnl := rfl

end Sys2Proof.Machine
end

