-- ==== Sys2Proof/Laws/Ops.lean ====
section
/-! SUPPORT. What the shared operations can change. An operation that is named here leaves every field of the state
unchanged for which a lemma stands below. -/

namespace Sys2Proof.Machine

/-- A fold whose every step keeps a projection keeps it. -/
theorem foldl_keeps {α β γ : Type} (p : α → γ) (f : α → β → α) (h : ∀ a b, p (f a b) = p a) (l : List β) (a : α) :
    p (l.foldl f a) = p a := by
  induction l generalizing a with
  | nil => rfl
  | cons b l ih => simp [List.foldl, ih, h]

@[simp] theorem fireIf_pending (c : Bool) (src : Nat) (s : State) : (fireIf c src s).pending = s.pending := by unfold fireIf; split <;> simp
@[simp] theorem fireIf_fixed (c : Bool) (src : Nat) (s : State) : (fireIf c src s).fixed = s.fixed := by unfold fireIf; split <;> simp
@[simp] theorem fireIf_regs (c : Bool) (src : Nat) (s : State) : (fireIf c src s).regs = s.regs := by unfold fireIf; split <;> simp
@[simp] theorem fireIf_le (c : Bool) (src : Nat) (s : State) : (fireIf c src s).le = s.le := by unfold fireIf; split <;> simp
@[simp] theorem fireIf_mem (c : Bool) (src : Nat) (s : State) : (fireIf c src s).mem = s.mem := by unfold fireIf; split <;> simp
@[simp] theorem fireIf_tick (c : Bool) (src : Nat) (s : State) : (fireIf c src s).tick = s.tick := by unfold fireIf; split <;> simp
@[simp] theorem fireIf_time (c : Bool) (src : Nat) (s : State) : (fireIf c src s).time = s.time := by unfold fireIf; split <;> simp
@[simp] theorem fireIf_pair (c : Bool) (src : Nat) (s : State) : (fireIf c src s).pair = s.pair := by unfold fireIf; split <;> simp
@[simp] theorem fireIf_sys (c : Bool) (src : Nat) (s : State) : (fireIf c src s).sys = s.sys := by unfold fireIf; split <;> simp

@[simp] theorem nvEnqueue_pending (r : NvReq) (s : State) : (nvEnqueue r s).pending = s.pending := by unfold nvEnqueue; simp only; (repeat' split) <;> rfl
@[simp] theorem nvEnqueue_fixed (r : NvReq) (s : State) : (nvEnqueue r s).fixed = s.fixed := by unfold nvEnqueue; simp only; (repeat' split) <;> rfl
@[simp] theorem nvEnqueue_regs (r : NvReq) (s : State) : (nvEnqueue r s).regs = s.regs := by unfold nvEnqueue; simp only; (repeat' split) <;> rfl
@[simp] theorem nvEnqueue_le (r : NvReq) (s : State) : (nvEnqueue r s).le = s.le := by unfold nvEnqueue; simp only; (repeat' split) <;> rfl
@[simp] theorem nvEnqueue_mem (r : NvReq) (s : State) : (nvEnqueue r s).mem = s.mem := by unfold nvEnqueue; simp only; (repeat' split) <;> rfl
@[simp] theorem nvEnqueue_tick (r : NvReq) (s : State) : (nvEnqueue r s).tick = s.tick := by unfold nvEnqueue; simp only; (repeat' split) <;> rfl
@[simp] theorem nvEnqueue_time (r : NvReq) (s : State) : (nvEnqueue r s).time = s.time := by unfold nvEnqueue; simp only; (repeat' split) <;> rfl
@[simp] theorem nvEnqueue_pair (r : NvReq) (s : State) : (nvEnqueue r s).pair = s.pair := by unfold nvEnqueue; simp only; (repeat' split) <;> rfl
@[simp] theorem nvEnqueue_sys (r : NvReq) (s : State) : (nvEnqueue r s).sys = s.sys := by unfold nvEnqueue; simp only; (repeat' split) <;> rfl

@[simp] theorem ringPut_pending (n : Notice) (s : State) : (ringPut n s).pending = s.pending := by unfold ringPut; simp only [fireIf_pending]; split <;> simp
@[simp] theorem ringPut_fixed (n : Notice) (s : State) : (ringPut n s).fixed = s.fixed := by unfold ringPut; simp only [fireIf_fixed]; split <;> simp
@[simp] theorem ringPut_regs (n : Notice) (s : State) : (ringPut n s).regs = s.regs := by unfold ringPut; simp only [fireIf_regs]; split <;> simp
@[simp] theorem ringPut_le (n : Notice) (s : State) : (ringPut n s).le = s.le := by unfold ringPut; simp only [fireIf_le]; split <;> simp
@[simp] theorem ringPut_mem (n : Notice) (s : State) : (ringPut n s).mem = s.mem := by unfold ringPut; simp only [fireIf_mem]; split <;> simp
@[simp] theorem ringPut_tick (n : Notice) (s : State) : (ringPut n s).tick = s.tick := by unfold ringPut; simp only [fireIf_tick]; split <;> simp
@[simp] theorem ringPut_time (n : Notice) (s : State) : (ringPut n s).time = s.time := by unfold ringPut; simp only [fireIf_time]; split <;> simp
@[simp] theorem ringPut_pair (n : Notice) (s : State) : (ringPut n s).pair = s.pair := by unfold ringPut; simp only [fireIf_pair]; split <;> simp
@[simp] theorem ringPut_sys (n : Notice) (s : State) : (ringPut n s).sys = s.sys := by unfold ringPut; simp only [fireIf_sys]; split <;> simp

@[simp] theorem notice_pending (kind src reason : Nat) (detail : Word) (s : State) : (notice kind src reason detail s).pending = s.pending := by unfold notice; simp only; split <;> simp
@[simp] theorem notice_fixed (kind src reason : Nat) (detail : Word) (s : State) : (notice kind src reason detail s).fixed = s.fixed := by unfold notice; simp only; split <;> simp
@[simp] theorem notice_regs (kind src reason : Nat) (detail : Word) (s : State) : (notice kind src reason detail s).regs = s.regs := by unfold notice; simp only; split <;> simp
@[simp] theorem notice_le (kind src reason : Nat) (detail : Word) (s : State) : (notice kind src reason detail s).le = s.le := by unfold notice; simp only; split <;> simp
@[simp] theorem notice_mem (kind src reason : Nat) (detail : Word) (s : State) : (notice kind src reason detail s).mem = s.mem := by unfold notice; simp only; split <;> simp
@[simp] theorem notice_tick (kind src reason : Nat) (detail : Word) (s : State) : (notice kind src reason detail s).tick = s.tick := by unfold notice; simp only; split <;> simp
@[simp] theorem notice_time (kind src reason : Nat) (detail : Word) (s : State) : (notice kind src reason detail s).time = s.time := by unfold notice; simp only; split <;> simp
@[simp] theorem notice_pair (kind src reason : Nat) (detail : Word) (s : State) : (notice kind src reason detail s).pair = s.pair := by unfold notice; simp only; split <;> simp
@[simp] theorem notice_sys (kind src reason : Nat) (detail : Word) (s : State) : (notice kind src reason detail s).sys = s.sys := by unfold notice; simp only; split <;> simp

@[simp] theorem noticeIf_pending (c : Bool) (kind src reason : Nat) (detail : Word) (s : State) : (noticeIf c kind src reason detail s).pending = s.pending := by unfold noticeIf; split <;> simp
@[simp] theorem noticeIf_fixed (c : Bool) (kind src reason : Nat) (detail : Word) (s : State) : (noticeIf c kind src reason detail s).fixed = s.fixed := by unfold noticeIf; split <;> simp
@[simp] theorem noticeIf_regs (c : Bool) (kind src reason : Nat) (detail : Word) (s : State) : (noticeIf c kind src reason detail s).regs = s.regs := by unfold noticeIf; split <;> simp
@[simp] theorem noticeIf_le (c : Bool) (kind src reason : Nat) (detail : Word) (s : State) : (noticeIf c kind src reason detail s).le = s.le := by unfold noticeIf; split <;> simp
@[simp] theorem noticeIf_mem (c : Bool) (kind src reason : Nat) (detail : Word) (s : State) : (noticeIf c kind src reason detail s).mem = s.mem := by unfold noticeIf; split <;> simp
@[simp] theorem noticeIf_tick (c : Bool) (kind src reason : Nat) (detail : Word) (s : State) : (noticeIf c kind src reason detail s).tick = s.tick := by unfold noticeIf; split <;> simp
@[simp] theorem noticeIf_time (c : Bool) (kind src reason : Nat) (detail : Word) (s : State) : (noticeIf c kind src reason detail s).time = s.time := by unfold noticeIf; split <;> simp
@[simp] theorem noticeIf_pair (c : Bool) (kind src reason : Nat) (detail : Word) (s : State) : (noticeIf c kind src reason detail s).pair = s.pair := by unfold noticeIf; split <;> simp
@[simp] theorem noticeIf_sys (c : Bool) (kind src reason : Nat) (detail : Word) (s : State) : (noticeIf c kind src reason detail s).sys = s.sys := by unfold noticeIf; split <;> simp

@[simp] theorem rfxReport_pending (s : State) (e : Nat) : (rfxReport s e).pending = s.pending := by unfold rfxReport; simp
@[simp] theorem rfxReport_fixed (s : State) (e : Nat) : (rfxReport s e).fixed = s.fixed := by unfold rfxReport; simp
@[simp] theorem rfxReport_regs (s : State) (e : Nat) : (rfxReport s e).regs = s.regs := by unfold rfxReport; simp
@[simp] theorem rfxReport_le (s : State) (e : Nat) : (rfxReport s e).le = s.le := by unfold rfxReport; simp
@[simp] theorem rfxReport_mem (s : State) (e : Nat) : (rfxReport s e).mem = s.mem := by unfold rfxReport; simp
@[simp] theorem rfxReport_tick (s : State) (e : Nat) : (rfxReport s e).tick = s.tick := by unfold rfxReport; simp
@[simp] theorem rfxReport_time (s : State) (e : Nat) : (rfxReport s e).time = s.time := by unfold rfxReport; simp
@[simp] theorem rfxReport_pair (s : State) (e : Nat) : (rfxReport s e).pair = s.pair := by unfold rfxReport; simp
@[simp] theorem rfxReport_sys (s : State) (e : Nat) : (rfxReport s e).sys = s.sys := by unfold rfxReport; simp

@[simp] theorem rfxEval_pending (s : State) : (rfxEval s).pending = s.pending := by unfold rfxEval; simp only; exact (foldl_keeps (fun a : State => a.pending) _ (fun a b => by simp) _ _)
@[simp] theorem rfxEval_fixed (s : State) : (rfxEval s).fixed = s.fixed := by unfold rfxEval; simp only; exact (foldl_keeps (fun a : State => a.fixed) _ (fun a b => by simp) _ _)
@[simp] theorem rfxEval_regs (s : State) : (rfxEval s).regs = s.regs := by unfold rfxEval; simp only; exact (foldl_keeps (fun a : State => a.regs) _ (fun a b => by simp) _ _)
@[simp] theorem rfxEval_le (s : State) : (rfxEval s).le = s.le := by unfold rfxEval; simp only; exact (foldl_keeps (fun a : State => a.le) _ (fun a b => by simp) _ _)
@[simp] theorem rfxEval_mem (s : State) : (rfxEval s).mem = s.mem := by unfold rfxEval; simp only; exact (foldl_keeps (fun a : State => a.mem) _ (fun a b => by simp) _ _)
@[simp] theorem rfxEval_tick (s : State) : (rfxEval s).tick = s.tick := by unfold rfxEval; simp only; exact (foldl_keeps (fun a : State => a.tick) _ (fun a b => by simp) _ _)
@[simp] theorem rfxEval_time (s : State) : (rfxEval s).time = s.time := by unfold rfxEval; simp only; exact (foldl_keeps (fun a : State => a.time) _ (fun a b => by simp) _ _)
@[simp] theorem rfxEval_pair (s : State) : (rfxEval s).pair = s.pair := by unfold rfxEval; simp only; exact (foldl_keeps (fun a : State => a.pair) _ (fun a b => by simp) _ _)
@[simp] theorem rfxEval_sys (s : State) : (rfxEval s).sys = s.sys := by unfold rfxEval; simp only; exact (foldl_keeps (fun a : State => a.sys) _ (fun a b => by simp) _ _)

@[simp] theorem chEdge_pending (n : Nat) (r : Bool) (ts : Nat) (s : State) : (chEdge n r ts s).pending = s.pending := by simp [chEdge, apply_ite State.pending]
@[simp] theorem chEdge_fixed (n : Nat) (r : Bool) (ts : Nat) (s : State) : (chEdge n r ts s).fixed = s.fixed := by simp [chEdge, apply_ite State.fixed]
@[simp] theorem chEdge_regs (n : Nat) (r : Bool) (ts : Nat) (s : State) : (chEdge n r ts s).regs = s.regs := by simp [chEdge, apply_ite State.regs]
@[simp] theorem chEdge_le (n : Nat) (r : Bool) (ts : Nat) (s : State) : (chEdge n r ts s).le = s.le := by simp [chEdge, apply_ite State.le]
@[simp] theorem chEdge_mem (n : Nat) (r : Bool) (ts : Nat) (s : State) : (chEdge n r ts s).mem = s.mem := by simp [chEdge, apply_ite State.mem]
@[simp] theorem chEdge_tick (n : Nat) (r : Bool) (ts : Nat) (s : State) : (chEdge n r ts s).tick = s.tick := by simp [chEdge, apply_ite State.tick]
@[simp] theorem chEdge_time (n : Nat) (r : Bool) (ts : Nat) (s : State) : (chEdge n r ts s).time = s.time := by simp [chEdge, apply_ite State.time]
@[simp] theorem chEdge_pair (n : Nat) (r : Bool) (ts : Nat) (s : State) : (chEdge n r ts s).pair = s.pair := by simp [chEdge, apply_ite State.pair]
@[simp] theorem chEdge_sys (n : Nat) (r : Bool) (ts : Nat) (s : State) : (chEdge n r ts s).sys = s.sys := by simp [chEdge, apply_ite State.sys]

@[simp] theorem driveCh_pending (s : State) (n : Nat) (v : Bool) : (driveCh s n v).pending = s.pending := by simp [driveCh, apply_ite State.pending]
@[simp] theorem driveCh_fixed (s : State) (n : Nat) (v : Bool) : (driveCh s n v).fixed = s.fixed := by simp [driveCh, apply_ite State.fixed]
@[simp] theorem driveCh_regs (s : State) (n : Nat) (v : Bool) : (driveCh s n v).regs = s.regs := by simp [driveCh, apply_ite State.regs]
@[simp] theorem driveCh_le (s : State) (n : Nat) (v : Bool) : (driveCh s n v).le = s.le := by simp [driveCh, apply_ite State.le]
@[simp] theorem driveCh_mem (s : State) (n : Nat) (v : Bool) : (driveCh s n v).mem = s.mem := by simp [driveCh, apply_ite State.mem]
@[simp] theorem driveCh_tick (s : State) (n : Nat) (v : Bool) : (driveCh s n v).tick = s.tick := by simp [driveCh, apply_ite State.tick]
@[simp] theorem driveCh_time (s : State) (n : Nat) (v : Bool) : (driveCh s n v).time = s.time := by simp [driveCh, apply_ite State.time]
@[simp] theorem driveCh_pair (s : State) (n : Nat) (v : Bool) : (driveCh s n v).pair = s.pair := by simp [driveCh, apply_ite State.pair]
@[simp] theorem driveCh_sys (s : State) (n : Nat) (v : Bool) : (driveCh s n v).sys = s.sys := by simp [driveCh, apply_ite State.sys]

@[simp] theorem driveAll_pending (s : State) : (driveAll s).pending = s.pending := by unfold driveAll; simp only; exact (foldl_keeps (fun a : State => a.pending) _ (fun a b => by simp [apply_ite State.pending]) _ _)
@[simp] theorem driveAll_fixed (s : State) : (driveAll s).fixed = s.fixed := by unfold driveAll; simp only; exact (foldl_keeps (fun a : State => a.fixed) _ (fun a b => by simp [apply_ite State.fixed]) _ _)
@[simp] theorem driveAll_regs (s : State) : (driveAll s).regs = s.regs := by unfold driveAll; simp only; exact (foldl_keeps (fun a : State => a.regs) _ (fun a b => by simp [apply_ite State.regs]) _ _)
@[simp] theorem driveAll_le (s : State) : (driveAll s).le = s.le := by unfold driveAll; simp only; exact (foldl_keeps (fun a : State => a.le) _ (fun a b => by simp [apply_ite State.le]) _ _)
@[simp] theorem driveAll_mem (s : State) : (driveAll s).mem = s.mem := by unfold driveAll; simp only; exact (foldl_keeps (fun a : State => a.mem) _ (fun a b => by simp [apply_ite State.mem]) _ _)
@[simp] theorem driveAll_tick (s : State) : (driveAll s).tick = s.tick := by unfold driveAll; simp only; exact (foldl_keeps (fun a : State => a.tick) _ (fun a b => by simp [apply_ite State.tick]) _ _)
@[simp] theorem driveAll_time (s : State) : (driveAll s).time = s.time := by unfold driveAll; simp only; exact (foldl_keeps (fun a : State => a.time) _ (fun a b => by simp [apply_ite State.time]) _ _)
@[simp] theorem driveAll_pair (s : State) : (driveAll s).pair = s.pair := by unfold driveAll; simp only; exact (foldl_keeps (fun a : State => a.pair) _ (fun a b => by simp [apply_ite State.pair]) _ _)
@[simp] theorem driveAll_sys (s : State) : (driveAll s).sys = s.sys := by unfold driveAll; simp only; exact (foldl_keeps (fun a : State => a.sys) _ (fun a b => by simp [apply_ite State.sys]) _ _)

@[simp] theorem currentReport_pending (s : State) : (currentReport s).pending = s.pending := by unfold currentReport; split <;> rfl
@[simp] theorem currentReport_fixed (s : State) : (currentReport s).fixed = s.fixed := by unfold currentReport; split <;> rfl
@[simp] theorem currentReport_regs (s : State) : (currentReport s).regs = s.regs := by unfold currentReport; split <;> rfl
@[simp] theorem currentReport_le (s : State) : (currentReport s).le = s.le := by unfold currentReport; split <;> rfl
@[simp] theorem currentReport_mem (s : State) : (currentReport s).mem = s.mem := by unfold currentReport; split <;> rfl
@[simp] theorem currentReport_tick (s : State) : (currentReport s).tick = s.tick := by unfold currentReport; split <;> rfl
@[simp] theorem currentReport_time (s : State) : (currentReport s).time = s.time := by unfold currentReport; split <;> rfl
@[simp] theorem currentReport_sys (s : State) : (currentReport s).sys = s.sys := by unfold currentReport; split <;> rfl

@[simp] theorem settle_pending (s : State) : (settle s).pending = s.pending := by unfold settle; simp
@[simp] theorem settle_fixed (s : State) : (settle s).fixed = s.fixed := by unfold settle; simp
@[simp] theorem settle_regs (s : State) : (settle s).regs = s.regs := by unfold settle; simp
@[simp] theorem settle_le (s : State) : (settle s).le = s.le := by unfold settle; simp
@[simp] theorem settle_mem (s : State) : (settle s).mem = s.mem := by unfold settle; simp
@[simp] theorem settle_tick (s : State) : (settle s).tick = s.tick := by unfold settle; simp
@[simp] theorem settle_time (s : State) : (settle s).time = s.time := by unfold settle; simp
@[simp] theorem settle_sys (s : State) : (settle s).sys = s.sys := by unfold settle; simp

/-! ### What a fault reaction, a give-up and a refused access leave in the data memory: all of it. -/

@[simp] theorem fcuRecord_mem (src reason cls : Nat) (s : State) : (fcuRecord src reason cls s).mem = s.mem := by
  unfold fcuRecord; simp
@[simp] theorem editCancel_mem (s : State) : (editCancel s).mem = s.mem := by unfold editCancel; simp
@[simp] theorem stopScan_mem (s : State) : (stopScan s).mem = s.mem := by unfold stopScan; simp
@[simp] theorem laneUse_mem (l : Bool) (p : LinkPayload) (s : State) : (laneUse l p s).mem = s.mem := by
  unfold laneUse lanePutL; split <;> rfl
@[simp] theorem sendOn_mem (ls : List Bool) (p : LinkPayload) (s : State) : (sendOn ls p s).mem = s.mem := by
  unfold sendOn; exact foldl_keeps (fun a : State => a.mem) _ (fun a l => by simp) _ _
@[simp] theorem setRole_mem (r : Role) (cause : Nat) (s : State) : (setRole r cause s).mem = s.mem := by
  unfold setRole; split <;> simp
@[simp] theorem enterShadow_mem (cause : Nat) (s : State) : (enterShadow cause s).mem = s.mem := by
  unfold enterShadow; simp
@[simp] theorem releaseCheck_mem (s : State) : (releaseCheck s).mem = s.mem := by
  unfold releaseCheck; simp only; (repeat' split) <;> simp
@[simp] theorem giveUpOp_mem (kind src reason : Nat) (s : State) : (giveUpOp kind src reason s).mem = s.mem := by
  unfold giveUpOp; simp
@[simp] theorem slcStartGrp_mem (cause : Nat) (u : Bool) (s : State) (g : Nat) : (slcStartGrp cause u s g).mem = s.mem := by
  unfold slcStartGrp; simp only; split <;> simp
@[simp] theorem slcTriggerAll_mem (cause : Nat) (s : State) : (slcTriggerAll cause s).mem = s.mem := by
  unfold slcTriggerAll
  exact (foldl_keeps (fun a : State => a.mem) _ (fun a g => by simp) _ _).trans (by simp [slcRecord])
@[simp] theorem fatalReact_mem (src reason cause : Nat) (s : State) : (fatalReact src reason cause s).mem = s.mem := by
  unfold fatalReact; simp only; split <;> simp
@[simp] theorem fatalFault_mem (src reason : Nat) (s : State) : (fatalFault src reason s).mem = s.mem := by
  unfold fatalFault; simp
@[simp] theorem containedFault_mem (src reason : Nat) (s : State) : (containedFault src reason s).mem = s.mem := by
  unfold containedFault; simp only; split <;> simp
@[simp] theorem freezeMaster_mem (m : Nat) (a : Word) (w : Bool) (s : State) : (freezeMaster m a w s).mem = s.mem := by
  unfold freezeMaster; simp only; split <;> simp
@[simp] theorem accessRefused_mem (m a : Nat) (wr : Bool) (s : State) : (accessRefused m a wr s).mem = s.mem := by
  unfold accessRefused; split <;> simp

end Sys2Proof.Machine
end

