-- ==== Sys2Proof/Laws/Memory.lean ====
section
/-! SUPPORT. Every operation that writes the data memory keeps its canonical form: addresses strictly rising and no entry
equal to what an unlisted word reads as. -/

namespace Sys2Proof.Machine

/-- Marking a block for Harvest leaves the memory alone. -/
@[simp] theorem harvestMark_mem (a : Nat) (old : DWord) (s : State) : (harvestMark a old s).mem = s.mem := by
  simp only [harvestMark]; split <;> rfl

/-- A write of one word with storage of its own keeps the canonical form. -/
theorem wf_putPlain {s : State} (a : Nat) (mask v : Word) (t : Tag)
    (h : mwf (fun _ => goodZero) s.mem.words = true) : mwf (fun _ => goodZero) (putPlain a mask v t s).mem.words = true := by
  unfold putPlain
  split
  · simpa using mwf_mput _ a _ h
  · split <;> exact h

/-- A fold of operations that keep the form keeps it. -/
theorem wf_foldl {β : Type} (f : State → β → State)
    (hf : ∀ s b, mwf (fun _ => goodZero) s.mem.words = true → mwf (fun _ => goodZero) (f s b).mem.words = true)
    (l : List β) {s : State} (h : mwf (fun _ => goodZero) s.mem.words = true) :
    mwf (fun _ => goodZero) (l.foldl f s).mem.words = true := by
  induction l generalizing s with
  | nil => exact h
  | cons b l ih => exact ih (hf s b h)

/-- A write under a mask keeps the canonical form (R26, R35). -/
theorem wf_writeBits {s : State} (a : Nat) (mask v : Word) (t : Tag)
    (h : mwf (fun _ => goodZero) s.mem.words = true) : mwf (fun _ => goodZero) (writeBits a mask v t s).mem.words = true := by
  unfold writeBits
  split
  · exact wf_foldl _ (fun s j hs => by split; exacts [wf_putPlain _ _ _ _ hs, hs]) _ h
  · exact wf_putPlain _ _ _ _ h

/-- A whole-word write keeps the canonical form. -/
theorem wf_writeWord {s : State} (a : Nat) (w : DWord)
    (h : mwf (fun _ => goodZero) s.mem.words = true) : mwf (fun _ => goodZero) (writeWord a w s).mem.words = true :=
  wf_writeBits a _ _ _ h

/-- A tag write keeps the canonical form (R35, R74). -/
theorem wf_writeTag {s : State} (a : Nat) (t : Tag)
    (h : mwf (fun _ => goodZero) s.mem.words = true) : mwf (fun _ => goodZero) (writeTag a t s).mem.words = true := by
  unfold writeTag
  split
  · exact wf_foldl _ (fun s j hs => wf_putPlain _ _ _ _ hs) _ h
  · exact wf_putPlain _ _ _ _ h

/-- The initial contents keep the canonical form (R348). -/
theorem wf_initWord {s : State} (p : Nat × DWord)
    (h : mwf (fun _ => goodZero) s.mem.words = true) : mwf (fun _ => goodZero) (initWord s p).mem.words = true := by
  unfold initWord
  split
  · exact mwf_mput _ _ _ h
  · split <;> exact h

/-- An image of a table under a map that keeps the keys, with the entries that became the default taken out. -/
theorem mwfFrom_map_filter {m : SMap DWord} {b : Nat} (f : Nat × DWord → Nat × DWord) (hf : ∀ p, (f p).1 = p.1)
    (h : mwfFrom (fun _ => goodZero) b m = true) :
    mwfFrom (fun _ => goodZero) b ((m.map f).filter (fun p => decide (p.2 ≠ goodZero))) = true := by
  induction m generalizing b with
  | nil => rfl
  | cons p m ih =>
    simp only [mwfFrom, Bool.and_eq_true, decide_eq_true_eq] at h
    by_cases hp : (f p).2 = goodZero
    · simpa [hp] using mwfFrom_mono _ (by omega : b ≤ p.1 + 1) (ih h.2)
    · simpa [hp, mwfFrom, hf, h.1.1] using ih h.2

/-- The clearing of the RUNIDs keeps the canonical form (R76). -/
theorem wf_clearRunids {s : State}
    (h : mwf (fun _ => goodZero) s.mem.words = true) : mwf (fun _ => goodZero) (clearRunids s).mem.words = true :=
by
  unfold clearRunids
  split
  · exact h
  · split
    · simpa using h
    · exact mwfFrom_map_filter _ (fun p => by split <;> rfl) h

/-- A block of an epoch keeps the canonical form (R207). -/
theorem wf_applyBlock {m : SMap DWord} (b : BitVec 21 × List DWord) (h : mwf (fun _ => goodZero) m = true) :
    mwf (fun _ => goodZero) (applyBlock m b) = true := by
  unfold applyBlock
  generalize List.range b.2.length = l
  induction l generalizing m with
  | nil => exact h
  | cons i l ih => refine ih ?_; dsimp only; split; exacts [mwf_mput _ _ _ h, h]

/-- The words of absent units keep the canonical form (R5). -/
theorem wf_absentBack {s : State}
    (h : mwf (fun _ => goodZero) s.mem.words = true) : mwf (fun _ => goodZero) (absentBack s).mem.words = true := by
  simp only [absentBack]
  generalize ((List.range 256).filter _).map _ ++ _ = l
  generalize s.mem.words = m at h
  induction l generalizing m with
  | nil => exact h
  | cons i l ih => exact ih _ (mwf_mput _ _ _ h)

/-- An erase of the record store that is cut short leaves the memory alone. -/
@[simp] theorem eraseCut_mem (s : State) : (eraseCut s).mem = s.mem := by unfold eraseCut; split <;> rfl

/-- What a module reset keeps of the memory is in the canonical form. -/
theorem wf_afterReset {s : State}
    (h : mwf (fun _ => goodZero) (finishRec s).mem.words = true) :
    mwf (fun _ => goodZero) (afterReset s).mem.words = true := mwf_filter _ _ (by simpa using h)

/-- A read of a word that was just written gives the written value under the mask, with the tag. -/
theorem plainWord_putPlain_same {s : State} {a : Nat} (ha : keptWord a = true) (mask v : Word) (t : Tag)
    (h : mwf (fun _ => goodZero) s.mem.words = true) :
    plainWord (putPlain a mask v t s) a = ⟨((plainWord s a).val &&& ~~~mask) ||| (v &&& mask), t⟩ := by
  simp only [putPlain, ha, if_true, plainWord, harvestMark_mem]
  exact mget_mput_same _ h

/-- A write leaves every other word alone. -/
theorem plainWord_putPlain_other {s : State} {a b : Nat} (hab : b ≠ a) (mask v : Word) (t : Tag) :
    keptWord b = true → plainWord (putPlain a mask v t s) b = plainWord s b := by
  intro hb
  unfold putPlain
  split
  · simp only [plainWord, hb, if_true, harvestMark_mem]; exact mget_mput_other _ hab
  · split <;> simp [plainWord, hb]

end Sys2Proof.Machine
end

