-- ==== Sys2Proof/Laws/Le.lean ====
section
/-! SUPPORT. What a bundle of one instruction does when it retires, and how lanes read back. -/

namespace Sys2Proof.Machine

/-- A bundle of one instruction, in lane order. -/
theorem byLane_single (e : LaneEff) : byLane [e] = [e] := by
  have h : e.lane.toNat < 4 := e.lane.isLt
  have : e.lane.toNat = 0 ∨ e.lane.toNat = 1 ∨ e.lane.toNat = 2 ∨ e.lane.toNat = 3 := by omega
  rcases this with h | h | h | h <;> simp [byLane, List.range_succ, List.range_zero, h]

/-- The traps of a bundle of one instruction. -/
theorem bundleTraps_single (e : LaneEff) : bundleTraps [e] = e.traps.map (fun r => (e.lane, r)) := by
  unfold bundleTraps
  cases h : e.isCtl <;> simp [h]

/-- A bundle without a system register write leaves the system registers alone (R85). -/
theorem applySys_none (s : State) (l : List LeWrite) (h : ∀ i v, LeWrite.sys i v ∉ l) : applySys l s = s := by
  have hl : ∀ idx, lastSys l idx = none := by
    intro idx
    unfold lastSys
    have : ∀ (l : List LeWrite) (r : Option Word), (∀ i v, LeWrite.sys i v ∉ l) →
      l.foldl (fun r x => match x with | .sys i v => if i.toNat = idx then some v else r | _ => r) r = r := by
      intro l
      induction l with
      | nil => intro r _; rfl
      | cons x l ih =>
        intro r h
        have h2 : ∀ i v, LeWrite.sys i v ∉ l := fun i v hm => h i v (List.mem_cons_of_mem _ hm)
        cases x <;> first | exact ih _ h2 | exact absurd (List.mem_cons_self ..) (h _ _)
    exact this l none h
  simp [applySys, hl]

/-- Station time of the retire of a bundle of one instruction that starts now (R84). -/
def retireNs (s : State) (e : LaneEff) : Nat :=
  s.time.ns + ((bundleCost s.le.scanCyc [e]).1 - s.le.scanCyc) * 1000 / s.le.mhz

/-- A bundle of one instruction that finds no trap, violation or memory fault and does not branch writes its results, and the next bundle follows (R49, R52). -/
theorem retire_single (s : State) (e : LaneEff) (hb : s.le.bundle = [e]) (hrun : s.le.running = true)
    (ht : e.traps = []) (hv : e.viols = []) (hf : e.memFaults = []) (hc : e.ctrl = none)
    (hs : ∀ i v, LeWrite.sys i v ∉ e.writes) (hr : (e.writes.foldl (applyWrite (retireNs s e)) s).le.running = true) :
    retire s = advanced (e.writes.foldl (applyWrite (retireNs s e)) s) ((bundleCost s.le.scanCyc [e]).1 + 1)
      ((e.writes.foldl (applyWrite (retireNs s e)) s).le.stalls + (bundleCost s.le.scanCyc [e]).2) := by
  unfold retireNs at *
  unfold retire
  simp only [hb, byLane_single, bundleTraps_single, ht, List.map_nil, List.any_nil, List.flatMap_cons, List.flatMap_nil, List.append_nil,
    hv, hf, List.filter_nil, recordReadFaults, recordTraps, firstTrap, List.foldl_nil, hrun, Bool.not_true]
  simp only [applySys_none _ _ hs]
  generalize e.writes.foldl (applyWrite (s.time.ns + ((bundleCost s.le.scanCyc [e]).1 - s.le.scanCyc) * 1000 / s.le.mhz)) s = s2 at *
  simp only [List.find?, hc, Option.isSome]
  simp [applyCtrl, advanced, hr]

/-- The state with an instruction's effect in the open bundle. -/
def openB (s : State) (e : LaneEff) : State := { s with le := { s.le with bundle := s.le.bundle ++ [e] } }

/-- The same for an instruction as it issues alone in its bundle. -/
theorem retire_alone (c : At) (s : State) (e : LaneEff) (h : aloneIn c s = true)
    (ht : e.traps = []) (hv : e.viols = []) (hf : e.memFaults = []) (hc : e.ctrl = none)
    (hs : ∀ i v, LeWrite.sys i v ∉ e.writes) (hr : (e.writes.foldl (applyWrite (retireNs s e)) (openB s e)).le.running = true) :
    leIssue c e s = 
      advanced (e.writes.foldl (applyWrite (retireNs s e)) (openB s e)) ((bundleCost s.le.scanCyc [e]).1 + 1)
       ((e.writes.foldl (applyWrite (retireNs s e)) (openB s e)).le.stalls + (bundleCost s.le.scanCyc [e]).2) := by
  simp only [aloneIn, Bool.and_eq_true] at h
  obtain ⟨⟨⟨hrun, hb⟩, hl⟩, -⟩ := h
  have hb : s.le.bundle = [] := by simpa using hb
  have : leIssue c e s = retire (openB s e) := by
    unfold leIssue; rw [if_pos hrun]; dsimp only; rw [if_pos hl]; rfl
  rw [this]
  exact retire_single (openB s e) e (by simp [openB, hb]) hrun ht hv hf hc hs hr

/-- Issuing an instruction does not change a lane. -/
@[simp] theorem lane_openB (s : State) (e : LaneEff) (l : Nat) : lane (openB s e) l = lane s l := rfl
/-- A lane is written beside the open bundle. -/
theorem lanePut_openB (s : State) (e : LaneEff) (l : Nat) (x : LaneSt) : lanePut (openB s e) l x = openB (lanePut s l x) e := rfl
/-- The retire empties the open bundle. -/
theorem advanced_openB (s : State) (e : LaneEff) (n k : Nat) : advanced (openB s e) n k = advanced s n k := rfl
/-- Issuing does not end the scan. -/
@[simp] theorem running_openB (s : State) (e : LaneEff) : (openB s e).le.running = s.le.running := rfl
/-- Issuing does not stall. -/
@[simp] theorem stalls_openB (s : State) (e : LaneEff) : (openB s e).le.stalls = s.le.stalls := rfl
/-- Writing a lane does not end the scan. -/
@[simp] theorem running_lanePut (s : State) (l : Nat) (x : LaneSt) : (lanePut s l x).le.running = s.le.running := rfl
/-- Writing a lane does not stall. -/
@[simp] theorem stalls_lanePut (s : State) (l : Nat) (x : LaneSt) : (lanePut s l x).le.stalls = s.le.stalls := rfl

/-- The lanes of such a state are in the canonical form. -/
theorem lanesWf {c : At} {s : State} (h : aloneIn c s = true) : mwf (fun _ => ({} : LaneSt)) s.le.lanes = true := by
  simp only [aloneIn, tablesOk, Bool.and_eq_true] at h; exact h.2.1.1.1.1.1.1.1.1
/-- A scan runs in such a state. -/
theorem running_of {c : At} {s : State} (h : aloneIn c s = true) : s.le.running = true := by
  simp only [aloneIn, Bool.and_eq_true] at h; exact h.1.1.1

/-- A lane that was written reads as it was written. -/
theorem lane_lanePut {s : State} {l : Nat} {x : LaneSt} (h : mwf (fun _ => ({} : LaneSt)) s.le.lanes = true) : lane (lanePut s l x) l = x :=
  mget_mput_same _ h

/-- The second of two writes of a lane is the one that stands. -/
theorem lanePut_lanePut {s : State} {l : Nat} {x y : LaneSt} (h : mwf (fun _ => ({} : LaneSt)) s.le.lanes = true) :
    lanePut (lanePut s l x) l y = lanePut s l y := by
  unfold lanePut; simp only [mput_mput _ h]

/-- The bundle of an instruction that is alone in it and only writes results retires to the state with those results. -/
theorem retiresTo_of {s : State} {c : At} {e : LaneEff} (h : aloneIn c s = true)
    (ht : e.traps = []) (hv : e.viols = []) (hf : e.memFaults = []) (hc : e.ctrl = none)
    (hs : ∀ i v, LeWrite.sys i v ∉ e.writes) {r : State}
    (hw : ∀ n, e.writes.foldl (applyWrite n) (openB s e) = openB r e) (hr : r.le.running = true) :
    retiresTo (.next (leIssue c e s)) r := by
  have := retire_alone c s e h ht hv hf hc hs (by rw [hw]; exact hr)
  rw [hw, advanced_openB] at this
  exact ⟨_, _, congrArg _ this⟩

end Sys2Proof.Machine
end

