-- ==== Sys2Proof/Tests/Slice0.lean ====
section
/-! SUPPORT. The row's own tests: ill-formed commands that the check refuses, words decoded as the spec encodes them, single
steps of the spec's worked examples, and for every statement with hypotheses a witness that meets them. -/

namespace Sys2Proof.Tests

set_option Elab.async false

open Sys2Proof Sys2Proof.Machine

/-! ### Helpers -/

/-- The only instruction of its bundle, in lane 0. -/
def c0 : At := ⟨0, true⟩

/-- Configuration registers, written and in force. -/
def regsOf (l : SMap Word) : Regs := ⟨l, l⟩

/-- An ACTIVE module in RUN whose scan runs, with the working state `x` of lane 0 and the listed words and registers. -/
def scanOf (x : LaneSt) (words : SMap DWord) (regs : SMap Word) : State :=
  { regs := regsOf regs, mem := { words := words }
    le := { running := true, lanes := if x = {} then [] else [(0, x)] }
    tick := { on := true }, sys := { powered := true }, pair := { mstate := .run, role := .active } }

/-- The same with nothing listed. -/
def scan : State := scanOf {} [] []

/-- The next state of an outcome. -/
def next? (o : Out) : Option State :=
  match o with
  | .next t => some t
  | .fault _ => none
  | .refused _ => none

/-! ### Well-formedness -/

/-- Each check refuses a term that breaks it (R53, R56, R66, R73, R80-R83, R228, R277, R296). -/
theorem test_ill_formed : [
    Instr.leLd c0 false false 0 36, .leSt c0 false false 0 32, .leAdd c0 0 3 32, .leLdih c0 0 512, .leShli c0 0 32,
    .leSysrd c0 0 64, .leRaise c0 0 32, .leRaise c0 1 0, .leWdsrv c0 0 524288, .leTrst c0 1 0, .leJmp c0 9 0 0 0,
    .leLoop c0 0 7 0 0, .nodeInputFrame 144 0 0 false [], .rxFrame 0 ⟨⟨0, false, false, false, false, false, 0, 0,
      List.replicate 65 0⟩, 0⟩, .block ⟨false, true, false, .active, 0, 0⟩ false 1 [],
    .program ⟨false, true, false, .active, 0, 0⟩ 0 (List.replicate 257 0), .sessionOpen 3,
    .protectionViolation 7 0 false, .fcuParity 34].all (fun i => !wellFormed i) = true := by decide +kernel

/-- The same commands at the last admitted value are well formed. -/
theorem test_well_formed : [
    Instr.leLd c0 false false 0 35, .leSt c0 false false 0 31, .leAdd c0 0 3 31, .leLdih c0 0 511, .leShli c0 0 31,
    .leSysrd c0 0 63, .leRaise c0 0 31, .leWdsrv c0 0 524287, .leTrst c0 0 0, .leJmp c0 8 0 0 0, .leLoop c0 0 6 0 0,
    .nodeInputFrame 143 0 0 false [], .block ⟨false, true, false, .active, 0, 0⟩ false 64 (List.replicate 64 ⟨0, 0⟩),
    .program ⟨false, true, false, .active, 0, 0⟩ 0 (List.replicate 256 0), .sessionOpen 2,
    .protectionViolation 6 0 false, .fcuParity 33].all wellFormed = true := by decide +kernel

/-! ### Decoding -/

/-- The words of the table of 02 "Encoding examples". -/
theorem test_decode_examples :
    leDecode c0 0x0A8000940 = .leAnd c0 true true 0x25 0 ∧ leDecode c0 0x441808010 = .leAdd c0 3 0 0x8010 ∧
    leDecode c0 0x59C000430 = .leSubst c0 0 0 0x430 ∧ leDecode c0 0x488008101 = .leFmul c0 0 0 0x8101 ∧
    leDecode c0 0x810A00101 = .leRaall c0 5 0x101 ∧ leDecode c0 0x841032000 = .leTon c0 2 0xC8 ∧
    leDecode c0 0xC400068B0 = .leCall c0 0 0 0x1A2C 0 := by decide +kernel

/-- Words written out from the formats of R53 and the tables of R57-R83: one for each other group. -/
theorem test_decode_groups :
    leDecode c0 0x000000000 = .leNop c0 ∧ leDecode c0 0x000000001 = .illegalInstruction c0 ∧
    leDecode c0 (0x08 * 2 ^ 30 + 2) = .lePopand c0 ∧ leDecode c0 (0x09 * 2 ^ 30 + 5) = .leQsub c0 ∧
    leDecode c0 (0x05 * 2 ^ 30 + 2 ^ 29 + 2 ^ 28 + 0x8000 * 2 ^ 6 + 31) = .leTrgf c0 false 0x8000 31 ∧
    leDecode c0 (0x10 * 2 ^ 30 + 1 * 2 ^ 26 + 7 * 2 ^ 23 + 2 * 2 ^ 21 + 0x200C) = .leMovSt c0 7 2 0x200C ∧
    leDecode c0 (0x13 * 2 ^ 30 + 14 * 2 ^ 26 + 3 * 2 ^ 21 + 31) = .leFun c0 0 3 31 ∧
    leDecode c0 (0x14 * 2 ^ 30 + 9 * 2 ^ 26 + 5) = .leRor c0 0 0 5 ∧
    leDecode c0 (0x15 * 2 ^ 30 + 8 * 2 ^ 26) = .leIbcd c0 0 0 0 ∧
    leDecode c0 (0x18 * 2 ^ 30 + 1 * 2 ^ 26 + 511) = .leLdih c0 0 511 ∧
    leDecode c0 (0x19 * 2 ^ 30 + 3 * 2 ^ 26 + 7 * 2 ^ 16 + 0xC35A) = .leWdsrv c0 0 0x7C35A ∧
    leDecode c0 (0x22 * 2 ^ 30 + 2 * 2 ^ 26 + 8191 * 2 ^ 10) = .leCtud c0 0 8191 ∧
    leDecode c0 (0x34 * 2 ^ 30 + 8 * 2 ^ 26) = .leEnds c0 8 0 ∧ leDecode c0 (0x35 * 2 ^ 30) = .illegalInstruction c0 := by
  decide +kernel

/-! ### Worked examples -/

/-- R23: GOOD, STALE, WIREBREAK, LATE give WIREBREAK; SETTLING followed by STALE gives SETTLING; FORCED AND GOOD gives FORCED. -/
theorem test_tags : tagWorst [0, 6, 8, 5] = 8 ∧ tagWorst [4, 6] = 4 ∧ tagWorst [1, 0] = 1 ∧ tagWorst [0, 1] = 0 := by
  decide +kernel

/-- What lane 0 holds after one command: RLO, A0 and its flags. -/
def lane0 (o : Out) : Option (Rlo × DWord × FlagSet) :=
  (next? o).map (fun t => ((lane t 0).rlo, accOf (lane t 0) 0, (lane t 0).flags))

/-- 02 "Worked example: suction pressure": a lost node's pressure is substituted, and FMUL of 145.0 by 0.01 keeps STALE. -/
theorem test_suction :
    lane0 (exec (.leSubst c0 0 0 0x430) { scanOf { acc := [(0, ⟨0x3F800000, 0⟩)] } [] [] with
      img := { cur := { nodeIn := [(0x30, ⟨0, 11⟩)] } } }) = some (⟨false, 0⟩, ⟨0x3F800000, 2⟩, 0) ∧
    lane0 (exec (.leFmul c0 0 0 0x8101) (scanOf { acc := [(0, ⟨0x43110000, 6⟩)] } [(0x8101, ⟨0x3C23D70A, 0⟩)] [])) =
      some (⟨false, 0⟩, ⟨0x3FB99999, 6⟩, 0) ∧
    lane0 (exec (.leFlt c0 0 0 0x8102) (scanOf { acc := [(0, ⟨0, 2⟩)] } [(0x8102, ⟨0x3F19999A, 0⟩)] [])) =
      some (⟨true, 2⟩, ⟨0, 2⟩, 0) := by decide +kernel

/-- 02 "Worked example: run permissive": M 0x2106, X 0x2000, POOLBASE 2, index 5 and channels 33, 34, 40 on, 45 off. -/
theorem test_run_permissive :
    let s : State := { scanOf {} [(0x8000, ⟨0x106, 0⟩)] [] with mem := {
      words := [(0x8000, ⟨0x106, 0⟩)], pool := [(133, (0x2106, 0x2000))] } }
    (lane0 (exec (.leRlall c0 5 0x8000) { s with le := { s.le with poolbase := 2 } })).map (·.1) = some ⟨true, 0⟩ := by
  decide +kernel

/-- R68, R70: a source that is also the destination, a wrap, a saturation, and divisions by zero. -/
theorem test_integer :
    let s := scanOf { acc := [(0, ⟨0x80000000, 0⟩), (1, ⟨0, 6⟩)] } [] []
    lane0 (exec (.leAdd c0 0 3 0) s) = some (⟨false, 0⟩, ⟨0, 0⟩, 0) ∧
    lane0 (exec (.leAdds c0 0 3 0) s) = some (⟨false, 0⟩, ⟨0x80000000, 0⟩, 1) ∧
    lane0 (exec (.leDiv c0 0 3 1) s) = some (⟨false, 0⟩, ⟨0x80000000, 6⟩, 2) ∧
    lane0 (exec (.leMod c0 0 3 1) s) = some (⟨false, 0⟩, ⟨0x80000000, 6⟩, 2) := by decide +kernel

/-- R277: "abc" of FIPS 180-4, and the first test case of RFC 4231, whose key is 20 bytes of 0x0B. -/
theorem test_hmac :
    sha256 [0x61, 0x62, 0x63] = [0xBA7816BF, 0x8F01CFEA, 0x414140DE, 0x5DAE2223, 0xB00361A3, 0x96177A9C, 0xB410FF61, 0xF20015AD] ∧
    hmac (BitVec.ofNat 256 (0x0B0B0B0B0B0B0B0B0B0B0B0B0B0B0B0B0B0B0B0B * 2 ^ 96)) [0x48, 0x69, 0x20, 0x54, 0x68, 0x65, 0x72, 0x65] =
      bytesBE [0xB0344C61, 0xD8DB3853, 0x5CA8AFCE, 0xAF0BF12B, 0x881DC200, 0xC9833DA7, 0x26E9376C, 0x2E32CFF7] := by decide +kernel

/-- R26, R35: a store to a packed Q word reaches the channel word, and a store to I does nothing. -/
theorem test_stores :
    let s := scanOf { rlo := ⟨true, 2⟩ } [] []
    (next? (exec (.leSt c0 false false 0x2100 3) s)).map (fun t => plainWord t 0x2003) = some ⟨1, 2⟩ ∧
    (next? (exec (.leSt c0 false false 0x0003 0) s)).map (fun t => t.mem) = some s.mem := by decide +kernel

/-! ### Witnesses: the step, its invariants and the logic engine -/

/-- An active module about to run MOV ST of A0 to 0x8000. -/
def storing : State := { scanOf { acc := [(0, ⟨5, 4⟩)] } [] [] with pending := [.leMovSt c0 0 0 0x8000] }

theorem witness_StepRunsQueue :
    storing.pending = [.leMovSt c0 0 0 0x8000] ∧ State.reset.pending = [] ∧ State.reset.sys.powered = false := by
  decide +kernel

theorem witness_invariants : memOk storing = true ∧ tablesOk storing = true ∧ queuesOk storing = true ∧
    tokenOk storing = true ∧ (next? (step storing)).map (fun t => plainWord t 0x8000) = some ⟨5, 4⟩ := by decide +kernel

theorem witness_LeRloAndRungStack :
    aloneIn c0 scan = true ∧ (lane (scanOf { stack := List.replicate 7 ⟨true, 4⟩ } [] []) 0).stack.length < 8 ∧
    aloneIn c0 (scanOf { stack := List.replicate 8 ⟨true, 4⟩ } [] []) = true ∧
    (lane (scanOf { stack := [⟨true, 4⟩] } [] []) 0).stack = ⟨true, 4⟩ :: [] ∧
    (0x240000006 : BitVec 36).toNat / 2 ^ 30 = 0x09 ∧ 5 < (0x240000006 : BitVec 36).toNat % 64 := by decide +kernel

theorem witness_LeTrapsEndScan :
    aloneIn c0 (scanOf { stack := List.replicate 8 ⟨true, 4⟩ } [] []) = true ∧
    (lane (scanOf { stack := List.replicate 8 ⟨true, 4⟩ } [] []) 0).stack.length = 8 ∧ (lane scan 0).stack = [] ∧
    32 ≤ (32 : BitVec 21).toNat ∧ 36 ≤ (36 : BitVec 6).toNat ∧ 32 ≤ (32 : BitVec 6).toNat ∧
    512 ≤ (512 : BitVec 23).toNat ∧ 64 ≤ (64 : BitVec 23).toNat ∧ 32 ≤ (32 : BitVec 23).toNat ∧ scan.le.callStack = [] ∧
    aloneIn c0 { scan with le := { scan.le with callStack := List.replicate 16 ⟨1, 0⟩ } } = true := by decide +kernel

/-- A word whose tag is uncertain. -/
def staleWord : State := scanOf { rlo := ⟨true, 8⟩ } [(0x8000, ⟨1, 6⟩)] []

theorem witness_LeBitLoads : aloneIn c0 staleWord = true ∧ quietRead staleWord 0x8000 = true ∧
    (35 : BitVec 6).toNat < 36 ∧ (31 : BitVec 6).toNat < 32 ∧ tagClass (readWord staleWord 0x8000).tag ≠ 0 ∧
    fcuReact staleWord 477 ≠ 2 ∧ tagClass (readWord scan 0x1FFFFF).tag = 0 := by decide +kernel

theorem witness_LeBitStoresAndTriggers : aloneIn c0 staleWord = true ∧ memOk staleWord = true ∧
    inL 0x8000 = false ∧ inL 0x2100 = false ∧ memOk scan = true ∧ aloneIn c0 scan = true ∧ quietRead scan 0x2100 = true ∧
    quietWrite staleWord 0x8000 = true ∧
    quietRead staleWord 0x8000 = true ∧ (31 : BitVec 6).toNat < 32 ∧ tagClass (lane staleWord 0).rlo.tag ≠ 0 ∧
    fcuReact staleWord 477 ≠ 2 ∧ tagClass (lane scan 0).rlo.tag = 0 ∧ quietWrite scan 0x2100 = true := by decide +kernel

theorem witness_LeRake : aloneIn c0 scan = true ∧ quietRead scan 0x101 = true ∧
    (0x830000000 : BitVec 36).toNat / 2 ^ 30 = 0x20 ∧ 6 ≤ (0x830000000 : BitVec 36).toNat / 2 ^ 27 % 8 := by decide +kernel

/-- Pointers at 0x8000 (STALE) and 0x8001 (WIREBREAK). -/
def pointers : State := scanOf {} [(0x8000, ⟨0xFFE08002, 6⟩), (0x8001, ⟨0x8002, 8⟩)] []

theorem witness_LeOperandForms : tagClass (leRead pointers 0x8000).tag < 2 ∧ 2 ≤ tagClass (leRead pointers 0x8001).tag ∧
    winAllows pointers 0 0x8000 false = true ∧ winAllows (scanOf {} [] [(aPROT, 1)]) 0 0x8000 false = false := by
  decide +kernel

theorem witness_LeMovesAndTags :
    let s := scanOf { acc := [(0, ⟨14, 0⟩), (1, ⟨13, 0⟩)] } [] []
    aloneIn c0 s = true ∧ quietOpd s c0 3 31 = true ∧ quietDest s c0 3 31 = true ∧ quietDest s c0 0 0x1FFFFF = true ∧
    14 ≤ (accA s c0 0).val.toNat % 16 ∧ (accA s c0 1).val.toNat % 16 < 14 ∧ fcuReact s 477 ≠ 2 := by decide +kernel

theorem witness_MemoryWrites : memOk staleWord = true ∧ keptWord 0x8000 = true ∧ keptWord 0x1FFFFF = true ∧
    keptWord 0x2E8F = true ∧ qPacked 0x2100 = true ∧ qPacked 0x2107 = true ∧ (inI 0x1FFF || inS 0x1FFF) = true ∧
    (inI 0x4FFF || inS 0x4FFF) = true := by decide +kernel

/-- A0 holds the least word, A1 −1, A2 0, A3 one. -/
def corner : State :=
  scanOf { acc := [(0, ⟨0x80000000, 0⟩), (1, ⟨0xFFFFFFFF, 6⟩), (3, ⟨1, 0⟩), (4, ⟨0xA, 0⟩), (5, ⟨100000000, 0⟩)] } [] []

theorem witness_LeInteger : aloneIn c0 corner = true ∧ quietOpd corner c0 3 2 = true ∧ (opdVal corner c0 3 2).val = 0 ∧
    (accA corner c0 0).val = 0x80000000 ∧ quietOpd corner c0 3 1 = true ∧ (opdVal corner c0 3 1).val = 0xFFFFFFFF ∧
    (opdVal corner c0 3 3).val ≠ 0 ∧ (opdVal corner c0 3 3).val ≠ 0xFFFFFFFF := by decide +kernel

theorem witness_LeLogicAndConversions : aloneIn c0 corner = true ∧ quietOpd corner c0 3 4 = true ∧
    9 < (opdVal corner c0 3 4).val.toNat / 16 ^ 0 % 16 ∧
    (∀ k < 8, (opdVal corner c0 3 3).val.toNat / 16 ^ k % 16 ≤ 9) ∧ (opdVal corner c0 3 1).val.toInt < 0 ∧
    99999999 < (opdVal corner c0 3 5).val.toInt ∧ 0 ≤ (opdVal corner c0 3 2).val.toInt ∧
    (opdVal corner c0 3 2).val.toInt ≤ 99999999 := by decide +kernel

theorem witness_LeWordGroups : aloneIn c0 corner = true ∧ quietOpd corner c0 3 1 = true ∧
    quietOpd corner c0 0 0x8000 = true ∧ quietOpd corner c0 1 0x8000 = true ∧ quietOpd pointers c0 2 0x8000 = true := by
  decide +kernel

theorem witness_LeImmediates : aloneIn c0 corner = true ∧ (511 : BitVec 23).toNat < 512 ∧ (31 : BitVec 23).toNat < 32 ∧
    512 ≤ (512 : BitVec 23).toNat ∧ 32 ≤ (32 : BitVec 23).toNat ∧ (0x63C000000 : BitVec 36).toNat / 2 ^ 30 = 0x18 ∧
    (0x63C000000 : BitVec 36).toNat / 2 ^ 26 % 16 = 15 := by decide +kernel

theorem witness_LeSystemRegisters : aloneIn c0 corner = true ∧ (63 : BitVec 23).toNat < 64 ∧
    tagClass (accA corner c0 0).tag = 0 ∧ tagClass (accA corner c0 1).tag ≠ 0 ∧ fcuReact corner 477 ≠ 2 := by decide +kernel

theorem witness_LeRaiseAndServe : aloneIn c0 scan = true ∧ (31 : BitVec 23).toNat < 32 ∧ twdEn scan 7 = false ∧
    twdEn (scanOf {} [] [(aWD + 28, 0x101)]) 7 = true ∧ aloneIn c0 (scanOf {} [] [(aWD + 28, 0x101)]) = true := by
  decide +kernel

theorem witness_LeTimersAndCounters :
    let s := scanOf { stack := [⟨true, 0⟩] } [] []
    aloneIn c0 s = true ∧ memOk s = true ∧ quietBlock s 0x1E0000 = true ∧ quietBlock s (0x1E0000 + 8 * 8191) = true ∧
    quietBlock s 0x1F0000 = true ∧ quietBlock s (0x1F0000 + 8 * 8191) = true ∧ (lane s 0).stack = ⟨true, 0⟩ :: [] ∧
    (lane scan 0).stack = [] := by decide +kernel

theorem witness_LeControl :
    let s : State := { scanOf { rlo := ⟨true, 4⟩, acc := [(0, ⟨0xFFFFFFFF, 0⟩), (1, ⟨1, 0⟩)] } [] [] with
      le := { (scanOf { rlo := ⟨true, 4⟩, acc := [(0, ⟨0xFFFFFFFF, 0⟩), (1, ⟨1, 0⟩)] } [] []).le with
        callStack := List.replicate 15 ⟨1, 0⟩ } }
    aloneIn c0 s = true ∧ condHolds s c0 0 0 = some true ∧ condHolds s c0 1 0 = some true ∧
    condHolds s c0 4 0 = some true ∧ condHolds s c0 5 2 = some true ∧ condHolds s c0 6 0 = some true ∧
    condHolds s c0 7 0 = some true ∧ condHolds s c0 8 1 = some true ∧ condHolds s c0 2 0 = some false ∧
    condHolds s c0 3 0 = some false ∧ s.le.callStack.length < 16 ∧ s.le.callStack ≠ [] ∧ 8 < (9 : BitVec 4).toNat := by
  decide +kernel

/-- A timer block whose last execution lies before the wrap of TBASE. -/
def blk : TimerBlk := { pt := 5, et := 1, rem := 7, last := 4294967295, q := false, inp := true, run := true, unit := 0, runid := 1 }

theorem witness_TimerRules : blk.last < 4294967296 ∧ (3 : Nat) < 4294967296 ∧ blk.inp = true ∧ blk.run = true ∧ blk.runid = 1 ∧
    (tmrEval .ton blk true 5 2 1).et = 5 ∧ (tmrEval .ton blk true 5 2 1).q = true := by decide +kernel

/-! ### Witnesses: the tick, edits, the monitor and the reflex unit -/

/-- A SOLO module in RUN in tick 8 of 10 ms, at `ns` of station time and `cyc` fabric cycles, with the listed registers. -/
def soloAt (ns cyc : Nat) (regs : SMap Word) : State :=
  { regs := regsOf regs, pair := { mstate := .run, role := .solo }
    tick := { on := true, num := 8, t0 := 80000000, next := 90000000 }, time := { ns := ns, cyc := cyc }
    sys := { powered := true }, btn := { restored := true } }

/-- The same with a session on USB that holds ENGINEER. -/
def held (s : State) : State := { s with cp := { s.cp with sessions := [(2, some ⟨5, 4, 0, none⟩)], usb := true } }

/-- Channel 255 in the mode `m`, its front end in that mode, with the state `c` and further channel registers, in the state of
`soloAt`. -/
def chanAt (m : Word) (ns cyc : Nat) (c : ChanSt) (regs : SMap Word) : State :=
  { soloAt ns cyc ((aCH 255, m) :: regs) with chan := [(255, { c with feMode := m.truncate 3 })] }

theorem witness_TickBoundary :
    let s := soloAt 90000000 0 []
    s.sys.powered = true ∧ s.sys.inReset = false ∧ s.pair.mstate ≠ .init ∧ s.pair.mstate ≠ .sleep ∧ s.tick.on = true ∧
    s.tick.next ≤ s.time.ns ∧ s.time.pending = none ∧ s.upd.phase ≠ .armed ∧
    (soloAt 90000000 0 []).le.running = false ∧ nCh (soloAt 0 0 []) ≤ 256 ∧
    nCh { soloAt 0 0 [] with fixed := { variant := 3 } } ≤ 128 := by decide +kernel

theorem witness_OutputCommit :
    let s := soloAt 80002000 0 []
    let q : State := { s with le := { s.le with sealedReady := true, sealedTick := 7 } }
    q.tick.on = true ∧ q.sys.inReset = false ∧ q.pair.mstate = .run ∧ q.tick.commitDone = false ∧
    q.tick.t0 + 2000 ≤ q.time.ns ∧ q.le.sealedReady = true ∧ q.le.running = false ∧ heldOver q = false ∧
    q.tick.skipCommit = false ∧ q.le.sealedTick ≠ q.tick.num ∧ tablesOk q = true ∧ q.mem.upset = [] ∧
    isOut (chanAt 4 80002000 0 {} []) 255 = true ∧ forceBit (chanAt 4 80002000 0 {} []) 0x2000 255 = none ∧
    s.pair.mstate = .run ∧ s.le.sealedReady = false ∧ s.tick.entryTick = false := by decide +kernel

theorem witness_ScanStartAndOverrun :
    let s := soloAt 80003000 0 []
    let a : State := { s with tick := { s.tick with commitDone := true } }
    let b : State := { a with edit := { a.edit with live := [(0, ⟨0, 1, 1, 0, 0⟩)] } }
    let d : State := { b with edit := { b.edit with phase := .pending, target := 8, migDone := true } }
    let r : State := { soloAt 89991000 0 [] with le := { running := true, scanTick := 8 } }
    scanDue a = true ∧ swapDue a = false ∧ (liveOf a 0).len = 0 ∧ scanDue b = true ∧ swapDue b = false ∧
    (liveOf b 0).len ≠ 0 ∧ scanDue d = true ∧ swapDue d = true ∧ d.edit.migDone = true ∧ fcuReact r 473 ≠ 2 ∧
    r.le.overConsec + 1 < fld (force r (aLE + 0x1C)) 24 4 ∧ r.le.overran = false ∧ r.le.scanTick = r.tick.num ∧ r.tick.next ≤ r.time.ns + 9000 := by
  decide +kernel

theorem witness_FatalFaultsAndSelfTest :
    let s := soloAt 80003000 0 []
    let a : State := { s with tick := { s.tick with commitDone := true, missed := 5, scanDone := true } }
    let w : State := { a with tick := { a.tick with t0 := 1000000000 }, time := { ns := 1000000005 } }
    let l : State := { a with le := { a.le with lsActive := true, lsStep := 999 }, time := { a.time with cyc := 200 } }
    inRun a = true ∧ (force a aSLC).toNat % 256 ≤ a.tick.missed ∧ a.tick.commitDone = true ∧ tickRuns a = true ∧
    a.pair.mstate ≠ .init ∧ a.pair.mstate ≠ .sleep ∧ w.le.lsActive = false ∧ w.tick.t0 % 1000000000 = 0 ∧
    tickRuns w = true ∧ l.le.lsActive = true ∧ l.le.running = false ∧ l.tick.scanDone = true ∧ tickRuns l = true ∧
    w.time.ns ≤ w.tick.t0 + 5 ∧ lsStepRuns l = true ∧ l.le.lsFrom + 200 ≤ l.time.cyc ∧ l.time.ns + 8000 ≤ l.tick.next ∧
    998 < 999 ∧ l.le.lsStep = 999 := by decide +kernel

/-- A module with an edit in the phase, its download range `n` bundles from the last of the store, or the entry of block 1023. -/
def editing (p : EditPhase) (n : Word) (crc : Word) : State :=
  { held (soloAt 80003000 0 [(aLE + 0x48, 0x3FFFF), (aLE + 0x4C, n), (aLE + 0x50, if p = .opened then crc else 1), (aLE + 0x54, 0x7FFFF),
      (aLE + 0x58, 0x7FF), (aLE + 0x64, 10)]) with
    edit := { phase := p, openRange := some ⟨0x3FFFF, 1, false, false⟩, ranges := [⟨0x3FFFF, 1, false, false⟩]
              stagedSet := [(1023, ⟨0x3FFFF, 1, 1, 0, 0⟩)], changed := [1023] } }

theorem witness_EditCommands :
    let i := editing .idle 1 0
    let p := editing .opened 1 0x8A9136AA
    let q := editing .opened 1 0x8A9136AB
    let s := editing .staged 1 0
    let c := editing .committed 1 0
    let l : State := { i with edit := { i.edit with live := [(3, ⟨0x3FFFF, 1, 1, 0, 0⟩)] } }
    let n : State := { i with edit := { i.edit with ranges := [] } }
    let x : State := { s with tick := { s.tick with num := 9 } }
    let y : State := { c with tick := { c.tick with num := 9 } }
    rowMay i .editOpen = true ∧ rowMay c .editOpen = true ∧
    editShut { i with upd := { decided := true } } = true ∧ rowMay { i with upd := { decided := true } } .editOpen = true ∧
    editShut i = false ∧ rangeOk (regRange i) = true ∧ rangeOk (regRange (editing .idle 2 0)) = false ∧
    rangeHeld i (regRange i) = false ∧ rangeHeld l (regRange l) = true ∧
    badEntry i (regEntry i).1 (regEntry i).2 = false ∧
    badEntry n (regEntry n).1 (regEntry n).2 = true ∧
    crc32c (rangeWords p ⟨0x3FFFF, 1, false, false⟩) = force p (aLE + 0x50) ∧
    crc32c (rangeWords q ⟨0x3FFFF, 1, false, false⟩) ≠ force q (aLE + 0x50) ∧
    swapCheck s s.edit.stagedSet ((force s (aLE + 0x6C)).toNat % 67108864) (regMig s 0x5C) = 0 ∧
    swapCheck x x.edit.stagedSet ((force x (aLE + 0x6C)).toNat % 67108864) (regMig x 0x5C) ≠ 0 ∧
    swapCheck y (y.edit.changed.map (fun k => (k, prevOf y k))) y.edit.oldBudget.toNat (regMig y 0x60) ≠ 0 ∧
    swapCheck c (c.edit.changed.map (fun k => (k, prevOf c k))) c.edit.oldBudget.toNat (regMig c 0x60) = 0 ∧
    i.edit.phase = .idle ∧ (editing .undoPending 1 0).edit.phase = .undoPending := by decide +kernel

/-- R112: CRC-32C of the four words of one bundle of zeros, 32 bytes. -/
theorem test_crc : crc32c (List.replicate 8 0) = 0x8A9136AA := by decide +kernel

theorem witness_EditSwapAndMigration :
    let s : State := { soloAt 80003000 0 [] with edit := { phase := .pending, target := 8, migDone := true } }
    let m : State := { soloAt 80003000 0 [] with
      mem := { prog := [(0, 0x10002), (1, 0x8000), (2, 0x8001)] }
      edit := { phase := .pending, target := 8, mig := ⟨0, 1⟩ } }
    let r : State := { m with regs := regsOf [(aPROT, 4)] }
    swapDue s = true ∧ s.edit.migDone = true ∧ migDue m = true ∧ memOk m = true ∧ (force m aPROT).getLsbD 2 = false ∧
    permitted m 2 (engAddr 0x8000) false = true ∧ permitted m 2 (engAddr 0x8001) true = true ∧ migDue r = true ∧
    migTable r r.edit.mig = [some ⟨.copy, 0, 1, 0x8000, 0x8001, 0⟩] ∧ permitted r 2 (engAddr 0x8000) false = false ∧
    migTable m m.edit.mig = [some ⟨.copy, 0, 1, 0x8000, 0x8001, 0⟩] ∧ keptWord 0x8001 = true ∧ isPacked 0x8001 = false ∧
    readFaults m 0x8000 = [] := by decide +kernel

theorem witness_MonitorAndScrubber :
    let s : State := { soloAt 80003000 0 [(aLE + 0x94, 1024)] with
      le := { sealedReady := true, sealedTick := 8, scanTick := 8 }
      mon := { snapBusy := true, held := some (0x8000, 1) } }
    let w : State := { s with mon := { writeBusy := true, wlist := [(0, 0x80008000), (1, 7), (2, 4)] } }
    let u : State := { s with mem := { upset := [(0, 1)] } }
    let r : State := { s with regs := regsOf [(aLE + 0x94, 1024), (aPROT, 4)] }
    rowMay s .monSnap = true ∧ rowMay s (.scanHistClr 1) = true ∧ r.mon.snapBusy = true ∧ sealServes r r.mon.snapAccTick = true ∧
    1023 < snapLen r ∧ permitted r 2 (engAddr ((force r (aLE + 0x90)).toNat % 2097152 + 1023)) false = false ∧
    (∀ i < 1024, permitted s 2 (engAddr ((force s (aLE + 0x90)).toNat % 2097152 + i)) false = true) ∧ snapLen s = 1024 ∧ (force w aPROT).getLsbD 2 = false ∧
    s.mon.snapBusy = true ∧ sealServes s s.mon.snapAccTick = true ∧ snapLen s = 1024 ∧ w.mon.writeBusy = true ∧
    sealServes w w.mon.writeAccTick = true ∧ snapServes w = false ∧ mwf (fun _ => goodZero) s.mon.buf = true ∧
    cpMay s (0x30000000 + 8 * 0xFFFFF) false = true ∧ s.mon.held = some (0x8000, 1) ∧ memOk w = true ∧
    qPacked ((wlWord w 0 0).toNat % 2097152) = false ∧
    fbit (wlWord w 0 0) 31 = true ∧ wlBad w 0 = false ∧ keptWord ((wlWord w 0 0).toNat % 2097152) = true ∧
    (∀ i < 64, 0 < i → fbit (wlWord w i 0) 31 = false) ∧ cpMay s (0x31000000 + 8 * 0x1FFFFF) true = true ∧
    cpMay s (0x31000004 + 8 * 0x8000) true = true ∧ cpMay s (0x31000000 + 8 * 0x8000) false = true ∧
    mget (fun _ => 0) u.mem.upset (bankWord 0 (mget (fun _ => 0) u.mem.scrubPos 0)) = 1 ∧
    mwf (fun _ => 0) u.mem.upset = true ∧
    mget (fun _ => 0) u.mem.upset (bankWord 15 (mget (fun _ => 0) u.mem.scrubPos 15)) ≠ 1 := by decide +kernel

theorem witness_ReflexCommands :
    let s : State := { soloAt 80003000 0 [(aRFX + 4, 0x80000000), (aRFX + 0x100 + 4 * 63, 0x40000)] with
      rfx := { latch := 0x8000000000000000 } }
    rowMay s (.rfxLatch true 0) = true ∧ rowMay s (.rfxSoft 0) = true ∧ rowMay s .rfxLastTime = true ∧ rfxLatched s 63 = true ∧ rfxEn s 63 = true ∧ rfxCondition s 63 = false ∧ s.rfx.cond.getLsbD 63 = false ∧
    tablesOk s = true := by decide +kernel

/-! ### Witnesses: channels, groups and sequences -/

/-- Pulsed wetting with W = 100 µs. -/
def pulsed : SMap Word := [(aCH 255 + 8, 0x3)]

/-- The front end runs pulsed. -/
def wetted : ChanSt := { fePulsed := true, fePeriod := 1 }

theorem witness_ChannelSampling :
    let a := chanAt 2 100000 0 wetted pulsed
    let b := chanAt 2 2550000 0 wetted pulsed
    let f := chanAt 2 2550000 0 { wetted with fullUntil := 2551 } pulsed
    let d := chanAt 2 120000 0 { wetted with confirm := some (true, 100) } pulsed
    let e := chanAt 1 0 0 { edgePend := true } []
    let p := chanAt 2 100000 0 { wetted with calActive := true } pulsed
    let v := chanAt 2 120000 0 { wetted with calActive := true, confirm := some (true, 100) } pulsed
    hasInput a 255 = true ∧ tablesOk a = true ∧ feSampled a 255 = true ∧ sampleFits a 255 (.level true) = true ∧
    sampleFits (chanAt 3 100000 0 wetted pulsed) 255 (.current 1501) = true ∧ feSampled (chanAt 3 0 0 {} []) 255 = true ∧
    (ch e 255).calActive = false ∧ (ch e 255).fePulsed = false ∧ (ch e 255).raw = false ∧
    (ch b 255).calActive = false ∧ (ch b 255).confirm = none ∧ (ch b 255).fullUntil ≤ 2550000 / 1000 ∧
    wetWindow b 255 = false ∧ (ch b 255).fePulsed = true ∧
    2550000 / 1000 < (ch f 255).fullUntil ∧ (ch f 255).confirm = none ∧
    wetWindow a 255 = true ∧ (ch a 255).fullUntil ≤ 100000 / 1000 ∧ (ch d 255).confirm.isSome = true ∧
    (ch a 255).raw = false ∧ (100000 / 1000) % wetPeriod a 255 = 0 ∧ (ch a 255).confirm = none ∧ (ch a 255).calActive = false ∧
    (ch p 255).calActive = true ∧ hasInput p 255 = true ∧ feSampled p 255 = true ∧ (ch p 255).raw = false ∧
    (ch d 255).confirm = some (true, 100) ∧ (ch d 255).calActive = false ∧ (ch v 255).calActive = true ∧
    (ch v 255).confirm = some (true, 100) ∧ 100 + 20 ≤ 120000 / 1000 ∧ (true ≠ false) ∧
    (ch e 255).wb = false ∧ (ch e 255).edgePend = true ∧ (ch e 255).rawTs + chDeb e 255 ≤ 0 / 1000 ∧
    hasInput e 255 = true ∧ feSampled e 255 = true := by
  decide +kernel

theorem witness_WireBreakAndWetting :
    let w := chanAt 3 90000000 0 {} []
    let d := chanAt 3 20000000000 2000000000 {} [(aCH 255 + 0xC, 0x200)]
    let p := chanAt 2 0 200000000 wetted pulsed
    let q := chanAt 2 0 200000000 wetted [(aCH 255 + 8, 0x103)]
    let l := chanAt 3 0 600000 {} []
    tablesOk w = true ∧ chMode w 255 = 3 ∧ (199 < 200 ∨ 199 < wbThr w 255) ∧ max (chDeb w 255) 1000 ≤ 3000 ∧
    (ch (chanAt 3 0 0 { wb := true } []) 255).wb = true ∧ chMode d 255 = 3 ∧ fbit (chCfg d 255 0xC) 9 = true ∧
    (ch d 255).wb = false ∧ (ch d 255).filt = false ∧ (ch d 255).calActive = false ∧ tablesOk d = true ∧
    (ch d 255).openCyc + 2000000000 ≤ d.time.cyc ∧ (ch d 255).learnCyc + 200000000 ≤ d.time.cyc ∧
    chMode l 255 = 3 ∧ (ch l 255).wb = false ∧ (ch l 255).setCyc + 200 * max (chDeb l 255) 1000 ≤ l.time.cyc ∧
    (ch p 255).adaptCyc + 200000000 ≤ p.time.cyc ∧ hasInput p 255 = true ∧ tablesOk p = true ∧
    chPulsed p 255 = true ∧ fbit (chCfg p 255 8) 8 = false ∧ chPulsed q 255 = true ∧ tablesOk q = true ∧
    fbit (chCfg q 255 8) 8 = true ∧ hasInput q 255 = true ∧ (ch q 255).adaptCyc + 200000000 ≤ q.time.cyc := by decide +kernel

theorem witness_ChannelOverload :
    let s := chanAt 5 0 0 { drive := true } []
    tablesOk s = true ∧ isOn s 255 = true ∧ 650 < 651 ∧ 100 * fld (chCfg s 255 0x10) 1 8 < 100 * 51 ∧
    (31 : BitVec 5).toNat < nGroups s ∧ grpLimit s 31 < 2501 ∧ highestOn s 31 = some 255 ∧ 100000 ≤ 100000 ∧
    (gr s 31).shedCyc = 0 ∧
    rowMay (chanAt 5 0 0 { trip := true } []) (.chFaultRearm 255) = true ∧
    (ch (chanAt 5 0 0 { trip := true } []) 255).trip = true := by decide +kernel

theorem witness_ChannelUpkeep :
    let s := chanAt 5 0 20000 { drive := true } []
    let q := chanAt 1 1000000000 2000000000 { calReq := true, calAgeMin := 43201, settleLeft := 1 } []
    let a := chanAt 1 1000000000 400000 { calActive := true } []
    let p := chanAt 2 2550000 0 { wetted with calActive := true } pulsed
    let e := chanAt 1 90000000 0 { settleLeft := 1 } []
    tablesOk s = true ∧ chMode s 255 = 5 ∧ (ch s 255).filt ≠ (ch s 255).drive ∧ (ch s 255).mismatch = false ∧
    1000 * fld (chCfg s 255 0x10) 16 8 < 5001 ∧ isOut s 255 = true ∧ rowMay q (.calReq 255) = true ∧
    (ch (chanAt 5 0 20000 { driveSense := true } []) 255).driveSense = true ∧
    (ch (chanAt 5 0 20000 {} []) 255).driveCyc + 20000 ≤ 20000 ∧ (ch e 255).settleLeft = 1 ∧ e.tick.next ≤ e.time.ns ∧
    hasInput q 255 = true ∧ 1440 ≤ (ch q 255).calAgeMin ∧ 43200 < (ch q 255).calAgeMin ∧ calWanted q 255 = true ∧
    calQuiet q 255 = true ∧ (∀ i < 8, (ch q (8 * (255 / 8) + i)).calActive = false) ∧ q.time.ns / 1000 % 1000000 = 0 ∧
    (ch a 255).raw = false ∧ (ch a 255).fePulsed = false ∧ (ch p 255).calActive = true ∧ (ch p 255).raw = false ∧
    (ch p 255).fePulsed = true ∧ (ch p 255).confirm = none ∧ (ch p 255).fullUntil ≤ p.time.ns / 1000 ∧
    wetWindow p 255 = false ∧ (ch a 255).calActive = true ∧ (ch a 255).calStart + 400000 ≤ a.time.cyc ∧ tablesOk q = true ∧
    tablesOk p = true ∧ tablesOk a = true ∧ tablesOk e = true := by decide +kernel

theorem witness_GroupSupply :
    let s := soloAt 0 0 []
    let l : State := { s with grp := [(31, { lost := true })] }
    let w : State := { s with grp := [(31, { low := true })] }
    (31 : BitVec 5).toNat < nGroups s ∧ tablesOk s = true ∧ tablesOk l = true ∧ (gr l 31).lost = true ∧
    ({ s with sys := {} } : State).sys.powered = false ∧ (gr s 31).low = false ∧
    (let c : State := { soloAt 0 7000000 [] with wd := { clkFailCyc := some 0 } }
     c.wd.clkFailCyc = some 0 ∧ 0 + 7000000 ≤ c.time.cyc) ∧
    (17999 : BitVec 16).toNat < 100 * fld (force s (aGRP 31)) 0 8 ∧ (gr w 31).low = true ∧ tablesOk w = true ∧
    100 * fld (force w (aGRP 31)) 0 8 + 500 ≤ (18500 : BitVec 16).toNat ∧ 100 < 101 ∧ (gr s 31).lost = false := by
  decide +kernel

/-- Group 31 runs the single step `w`, which has (or has not) begun. -/
def sequence (w : Word) (began : Bool) (cyc : Nat) (regs : SMap Word) : State :=
  { soloAt 0 cyc regs with slc := { grp := [(31, { phase := .running, began := began, table := [w] })] } }

theorem witness_SluiceSequences :
    let a : State := { soloAt 0 0 [] with slc := { armed := true } }
    let i := sequence 0x0010CFF6 false 0 [(aCH 255, 1)]
    a.prot.frozen.getLsbD 1 = false ∧ i.time.cyc < (sg i 31).stepCyc + 20000000 * ((stepWord (sg i 31)).toNat / 65536 / 16) ∧
    rowMay a (.slcKey 0xC35A) = true ∧ rowMay a (.slcStart 1) = true ∧ rowMay a (.slcRelease 1) = true ∧
    rowMay (soloAt 0 0 []) (.slcStart 1) = true ∧ a.slc.armed = true ∧ tablesOk a = true ∧ a.pair.mstate = .run ∧ (sg a 31).phase = .idle ∧
    (soloAt 0 0 []).slc.armed = false ∧ stepIs (sequence 0xFF1 false 0 []) 31 1 = true ∧
    stepIs (sequence 0xFF2 false 0 []) 31 2 = true ∧ stepIs (sequence 0xFF3 false 0 []) 31 3 = true ∧
    stepIs (sequence 0x00010074 false 0 []) 31 4 = true ∧ stepRuns (sequence 0x00010074 true 200000 []) 31 4 = true ∧
    stepIs (sequence 0x00010005 false 0 []) 31 5 = true ∧ stepRuns (sequence 0x00010005 true 200000 []) 31 5 = true ∧
    stepIs { i with chan := [] } 31 6 = true ∧ tablesOk i = true ∧
    stepRuns (sequence 0x0010CFF6 true 0 [(aCH 255, 1)]) 31 6 = true ∧
    waitinHolds (sequence 0x0010CFF6 true 0 [(aCH 255, 1)]) 31 = true ∧
    waitinHolds (sequence 0x0010DFF6 true 20000000 [(aCH 255, 1)]) 31 = false ∧
    stepIs (sequence 0 false 0 []) 31 0 = true ∧ stepDue (sequence 0x10 false 0 []) 31 = true ∧
    stepBad (sequence 0x10 false 0 []) 31 = true := by decide +kernel

/-! ### Witnesses: the pair -/

/-- A paired module with lane 0 up, in the given role and state, whose next frame has number 1. -/
def paired (r : Role) (m : ModState) (ns cyc : Nat) : State :=
  { soloAt ns cyc [] with
    pair := { role := r, mstate := m, lane0 := { up := true }, partnerState := some .shadow, partnerCurrent := true } }

/-- The frame that it awaits. -/
def frame1 : FrameHdr := ⟨false, true, false, .active, 1, 0⟩

theorem witness_PairLink :
    let s : State := { paired .active .run 0 40000 with
      pair := { (paired .active .run 0 40000).pair with unacked := [⟨⟨false, true, false, .active, 7, 0⟩, .cfgReq, 30000⟩] } }
    linkOpen s = true ∧ frame1.ok = true ∧ (laneOf s false).up = true ∧ (laneOf s false).lastRx + 40000 ≤ s.time.cyc ∧
    (laneOf s true).up = false ∧ (laneOf (paired .active .run 0 40000) (!true)).up = true ∧ mwf (fun _ => none) s.pair.hbOut = true ∧
    s.pair.unacked.find? (fun g => g.hdr.seq = 7) = some ⟨⟨false, true, false, .active, 7, 0⟩, .cfgReq, 30000⟩ ∧ 30000 + 10000 ≤ s.time.cyc ∧
    goodFrame s frame1 = true ∧ s.pair.role = .active ∧ s.pair.partnerState = some .shadow := by decide +kernel

theorem witness_PairTakeover :
    let b := paired .standby .shadow 80003000 0
    let a : State := { paired .active .hold 80010000 0 with
      pair := { (paired .active .hold 80010000 0).pair with giveTick := some 3, giveKind := 3 } }
    let at5 : State := { b with pair := { b.pair with takeoverAt := some 80003000 } }
    hasTwin b = true ∧ goodFrame b frame1 = true ∧ b.pair.role = .standby ∧ b.pair.mstate = .shadow ∧
    at5.pair.takeoverAt = some 80003000 ∧ 80003000 ≤ at5.time.ns ∧ hasTwin a = true ∧ goodFrame a frame1 = true ∧
    a.pair.giveTick.isSome = true ∧ a.pair.released = false ∧ a.pair.mstate = .hold ∧
    3 + fld (force a aPAIR) 1 4 ≤ a.tick.num ∧ a.tick.t0 + 10000 ≤ a.time.ns ∧ tablesOk a = true ∧
    (soloAt 0 0 []).pair.mstate ≠ .sleep ∧ b.pair.role ≠ .solo ∧ (soloAt 0 0 []).pair.role = .solo ∧ hasTwin (soloAt 0 0 []) = true := by decide +kernel

/-- An epoch of one block at 0x8000. -/
def epoch1 : Staged :=
  { hdr := ⟨1, 8, 80000, 1, 1, 0, 1, false, false⟩, blocks := [(0x8000, [⟨7, 0⟩])], edits := [], forces := [] }

theorem witness_HarvestEpochs :
    let s : State := { paired .standby .shadow 0 0 with
      pair := { (paired .standby .shadow 0 0).pair with staged := some epoch1 } }
    let a : State := { paired .active .run 0 0 with
      pair := { (paired .active .run 0 0).pair with ship := some ⟨epoch1.hdr, [], [], [], [], 0, true, true⟩ } }
    let w : State := { s with regs := regsOf [(aPROT, 4)] }
    (∀ b ∈ epoch1.blocks, ∀ i < b.2.length, permitted s 2 (engAddr (b.1.toNat + i)) true = true) ∧
    ¬ (∀ b ∈ epoch1.blocks, ∀ i < b.2.length, permitted w 2 (engAddr (b.1.toNat + i)) true = true) ∧
    receives w = true ∧ goodFrame w frame1 = true ∧
    receives s = true ∧ goodFrame s frame1 = true ∧ s.pair.staged = some epoch1 ∧ s.prot.frozen.getLsbD 2 = false ∧
    (262143 : BitVec 19).toNat < 262144 ∧ 262144 ≤ (262144 : BitVec 19).toNat ∧ epoch1.hdr.seq = 1 ∧ epoch1.blocks.length = epoch1.hdr.blocks ∧ (1 : Word) = s.pair.epochSeq + 1 ∧ tablesOk s = true ∧
    a.pair.ship = some ⟨epoch1.hdr, [], [], [], [], 0, true, true⟩ := by decide +kernel

/-- The bytes of a configuration slot up to its check word: one section, SYSTEM, of four bytes (R340). -/
def slotBody : List Byte :=
  byteList 4 0x5A3CC0F6 ++ byteList 2 1 ++ byteList 2 1 ++ byteList 4 1 ++ byteList 4 120 ++ [2, 0, 0, 0] ++ byteList 12 0 ++
  byteList 4 1 ++ byteList 4 48 ++ byteList 4 4 ++ byteList 4 (byteCrc [7, 0, 0, 0]).toNat ++ [7, 0, 0, 0]

/-- A configuration slot that passes every check of R342. -/
def goodSlot : CfgSlot := { (default : CfgSlot) with
  bytes := slotBody ++ byteList 4 (byteCrc slotBody).toNat ++ List.replicate 64 0, sigOk := true }

/-- R342: what each check finds in a slot that breaks it alone. -/
theorem test_slot_checks :
    let s := soloAt 0 0 []
    slotBody.length = 52 ∧ slotResult s goodSlot = 0 ∧ slotResult s default = 1 ∧
    slotResult s { goodSlot with bytes := putBytes goodSlot.bytes 17 [1] } = 2 ∧
    slotResult s { goodSlot with bytes := putBytes goodSlot.bytes 52 [goodSlot.bytes.getD 52 0 + 1] } = 3 := by decide +kernel

/-- R340, R343: the check word of a stamped slot. -/
theorem test_slot_stamp :
    let s := soloAt 0 0 []
    slotResult s (slotStamp 9 { goodSlot with bytes := putBytes goodSlot.bytes 48 [8] }) = 4 ∧
    slotResult s { goodSlot with sigOk := false } = 5 ∧ slotResult s (slotStamp 9 goodSlot) = 0 ∧
    slotGen (slotStamp 9 goodSlot) = 9 := by decide +kernel

/-- R224: the slot that a pull brings, and that the active sends. -/
theorem witness_PairRolesAndCommands_slot :
    let a := paired .active .run 80150000 0
    slotResult { a with pair := { role := .undecided, mstate := .ready, cfgPull := some goodSlot } } goodSlot = 0 ∧
    newestSlot { a with sys := { powered := true, slot0 := goodSlot } } = some goodSlot := by decide +kernel

theorem witness_PairRolesAndCommands :
    let a := paired .active .run 80150000 0
    let u : State := { soloAt 80150000 0 [] with
      pair := { role := .undecided, mstate := .ready, lane0 := { up := true }, partnerRole := .active, listenUntil := some 0 }
      sys := { powered := true, cfgDefaulted := true } }
    let f : State := { u with pair := { u.pair with cfgPull := some goodSlot } }
    let b : State := { u with pair := { u.pair with cfgPull := some default } }
    let d : State := { u with sys := { powered := true } }
    let l : State := { soloAt 0 0 [] with pair := { role := .undecided, mstate := .ready, listenUntil := some 0 }
                                          le := { progId := 1, autoRun := true } }
    let n : State := { a with fixed := { variant := 3 } }
    rowMay a (.handover 1) = true ∧ (1 : BitVec 16) ≠ 0xC35A ∧ hasTwin a = true ∧ hasTwin n = false ∧
    rowMay a (.handover 0xC35A) = true ∧ a.pair.role = .active ∧ a.pair.mstate = .run ∧ lanesDown a = false ∧
    a.pair.partnerState = some .shadow ∧ a.pair.partnerCurrent = true ∧ a.pair.handTries = none ∧ a.pair.resync = false ∧
    16 ≤ 16 ∧ rowMay u (.pull 0xC35A) = true ∧ hasTwin u = true ∧ u.pair.role = .undecided ∧ lanesDown u = false ∧
    u.sys.cfgDefaulted = true ∧ updBusy u = false ∧ goodFrame u frame1 = true ∧ goodFrame f frame1 = true ∧
    goodFrame b frame1 = true ∧ goodFrame a frame1 = true ∧
    a.cp.down = false ∧ slotResult b default ≠ 0 ∧ f.sys.pendReset = none ∧
    u.pair.listenUntil = some 0 ∧ 0 ≤ u.time.cyc ∧ d.sys.cfgDefaulted = false ∧ d.pair.cfgMismatch = false ∧
    d.pair.seatConflict = false ∧ d.sys.fatalHold = false ∧ lanesDown d = false ∧ d.pair.partnerRole = .active ∧
    hasTwin d = true ∧ l.pair.stayReady = false ∧ l.pair.refSeen = false ∧ l.pair.refHeard = false ∧
    lanesDown l = true ∧ l.pair.tokenIn = false ∧ foreignDrive l = false ∧ hasProg l = true ∧ budgetOk l = true ∧
    tickRuns a = true ∧ a.tick.evalDone = false ∧ a.tick.t0 + 150000 ≤ a.time.ns ∧ a.pair.role ≠ .solo ∧
    rowMay n .pairLastTime = true ∧ rowMay n .pairEpochTick = true ∧ rowMay a .pairLastTime = true ∧
    rowMay a .pairEpochTick = true := by decide +kernel

/-! ### Witnesses: time and buses -/

theorem witness_StationTime :
    let r : State := { soloAt 0 0 [] with tick := {}, pair := { mstate := .ready, role := .solo } }
    let o := soloAt 0 0 [(aTIME + 0x20, 2000000000)]
    let x := soloAt 0 0 [(aTIME + 0x20, 2000000001)]
    let h : State := { soloAt 0 600000000 [] with time := { cyc := 600000000, disc := 1, ppsCyc := some 0, slewing := true } }
    let d : State := { soloAt 0 5 [(aTIME + 0x1C, 0x14642504)] with time := { cyc := 5, ppsCyc := some 0, locked := true } }
    let p : State := { soloAt 0 0 [] with time := { ns := 1000000019, valid := true } }
    let g (s : State) := rowMay s (.timeSet 0) && rowMay s (.slew 0) && rowMay s (.slewStop 0) && rowMay s .timeLo && rowMay s .countLo
    g r = true ∧ g o = true ∧ g x = true ∧ h.time.disc = 1 ∧ h.sys.inReset = false ∧ d.time.ppsCyc = some 0 ∧ d.time.pending = none ∧
    d.pair.mstate ≠ .shadow ∧ d.tick.on = true ∧ d.time.valid = false ∧ p.time.valid = true ∧    r.time.sets = 0 ∧ d.time.sets = 0 ∧ r.tick.on = false ∧ r.tick.goAt = none ∧ r.time.valid = false ∧ r.time.pending = none ∧ (soloAt 0 0 []).tick.on = true ∧
    (force o (aTIME + 0x20)).toInt ≤ 2000000000 ∧ 2000000000 < (force x (aTIME + 0x20)).toInt ∧
    h.time.slewing = true ∧ h.time.slewLeft = 0 ∧ h.time.holdover = false ∧ 0 + 600000000 ≤ h.time.cyc ∧
    fbit (force d (aTIME + 0x1C)) 2 = true ∧ fld (force d (aTIME + 0x1C)) 3 2 = 0 ∧ d.time.locked = true ∧
    fbit (force d (aUART 0)) 1 = false ∧ d.cp.down = false ∧ p.time.ns % 1000000000 < 20 ∧
    p.time.ppsSec ≠ some (p.time.ns / 1000000000) ∧ h.sys.powered = true ∧ h.pair.mstate ≠ .sleep := by decide +kernel

/-- A SOLO reference master of bus 0, with node 0 scheduled. -/
def master (ns : Nat) : State := soloAt ns 0
  [(aCAN 0, 0x25), (aCAN 0 + 0x14, 5000), (aNODE 0, 0x03006001), (aNODE 0 + 4, 1000)]

theorem witness_BusSchedule :
    let s := master 80010000
    let f : State := { master 85000000 with tick := { (master 0).tick with refDone := 1 }, bus := [(0, { schedRun := true })] }
    let a : State := { s with upd := { phase := .armed, actTick := 208 } }
    let b := paired .active .run 80010000 0
    tablesOk s = true ∧ sendsRef s 0 = true ∧ s.tick.refDone.getLsbD 0 = false ∧ s.tick.t0 + 10000 ≤ s.time.ns ∧
    canHears s 0 = true ∧ (2 : BitVec 11).toNat ≠ 1 + seatBit s ∧ sendsRef f 0 = true ∧ f.tick.freeDone.getLsbD 0 = false ∧ f.tick.refDone.getLsbD 0 = true ∧
    (bu f 0).schedRun = true ∧ sendsRef (soloAt 80010000 0 []) 1 = false ∧ tickRuns (soloAt 80010000 0 []) = true ∧ tickRuns a = true ∧
    f.tick.t0 + 1000 * fld (canCfg f 0 0x14) 0 17 ≤ f.time.ns ∧ actT0 a ≤ a.time.ns + 60000000000 ∧
    a.time.ns + 1000000000 ≤ actT0 a ∧ (1 : Nat) ≠ a.time.ns / 1000000000 ∧ nodeSched s 0 = true ∧
    canHears s (0 / 36) = true ∧ nodeDue s 0 8 = true ∧ 0 < nNodes s ∧ hasTwin b = true ∧
    1000 * fld (nodeCfg s 0 8) 0 16 = 0 ∧ 1000 * fld (nodeCfg s 0 8) 16 8 = 10000 ∧
    nodeFormat s 0 = true ∧ (nd s 0).waiting = false ∧
    nodeDue (soloAt 0 0 [(aCAN 0, 0x21), (aNODE 0, 0x03006013)]) 0 8 = false := by decide +kernel

theorem witness_CanFramesAndErrors :
    let f : CanFrame := ⟨0x7FF, false, false, false, false, false, 0, 0, []⟩
    let s := soloAt 0 0 [(aCAN 3, 0x21), (aCAN 3 + 0x400, 0x7FF)]
    let m := soloAt 0 0 [(aCAN 3, 0x01), (aCAN 3 + 0x100, 0x80000000), (aCAN 3 + 0x860, 0x7FF)]
    let q : State := { m with bus := [(3, { tx := [(14, { pending := true })], state := 2 })] }
    let e : State := { m with bus := [(3, { tx := [(14, { pending := true })] })] }
    let z : State := { m with bus := [(3, { tx := [(15, { pending := true })] })] }
    let h : State := { m with bus := [(3, { rxErrs := 128, state := 1, fifo := List.replicate 64 f })] }
    let r : State := { m with bus := [(3, { txErrs := 250, cur := some ⟨⟨0, 1, false, false, false, 0, []⟩, 0, 5, 8⟩ })] }
    tablesOk m = true ∧ canHears m 3 = true ∧ filterHit m 3 f = true ∧ nodeId m 3 0xC f = false ∧
    reservedId f = false ∧ m.prot.frozen.getLsbD 3 = false ∧ (bu m 3).fifo.length < 64 ∧ 3 < nBus m ∧
    (bu m 3).rxErrs.toNat ≤ 127 ∧ 127 < (bu h 3).rxErrs.toNat ∧ 64 ≤ (bu h 3).fifo.length ∧ tablesOk h = true ∧
    canHears h 3 = true ∧ filterHit h 3 f = true ∧
    rowMay m (.canRxPop 3 1) = true ∧ rowMay m (.txReq 3 14) = true ∧ rowMay m (.txReq 3 15) = true ∧ rowMay e (.txAbort 3 14) = true ∧
    (txEntry m 3 14).pending = false ∧ (txEntry m 3 15).pending = false ∧ txBadId m 3 15 = true ∧ txBadId m 3 14 = false ∧
    (txEntry e 3 14).pending = true ∧ canMode e 3 = 1 ∧ canHears e 3 = true ∧
    (∀ j < 16, (txEntry e 3 j).pending = true → txBadId e 3 j = false) ∧ (bu e 3).cur = none ∧
    txFits e 3 14 ((0 - 0) / 5 * 5) = true ∧ txFirst e 3 14 ((0 - 0) / 5 * 5) = true ∧
    fbit (canCfg e 3 0x1C) 1 = false ∧ fbit (canCfg (soloAt 0 0 [(aCAN 3 + 0x1C, 2)]) 3 0x1C) 1 = true ∧
    (txEntry z 3 15).pending = true ∧ txBadId z 3 15 = true ∧ tablesOk z = true ∧
    fbit (canCfg m 3 0) 2 = false ∧ f.fdf = false ∧ errStep 0 0 4 0 = false ∧ errStep 0 0 8 0 = true ∧ canHears r 3 = true ∧
    errStep (bu r 3).txErrs.toNat (bu r 3).rxErrs.toNat 255 0 = true ∧ 255 < (bu r 3).txErrs.toNat + 8 ∧ tablesOk r = true ∧
    (bu r 3).cur = some ⟨⟨0, 1, false, false, false, 0, []⟩, 0, 5, 8⟩ ∧ (5 : Nat) ≠ r.tick.num ∧
    tablesOk e = true ∧ (bu q 3).state = 2 ∧ tablesOk q = true ∧ (1 : BitVec 2) ≠ (bu m 3).state ∧
    tablesOk s = true := by decide +kernel

/-! ### Witnesses: the communication processor and its ports -/

theorem witness_CpAndInterrupts :
    let s : State := { soloAt 0 0 [(aIC + 4 * 400, 0x1F), (aIC + 4 * 541, 0x1F)] with ev := { pend := [541, 400] } }
    let w : State := { soloAt 0 400000000 [] with
      wd := { cpRunning := true, cpDeadline := 400000000 }, cp := { oemStopped := true, down := true } }
    rowMay s .icClaim = true ∧ rowMay s (.icComplete 541) = true ∧ rowMay s (.eqPop 0 1) = true ∧ rowMay s (.eqPop 1 1) = true ∧
    rowMay s (.cpwdService 0xC35A) = true ∧ w.sys.inReset = false ∧ w.pair.mstate ≠ .sleep ∧ w.wd.cpRunning = true ∧ claimable s 400 = true ∧ (∀ m < 544, claimable s m = true → icPrio s m < icPrio s 400 ∨ icPrio s m = icPrio s 400 ∧ 400 ≤ m) ∧
    (∀ m < 544, claimable (soloAt 0 0 []) m = false) ∧ (condSources s).contains 541 = false ∧ cpRuns s = true ∧
    s.cp.oemValid = true ∧ s.cp.oemStopped = false ∧ w.sys.powered = true ∧ w.wd.cpDeadline ≤ w.time.cyc ∧
    w.cp.down = true ∧ w.cp.oemStops.length < 3 ∧ w.cp.oemStopCyc + 200000000 ≤ w.time.cyc := by decide +kernel

/-- UART 1 with the settings `cfg`, in the state `x`. -/
def port (cfg : Word) (x : UartSt) (cyc : Nat) : State :=
  { soloAt 0 cyc [(aUART 1, cfg)] with cp := { uart := if x = {} then [] else [(1, x)] } }

theorem witness_SerialPorts :
    let g : State := { soloAt 0 0 [(aUART 1, 0x41), (aUART 1 + 0xC, 0x03E83C32)] with cp := { uart := [(1, { keyed := true })] } }
    let r : State := { soloAt 0 0 [(aUART 1, 0x41), (aUART 1 + 0xC, 0x03E83C32)] with
      cp := { uart := [(1, { hold := true, level := 100000 })] } }
    rowMay (port 1 {} 0) (.uartDataWrite 1 0) = true ∧ rowMay (port 0x41 {} 0) (.uartDataWrite 1 0) = true ∧
    rowMay (port 1 {} 0) (.uartDataRead 1) = true ∧ fbit (uartCfg (port 0x41 { leading := true } 0) 1 0) 8 = false ∧
    g.sys.powered = true ∧ g.pair.mstate ≠ .sleep ∧ tablesOk (port 1 {} 0) = true ∧ (ua (port 1 { tx := List.replicate 255 0, busy := true } 0) 1).tx.length < 256 ∧
    fbit (uartCfg (port 1 {} 0) 1 0) 0 = true ∧ fbit (uartCfg (port 1 {} 0) 1 0) 6 = false ∧
    fbit (uartCfg (port 0x41 {} 0) 1 0) 6 = true ∧ fbit (uartCfg (port 0x41 {} 0) 1 0) 7 = false ∧
    tablesOk (port 1 { rx := [(5, false, true)] } 0) = true ∧
    0 + 200000 * fld (uartCfg (port 0x41 { leading := true } 0) 1 8) 0 8 ≤ 0 ∧
    isRadio g 1 = true ∧ 0 + tailCyc (port 0x41 { tailing := true } 0) 1 ≤ 0 ∧ govOn g 1 = true ∧ (ua g 1).keyed = true ∧ (ua g 1).level ≤ 0 ∧
    (100 * fld (uartCfg r 1 0xC) 16 16 : Int) ≤ (ua r 1).level ∧ cpRuns g = true ∧
    0 + fld (uartCfg (port 0x401 { rxCyc := some 0 } 200000000) 1 0) 10 4 * charCyc (port 0x401 {} 0) 1 / 2 ≤ 200000000 ∧
    0 + charCyc (port 1 { busy := true } 200000000) 1 ≤ 200000000 ∧
    127 ≤ (ua (port 1 { rx := List.replicate 255 (0, false, false) } 0) 1).rx.length ∧ (1 : BitVec 4) ≠ (ua g 1).lines := by
  decide +kernel

theorem witness_PortsAndSessions :
    let x : Session := ⟨5, 0, 0, some 0⟩
    let s : State := { soloAt 0 0 [] with
      cp := { link := 3, sessions := [(2, some x)], tokLock := [(1, some 0)], ethCount := [(1, 20000)], usb := true } }
    let m : TokenMsg := ⟨15, 0, 0, 5, 1440, hmac 0 (tokenBytes ⟨15, 0, 0, 5, 1440, []⟩)⟩
    let r : State := { soloAt 0 0 [] with pair := {}, sys := { powered := true, recovery := true } }
    ethOn s true = true ∧ cpRuns s = true ∧ s.prot.frozen.getLsbD 4 = false ∧ s.cp.ethSec = s.time.cyc / 200000000 ∧
    20000 ≤ mget (fun _ => 0) s.cp.ethCount (b2n true) ∧ mget (fun _ => 0) s.cp.ethCount (b2n false) < 20000 ∧
    (soloAt 0 0 []).cp.link.getLsbD (b2n true) ≠ true ∧ r.sys.recovery = true ∧ r.pair.mstate = .init ∧
    ifaceOpen s 2 = true ∧ session s 2 = some x ∧ m.nonce = x.nonce ∧ tokenScope s m = true ∧ ifaceLive s 2 = true ∧
    1 ≤ m.validMin.toNat ∧ tokenMac s m = true ∧ tokenMac s { m with mac := [] } = false ∧ m.validMin.toNat ≤ 1440 ∧
    m.roles.toNat < 16 ∧ mget (fun _ => none) s.cp.tokLock 1 = some 0 := by decide +kernel

theorem witness_FaultsAndWatchdogs :
    let s := soloAt 0 0 [(aPROT, 2)]
    let t : State := { soloAt 0 0 [(aWD + 28, 0x101)] with wd := { twd := [(7, { count := 1, started := true })] } }
    let b : State := { soloAt 0 400000000 [] with pair := { mstate := .run, role := .solo } }
    let z : State := { soloAt 0 720000000000 [] with pair := { mstate := .sleep } }
    let c : State := { soloAt 0 20000000 [] with wd := { clkFailCyc := some 0 }, sys := { powered := true, inReset := true } }
    let e : State := { c with time := { cyc := 19999999 } }
    let f : State := { soloAt 0 0 [] with nv := { flBusy := some (1, false, 0) } }
    let r := soloAt 0 0 []
    permitted s 1 0x31000000 true = false ∧ s.prot.frozen.getLsbD 1 = false ∧ cpRuns s = true ∧ assigned 0x50000000 = false ∧
    assigned 0x08400000 = true ∧ flBankBusy f 0x08400000 = true ∧ cpRuns f = true ∧ (2 : BitVec 3) ≠ 7 ∧
    permitted (soloAt 0 0 [(aPROT, 4)]) 2 0x31000000 false = false ∧ rowMay r (.freezeClr 0xC35A0002) = true ∧
    (0xC35A0002 : Word).extractLsb' 16 16 = 0xC35A ∧ (0xC35A0002 : Word).getLsbD 2 = false ∧
    inRun t = true ∧ twdEn t 7 = true ∧ (twd t 7).started = true ∧ twdTimeout t 7 ≤ (twd t 7).count ∧ 0 < (twd t 7).count ∧
    t.wd.expired.getLsbD 7 = false ∧ bwdRan b 1 = true ∧ bwdRan b 2 = true ∧ b.tick.on = true ∧ b.wd.bwdHalf = false ∧
    b.sys.pendReset = none ∧ z.sys.pendReset = none ∧ bwdRan z 1 = true ∧ z.pair.mstate = .sleep ∧
    fbit (force z (aSYS + 0x14)) 1 = true ∧ (200 : Int).natAbs ≤ 200 ∧ 200 < (201 : Int).natAbs ∧ s.sys.powered = true ∧
    s.sys.inReset = false ∧ s.wd.backupFail = false ∧ c.wd.clkFailCyc = some 0 ∧ 0 + 20000000 ≤ c.time.cyc ∧
    c.sys.supplyLost = false ∧ e.wd.clkFailCyc = some 0 ∧ e.time.cyc < 0 + 20000000 ∧ e.sys.inReset = true ∧
    (33 : BitVec 6).toNat < 34 ∧ s.fcu.parityBad.getLsbD 33 = false ∧ s.pair.mstate ≠ .sleep ∧
    rowMay r .fcuFirstTimeLo = true ∧ rowMay r .fcuFatalTimeLo = true := by decide +kernel

/-! ### Witnesses: the record store and the log -/

/-- A mounted store whose head is sector 0, with one record of key 0x100, and the registers `regs`. -/
def store (regs : SMap Word) : State :=
  { soloAt 0 12000000000 regs with
    nv := { mounted := true, startup := true, head := some 0, level := 16
            sectors := [(0, { erased := false, openSeq := 1, role := 1, slots := [some ⟨0x100, 0, false, false, 1, 1, [9]⟩] })] } }

theorem witness_RecordStore :
    let w := store [(aNV + 8, 0x14000100)]
    let r : NvReq := ⟨0x100, 0, false, [7], 2⟩
    let k (v : Word) := (force (store [(aNV + 8, v)]) (aNV + 8)).toNat % 65536
    let fq : State := { w with nv := { w.nv with queue := List.replicate 64 { r with key := 0x101 } } }
    let c : State := { w with nv := { w.nv with cur := some (r, false) } }
    let q : State := { w with nv := { w.nv with queue := [r] } }
    let h : State := { q with nv := { q.nv with head := none } }
    let l : State := { w with nv := { w.nv with queue := [r], level := 15 } }
    let e : State := { w with nv := { w.nv with reclaiming := some 0 } }
    let v : State := { w with nv := { w.nv with startup := false, recovery := true }, time := { cyc := 120000000000 } }
    let p := store [(aNV + 0x64, 0x1001), (aNV + 0x68, 0)]
    rowMay (soloAt 0 0 []) .nvWrite = true ∧ (soloAt 0 0 []).nv.mounted = false ∧ rowMay w .nvWrite = true ∧ w.nv.mounted = true ∧
    k 0x14000100 ≠ 0 ∧ k 0x14000100 < 32768 ∧ fld (force w (aNV + 8)) 24 5 ≤ 20 ∧ (entriesDue w).length < 2048 ∧
    64 ≤ fq.nv.queue.length ∧
    fq.nv.queue.any (fun q => q.key = 0x100 && q.fmt = 0) = false ∧ (entriesDue fq).length < 2048 ∧
    w.nv.queue.length < 64 ∧ (winner w 0x100 0).isSome = true ∧ winner w 0x101 0 = none ∧ 32768 ≤ k 0x8000 ∧
    20 < fld (force (store [(aNV + 8, 0x15000100)]) (aNV + 8)) 24 5 ∧ q.nv.queue = [r] ∧ q.nv.cur = none ∧ q.nv.moving = [] ∧
    16 ≤ q.nv.level ∧ headFree q = true ∧ headFree h = false ∧ h.nv.reclaiming = none ∧ (erasedSecs h).length = 127 ∧
    l.nv.level < 16 ∧ c.nv.cur = some (r, false) ∧ c.nv.head = some 0 ∧ headFree c = true ∧ r.crit = false ∧
    e.nv.reclaiming = some 0 ∧ e.nv.eraseTries = 0 ∧ w.nv.startCyc + 12000000000 ≤ w.time.cyc ∧ w.nv.startup = true ∧
    v.nv.recCyc + 120000000000 ≤ v.time.cyc ∧ v.nv.recovery = true ∧ rowMay w (.nvTest 1) = true ∧
    inRun { p with pair := {} } = false ∧ p.le.running = false ∧ p.prot.frozen.getLsbD 2 = false ∧
    (let v : State := { p with le := { sealedReady := true, sealedTick := 8, scanTick := 8 }, nv := { p.nv with roundAcc := some 7 } }
     inRun v = true ∧ v.nv.roundAcc = some 7 ∧ sealServes v 7 = true) ∧ p.nv.mounted = true ∧ p.nv.pmap = [] ∧
    fbit (force p (aNV + 0x64)) 12 = true ∧ p.nv.roundCyc + 200000000 * fld (force p (aNV + 0x64)) 0 12 ≤ p.time.cyc := by
  decide +kernel

/-- A store of 17 full sectors, every record of a key of its own from 0x200. -/
def storeFull : State := { store [(aNV + 8, 0x14000100)] with nv := { mounted := true, sectors := (List.range 17).map (fun i =>
  (i, { erased := false, openSeq := 1, role := 1, slots := (List.range 127).map (fun j =>
    some ⟨BitVec.ofNat 16 (0x200 + 127 * i + j), 0, false, false, 0, 1, []⟩) })) } }

/-- Distinct elements that are added to a list one by one all stand in it. -/
theorem foldl_addNew {α β : Type} [DecidableEq β] (f : α → β) (l : List α) (acc : List β) (h : (acc ++ l.map f).Nodup) :
    l.foldl (fun a x => addNew (f x) a) acc = acc ++ l.map f := by
  induction l generalizing acc with
  | nil => simp
  | cons x r ih =>
    have hx : f x ∉ acc := by
      intro hm; simp only [List.map_cons, List.nodup_append] at h; exact h.2.2 _ hm _ (by simp) rfl
    have e : addNew (f x) acc = acc ++ [f x] := by simp [addNew, hx]
    simp only [List.foldl_cons, e, List.map_cons]
    rw [ih _ (by simpa using h)]
    simp

/-- The keys of one of its sectors. -/
def fullKeys (i : Nat) : List (BitVec 16 × BitVec 4) := (List.range 127).map (fun j => (BitVec.ofNat 16 (0x200 + 127 * i + j), 0))

theorem storeFull_keys : (validRecs storeFull).map (fun r => (r.key, r.fmt)) = (List.range 17).flatMap fullKeys := by
  have f : ∀ i, ∀ j < 127, i < 17 → keyOk (BitVec.ofNat 16 (0x200 + 127 * i + j)) = true := by
    intro i j hj hi
    simp only [keyOk, Bool.and_eq_true, decide_eq_true_eq]
    constructor <;>
    · intro h
      have := congrArg BitVec.toNat h
      rw [BitVec.toNat_ofNat, Nat.mod_eq_of_lt (by omega)] at this
      simp at this
      try omega
  simp only [validRecs, storeFull, List.map_flatMap, List.flatMap_map]
  refine List.flatMap_congr fun i hi => ?_
  have hi := List.mem_range.mp hi
  rw [if_pos (by rfl), List.filterMap_map, List.filter_eq_self.mpr]
  · simp [fullKeys, Function.comp_def]
  · intro r hr
    simp only [Function.comp_def, id_eq, List.mem_filterMap, List.mem_range] at hr
    obtain ⟨j, hj, e⟩ := hr
    obtain rfl := Option.some.inj e
    simp [f i j hj hi]

theorem entriesDue_idle (s : State) (h : s.nv.queue = []) (c : s.nv.cur = none) :
    entriesDue s = (validRecs s).foldl (fun l r => addNew (r.key, r.fmt) l) [] := by simp [entriesDue, entries, h, c]

theorem fullKeys_mem {i : Nat} {k : BitVec 16 × BitVec 4} (hi : i < 17) (h : k ∈ fullKeys i) :
    512 + 127 * i ≤ k.1.toNat ∧ k.1.toNat < 512 + 127 * (i + 1) := by
  simp only [fullKeys, List.mem_map, List.mem_range] at h
  obtain ⟨j, hj, rfl⟩ := h
  simp only [BitVec.toNat_ofNat]
  omega

theorem storeFull_entries : entriesDue storeFull = (List.range 17).flatMap fullKeys := by
  have n : ((validRecs storeFull).map (fun r => (r.key, r.fmt))).Nodup := by
    rw [storeFull_keys, List.nodup_flatMap]
    constructor
    · intro i hi
      have hi := List.mem_range.mp hi
      refine List.Nodup.map_on ?_ List.nodup_range
      intro a ha b hb h
      have := congrArg (fun p => p.1.toNat) h
      simp only [List.mem_range, BitVec.toNat_ofNat] at ha hb this
      omega
    · refine List.Pairwise.imp_of_mem ?_ List.nodup_range
      intro a b ha hb h k hka hkb
      have p := fullKeys_mem (List.mem_range.mp ha) hka
      have q := fullKeys_mem (List.mem_range.mp hb) hkb
      omega
  rw [entriesDue_idle storeFull rfl rfl, foldl_addNew _ _ [] (by simpa using n), List.nil_append, storeFull_keys]

theorem witness_RecordStore_full : rowMay storeFull .nvWrite = true ∧ storeFull.nv.mounted = true ∧
    2048 ≤ (entriesDue storeFull).length ∧ (0x100, 0) ∉ entriesDue storeFull := by
  refine ⟨by decide +kernel, rfl, ?_, ?_⟩
  · rw [storeFull_entries]
    simp [List.length_flatMap, fullKeys]
  · rw [storeFull_entries]
    intro h
    obtain ⟨i, hi, hk⟩ := List.mem_flatMap.mp h
    have p := fullKeys_mem (List.mem_range.mp hi) hk
    simp at p
    omega

theorem witness_CpFlash : (soloAt 0 0 []).nv.flBusy = none ∧ fld 0xC35A0001 16 16 = 0xC35A ∧
    rowMay (soloAt 0 0 []) (.flProgram 0xC35A0001 0) = true ∧ (some ((1 : BitVec 1), true, 0)).isSome = true ∧
    (0 : BitVec 2).toNat ≠ fld 0xC35A0001 0 1 ∧ (1 : BitVec 2).toNat = fld 0xC35A0001 0 1 := by decide +kernel

theorem witness_BitternLog :
    let s := soloAt 0 12000000000 []
    let b : State := { s with btn := { restored := true, opMin := 10 }, nv := { mounted := true } }
    let c : State := { s with cp := { sessions := [(2, some ⟨5, 8, 0, none⟩)], usb := true } }
    let r : ClearReq := ⟨7, 0, 0, hmac 0 ([7] ++ byteList 8 0 ++ byteList 16 0)⟩
    (∃ i < 3, ifaceLive c i = true) ∧ (∀ i < 3, ifaceLive s i = false) ∧ rowMay s (.noticeRead 255) = true ∧
    alive s = true ∧ s.pair.mstate ≠ .sleep ∧ s.btn.minCyc + 12000000000 ≤ s.time.cyc ∧ roundFree b = true ∧
    b.btn.lastRound.toNat + 10 ≤ b.btn.opMin.toNat ∧ rowMay b (.persist 1) = true ∧ rowMay s (.btnClear 0xC35A0007) = true ∧
    (0xC35A0007 : Word).extractLsb' 16 16 = 0xC35A ∧
    session c 2 = some ⟨5, 8, 0, none⟩ ∧ ifaceLive c 2 = true ∧ clearMac c r = true ∧ r.serial = c.fixed.serial ∧ r.nonce = c.btn.nonce ∧
    (8 : BitVec 8).getLsbD 3 = true ∧ r.scope.toNat < 8 := by decide +kernel

/-! ### Witnesses: power, starts, stops and register writes -/

theorem witness_PowerAndReset :
    let s := soloAt 0 0 []
    let i : State := { s with pair := {} }
    let r : State := { s with sys := { powered := true, pendReset := some 5 } }
    let y : State := { s with pair := { mstate := .ready }, tick := {} }
    let n : State := { State.reset with upd := { sigA := false } }
    i.sys.recovery = false ∧ rowMay s (.softReset 0xC35A0001) = true ∧ rowMay y (.tickGo 0xC35A0002) = true ∧ r.sys.inReset = false ∧
    r.sys.supplyLost = false ∧ n.sys.powered = false ∧ s.sys.powered = true ∧ s.sys.supplyLost = false ∧ (let l : State := { s with sys := { powered := true, supplyLost := true } }
      l.sys.supplyLost = true ∧ l.time.cyc < l.sys.lossCyc + 1600000) ∧ tablesOk s = true ∧ alive s = true ∧
    s.sys.supplyLow = !true ∧ bootBank i = some 0 ∧ i.pair.mstate = .init ∧ i.sys.inReset = false ∧
    bootBank State.reset = some 0 ∧ State.reset.sys.powered = false ∧ bootBank n = none ∧ fld 0xC35A0001 16 16 = 0xC35A ∧
    fld 0xC35A0001 0 4 = 1 ∧ s.sys.pendReset = none ∧ r.sys.pendReset = some 5 ∧ anyRunning r = false ∧
    fld 0xC35A0002 0 4 = 2 ∧ y.pair.mstate = .ready ∧ y.tick.on = false ∧ y.tick.goAt = none := by decide +kernel

theorem witness_RunStopAndSleep :
    let s := held (soloAt 0 0 [])
    let y : State := { s with pair := { mstate := .ready, role := .solo } }
    let p : State := { y with le := { progId := 1 } }
    let o : State := { p with regs := regsOf [(aLE + 0x24, 3595681)] }
    let g : State := { y with slc := { grp := [(31, { phase := .running })] } }
    let d : State := { y with sys := { powered := true, sleepPend := true }, nv := { mounted := true } }
    let e : State := { d with sys := { d.sys with sleepRound := true } }
    let f : State := { e with btn := { busy := true } }
    let x : State := { s with le := { stopping := true } }
    let z : State := { s with pair := { mstate := .sleep }, regs := regsOf [(aSYS + 0x14, 0x3C)], cp := {} }
    let a : State := { s with pair := { mstate := .run, role := .active } }
    fld 0xC35A0001 16 16 = 0xC35A ∧ (0xC35A0001 : Word).getLsbD 0 = true ∧ (0xC35A0000 : Word).getLsbD 0 = false ∧ fld 1 16 16 ≠ 0xC35A ∧
    rowMay s (.leRun 1) = true ∧ rowMay s (.sleep 1) = true ∧ rowMay a (.leRun 0xC35A0001) = true ∧ a.pair.role = .active ∧
    rowMay y (.leRun 0xC35A0001) = true ∧ rowMay y (.sleep 0xC35A0001) = true ∧ rowMay o (.leRun 0xC35A0001) = true ∧
    s.pair.role = .solo ∧ s.pair.mstate ≠ .ready ∧ y.sys.fatalHold = false ∧ { y.sys with fatalHold := true }.fatalHold = true ∧
    y.le.progId = 0 ∧ p.le.progId ≠ 0 ∧ budgetOk o = false ∧ budgetOk p = true ∧ s.pair.mstate = .run ∧ tablesOk s = true ∧
    anyRunning g = true ∧ rowMay g (.sleep 0xC35A0001) = true ∧ anyRunning y = false ∧ anyRunning s = false ∧
    d.sys.sleepPend = true ∧ d.sys.sleepRound = false ∧ roundFree d = true ∧ anyRunning d = false ∧ e.sys.sleepRound = true ∧
    e.btn.busy = false ∧ nvBusy e = false ∧ f.btn.busy = true ∧ f.sys.sleepRound = true ∧
    x.le.stopping = true ∧ anyRunning x = false ∧ x.pair.mstate = .run ∧
    fbit (force z (aSYS + 0x14)) (wakeBit .vbus) = true ∧ z.sys.pendReset = none ∧ z.pair.mstate = .sleep ∧ z.cp.usb = false ∧
    (force z (aSYS + 0x14)).getLsbD 4 = true ∧ (force z (aSYS + 0x14)).getLsbD 5 = true ∧ hasTwin z = true ∧
    true ≠ z.pair.tokenIn ∧ z.sys.powered = true ∧ (force z (aSYS + 0x14)).getLsbD (2 + 1) = true ∧
    (ua z 1).lines.getLsbD 0 = false ∧ (1 : BitVec 4).getLsbD 0 = true := by decide +kernel

theorem witness_RegisterWrites :
    let s := soloAt 0 0 []
    let y : State := { s with pair := { mstate := .ready, role := .solo } }
    let n : State := { s with fixed := { variant := 3 } }
    let h : State := held s
    let w : SlotWrite := { slot := 1, stage := 0, cfg := goodSlot, pulled := false }
    regRow .pwrOn = some (aPNL, true) ∧ rowHeld s .pwrOn = true ∧ rowHeld s .editOpen = false ∧
    permitted (soloAt 0 0 [(aPROT, 2)]) 1 aPNL true = false ∧ sessionHolds h 4 = true ∧ updBusy { h with upd := { busy := true } } = true ∧
    updBusy h = false ∧ w.stage = 0 ∧ (vendorNeeds s (aLE + 0x400)).all (sessionHolds s) = false ∧
    (vendorNeeds s aRFX).all (sessionHolds s) = true ∧ (vendorNeeds h aLE).all (sessionHolds h) = true ∧
    (let f : State := { s with prot := { frozen := 2 } }
     cpRuns f = true ∧ f.prot.frozen.getLsbD 1 = true) ∧
    s.cp.oemValid = true ∧ s.cp.oemStopped = false ∧ oemMayWrite s aRFX = false ∧ oemMayWrite s 0x31000000 = true ∧
    (let x : State := { s with cp := { sessions := [(2, some ⟨5, 2, 0, none⟩)], usb := true } }
     ifaceLive x 2 = true ∧ sessionMay x 2 (aRFX + 0x10) 1 = true ∧ sessionMay x 2 aRFX 1 = false ∧ ifaceLive x 0 = false) ∧
    cpRuns s = true ∧ updBusy s = false ∧ s.prot.frozen.getLsbD 1 = false ∧ (0x40000001 : Word).toNat % 4 ≠ 0 ∧
    assigned 0x50000000 = false ∧ absentAddr n aPNL = true ∧ permitted (soloAt 0 0 [(aPROT, 2)]) 1 aRFX true = false ∧
    assigned aRFX = true ∧ absentAddr s aRFX = false ∧ permitted s 1 0x200FFFFC true = true ∧
    badCode aSLC 0 = true ∧ permitted s 1 aSLC true = true ∧ badCode (aCH 255) 7 = false ∧ ignored s (aCH 255) 7 = false ∧
    (regInfo (aCH 255)).cls = .rwl ∧ y.pair.mstate = .ready ∧ tablesOk y = true ∧ (regInfo aRFX).cls = .rwt ∧
    badCode aRFX 1 = false ∧ ignored s aRFX 1 = false ∧ (regInfo (aRFX + 0x18)).cls = .rw ∧ aRFX + 0x18 < aIC ∧
    badCode (aRFX + 0x18) 15 = false ∧ ignored s (aRFX + 0x18) 15 = false := by decide +kernel

/-! ### Witnesses: update, Graduation monitor and panel -/

/-- A manifest of one part of `len` bytes for CP bank B, with the hash `h` (R355). -/
def manWith (seq flags len : Nat) (h : List Byte) : ManifestMsg := ⟨
  byteList 4 0x5A3C0D15 ++ byteList 2 1 ++ byteList 1 1 ++ byteList 1 flags ++ byteList 4 seq ++ byteList 8 100 ++ byteList 8 0 ++
  byteList 8 0 ++ byteList 2 0 ++ byteList 1 2 ++ byteList 1 1 ++ byteList 2 10 ++ byteList 6 0 ++
  byteList 1 1 ++ byteList 1 1 ++ byteList 2 0 ++ byteList 4 1 ++ byteList 4 len ++ byteList 4 0 ++ h ++ byteList 64 0, true⟩

/-- The manifest with a hash of zeros. -/
def man1 : ManifestMsg := manWith 1 0 513 (List.replicate 32 0)

/-- R355: the fields of the manifest. -/
theorem test_manifest : man1.bytes.length = 160 ∧ manifestForm man1 = true ∧ manSeq man1 = 1 ∧ manConfirm man1 = 10 ∧
    manParts man1 = [⟨1, 1, 0, 1, 513, List.replicate 32 0⟩] ∧ manifestForm (manWith 1 4 513 []) = false := by decide +kernel

/-- A SOLO module in the given phase of the update of `man1`, with a session that holds ENGINEER. -/
def updating (p : UpdPhase) (verified : BitVec 6) : State :=
  { held (soloAt 80000000 0 []) with upd := { phase := p, man := some man1, verified := verified, actTick := 10, erased := 1 } }

/-- The part of `man1`. -/
def part1 : Part := ⟨1, 1, 0, 1, 513, List.replicate 32 0⟩

/-- The SHA-256 of the one byte 7, as a reference program outside the model computes it. -/
def hash1 : List Byte := [
  0xCA, 0x35, 0x87, 0x58, 0xF6, 0xD2, 0x7E, 0x6C, 0xF4, 0x52, 0x72, 0x93, 0x79, 0x77, 0xA7, 0x48,
  0xFD, 0x88, 0x39, 0x1D, 0xB6, 0x79, 0xCE, 0xDA, 0x7D, 0xC7, 0xBF, 0x1F, 0x00, 0x5E, 0xE8, 0x79]

/-- A part of one byte with the hash `h`, and a module that stages it. -/
def part2 (h : List Byte) : Part := { part1 with length := 1, hash := h }
def staging1 (h : List Byte) : State :=
  { updating .staging 0 with upd := { (updating .staging 0).upd with man := some (manWith 1 0 1 h) } }

/-- R357, R358: what the target holds after the chunk, and its hash. -/
theorem test_part_hash : bytesBE (sha256 [7]) = hash1 ∧
    (∀ h ∈ [hash1, List.replicate 32 0], partBytes (chunkStore (part2 h) 0 [7] (staging1 h)) (part2 h) = [7]) := by decide +kernel

/-- R358: a part of the right hash verifies, and one of another does not. -/
theorem witness_FieldUpdate_hash :
    partOf (staging1 hash1) 1 = some (part2 hash1) ∧ partOf (staging1 (List.replicate 32 0)) 1 = some (part2 (List.replicate 32 0)) ∧
    partChunks (part2 hash1) ≤ ((addNew (1, 0) (staging1 hash1).upd.chunks).filter (fun q => decide (q.1 = 1))).length ∧
    bytesBE (sha256 (partBytes (chunkStore (part2 hash1) 0 [7] (staging1 hash1)) (part2 hash1))) = (part2 hash1).hash ∧
    bytesBE (sha256 (partBytes (chunkStore (part2 (List.replicate 32 0)) 0 [7] (staging1 (List.replicate 32 0)))
      (part2 (List.replicate 32 0)))) ≠ (part2 (List.replicate 32 0)).hash := by
  rw [test_part_hash.2 hash1 (by decide +kernel), test_part_hash.2 (List.replicate 32 0) (by decide +kernel), test_part_hash.1]
  decide +kernel

theorem witness_FieldUpdate :
    let s := updating .staging 0
    let g : State := { s with upd := { s.upd with chunks := [(1, 0)] } }
    let d : State := { updating .armed 1 with upd := { (updating .armed 1).upd with decided := true, actTick := 8 } }
    let b := updating .probation 0
    let f : State := { updating .fallingBack 1 with upd := { (updating .fallingBack 1).upd with fallNs := 79999999 } }
    let e : State := { b with btn := { opMin := 10 } }
    let c : State := { b with upd := { b.upd with confirmed := 1 } }
    cpRuns s = true ∧ sessionHolds s 4 = true ∧ sessionHolds (soloAt 0 0 []) 4 = false ∧ manifestCode s man1 = 0 ∧
    manifestCode s (manWith 0 0 513 []) ≠ 0 ∧ byteCrc [7] ≠ 0 ∧ partOf s 1 = some part1 ∧ 1 < partChunks part1 ∧
    (List.replicate 512 (0 : Byte)).length = 512 ∧ ([7] : List Byte).length = 513 - 512 * 1 ∧
    s.upd.verified.getLsbD 0 = false ∧ s.upd.erased.getLsbD 0 = true ∧ s.nv.flOpen = [] ∧
    ¬ partChunks part1 ≤ ((addNew (1, 0) s.upd.chunks).filter (fun q => decide (q.1 = 1))).length ∧
    mwf (fun _ => (0xFFFFFFFF : Word)) s.nv.flash = true ∧
    partChunks part1 ≤ ((addNew (1, 1) g.upd.chunks).filter (fun q => decide (q.1 = 1))).length ∧
    decisionTick (updating .armed 1) ≤ (updating .armed 1).tick.num ∧ decisionCode (updating .armed 1) = 0 ∧
    decisionCode (updating .armed 0) ≠ 0 ∧ tickRuns d = true ∧ d.upd.actTick ≤ d.tick.num ∧ d.le.running = false ∧
    restarts d = false ∧ restarts { d with upd := { d.upd with man := some (manWith 1 1 513 []) } } = true ∧ d.sys.pendReset = none ∧
    updConfirmed b = false ∧ updConfirmed c = true ∧ alive e = true ∧ confirmLeft e = 0 ∧ b.cp.oemValid = true ∧
    b.cp.oemStopped = false ∧ rowMay b (.updConfirm 0xC35A) = true ∧ rowMay b (.updFallback 0xC35A) = true ∧
    f.upd.fallNs < f.tick.t0 ∧ f.sys.pendReset = none ∧ tickRuns f = true ∧ (updating .armed 1).upd.decided = false ∧
    rowMay (updating .armed 1) (.updCancel 0xC35A) = true ∧ rowMay s (.updDiscard 0xC35A) = true := by decide +kernel

theorem witness_GraduationMonitor :
    let s := soloAt 0 120000000000 []
    let a : State := { s with grd := { code := 20, worst := 7 } }
    let b : State := { s with grd := { worst := 7 } }
    let c : State := { s with grd := { code := 19, worst := 16 }, le := { mhz := 395 } }
    let d : State := { s with grd := { worst := 16 } }
    let u : State := { s with le := { mhz := 360 } }
    let m : State := { s with btn := { opMin := 43200 }, nv := { mounted := true, test := true, sectors :=
      [(5, { erased := false, openSeq := 1, role := 1, slots := [some ⟨0x100, 0, false, false, 1, 1, [9]⟩] })] } }
    grdRuns s = true ∧ s.grd.evalCyc + 120000000000 ≤ s.time.cyc ∧ a.grd.worst < 8 ∧ a.grd.code < 21 ∧ b.grd.worst < 8 ∧
    b.grd.code = 21 ∧ 360 < b.le.mhz ∧ b.grd.clockPend ≠ some (b.le.mhz - 5) ∧ 16 ≤ c.grd.worst ∧ c.le.mhz < 400 ∧
    c.grd.code ≤ 19 ∧ c.grd.clockPend ≠ some (c.le.mhz + 5) ∧ 400 ≤ d.le.mhz ∧ 16 ≤ d.grd.worst ∧ d.fixed.codeMin < d.grd.code ∧
    8 ≤ ({ s.grd with worst := 8 }).worst ∧ 4 ≤ (4 : Byte).toNat ∧ (1 : Byte).toNat < 2 ∧ u.grd.code = 21 ∧ u.le.mhz = 360 ∧
    (3 : Byte).toNat < 4 ∧ (b.grd.code ≠ 21 ∨ b.le.mhz ≠ 360) ∧ grdMayAct b = true ∧ grdMayAct a = true ∧ grdMayAct u = false ∧
    b.grd.urgentTick ≠ some b.tick.num ∧ tablesOk s = true ∧
    sensorDue 0 3600 s = true ∧ sensorDue 1 86400 s = true ∧ sensorDue 2 86400 s = true ∧ sensorDue 3 86400 s = true ∧
    sensorDue (8 + 255) 3600 s = true ∧ mget (fun _ => none) m.grd.taken 4 = none ∧ m.grd.monthMin + 43200 ≤ m.btn.opMin.toNat ∧
    m.nv.mounted = true ∧ m.nv.test = true ∧ weakRec m (5, 1) = some ⟨0x100, 0, false, false, 1, 1, [9]⟩ ∧
    (255 : BitVec 8).toNat < nCh s ∧ (2699 : BitVec 16).toNat < 2700 ∧ 70 < (71 : Int) ∧ 1800 < (1801 : Int).natAbs := by
  decide +kernel

/-- A panel in the given phase, with the rectangle registers of 2 x 1 pixels. -/
def panel (p : PnlSt) (cyc : Nat) : State :=
  { soloAt 0 cyc [(aPNL + 0x44, 0x00010002), (aPNL + 0x4C, 1)] with pnl := p }

theorem witness_LocalPanel :
    let o := panel { phase := .on } 200000000
    let f := panel { phase := .on, queue := List.replicate 8 ⟨0, 0, 2, 1, 0, 1, 0, false, false⟩ } 0
    let x : State := { soloAt 0 0 [(aPNL + 0x44, 0x00010001)] with pnl := { phase := .on } }
    let r := panel { phase := .rising, pass := true, passRows := List.range 160 } 3220000
    rowMay o .pwrOn = true ∧ rowMay o .pwrOff = true ∧ rowMay o .flush = true ∧ rowMay o (.rectSubmit 1) = true ∧
    rowMay f (.rectSubmit 1) = true ∧ rowMay x (.rectSubmit 1) = true ∧ pnlUp (panel {} 0) = true ∧ hasPanel o = true ∧ pnlUp o = true ∧
    (panel { phase := .discharging } 1000000).pnl.stopCyc + 1000000 ≤ 1000000 ∧ badRect (regRect o 0) = false ∧
    badRect (regRect x 0) = true ∧ o.pnl.queue.length < 8 ∧ 8 ≤ f.pnl.queue.length ∧
    r.pnl.passCyc + passLen r ≤ r.time.cyc ∧
    rowWaits o 159 = false ∧ 200000000 ≤ rowAge o 159 ∧ o.pnl.passMode = false ∧
    pnlUp r = true ∧ r.pnl.pass = true ∧ r.pnl.queue.any (·.taken) = false ∧
    (panel { phase := .on, passMode := true } 666666600).pnl.fullCyc + 200 * (1000000 / max 1 60) ≤ 666666600 := by
  decide +kernel

theorem witness_LocalPanel_rising : pnlUp (panel { phase := .rising } 2400000) = true ∧
    passDue (panel { phase := .rising } 2400000) = true := by
  refine ⟨by decide +kernel, ?_⟩
  have a := Nat.mod_lt (Config.panelRise 0) (show 0 < cycUs 5000 + 1 by decide)
  have b := Nat.mod_lt (Config.panelRise 1) (show 0 < cycUs 5000 + 1 by decide)
  simp only [passDue, panel, soloAt, vghUp, vglUp, Nat.mul_zero, Nat.zero_add, decide_eq_true_eq]
  simp only [cycUs] at *
  omega

theorem witness_CommandFrame : storesWords (.token 2 ⟨0, 0, 0, 0, 0, []⟩) = false ∧
    (next? (exec (.token 2 ⟨0, 0, 0, 0, 0, []⟩) storing)).map (fun t => (t.pending, t.mem.words)) =
      some (storing.pending, storing.mem.words) := by decide +kernel

end Sys2Proof.Tests
end

/-! ## An LE instruction that is alone in its bundle and accesses no operand -/

namespace Sys2Proof.Machine

/-- Without accesses a bundle stalls on no bank and takes the cycles of its instruction, at least one (R90-R93). -/
theorem bundleCost_of_no_access (k : Nat) (e : LaneEff) (hr : e.reads = []) (hi : e.indirect = false)
    (hs : e.stores = []) : bundleCost k [e] = (k + max 1 e.cycles - 1, 0) := by
  simp [bundleCost, hr, hi, hs, phaseEnd, mergeAcc, phaseRest]

/-- The instruction opens the bundle and retires it at once. -/
theorem leIssue_alone {c : At} {s : State} (e : LaneEff) (h : aloneIn c s = true) : leIssue c e s = retire (openB s e) := by
  simp only [aloneIn, Bool.and_eq_true] at h
  obtain ⟨⟨⟨hrun, -⟩, hlast⟩, -⟩ := h
  unfold leIssue
  rw [if_pos hrun]
  dsimp only
  rw [if_pos hlast]
  rfl

/-- The open bundle holds that instruction only. -/
theorem bundle_openB {c : At} {s : State} (e : LaneEff) (h : aloneIn c s = true) : (openB s e).le.bundle = [e] := by
  simp only [aloneIn, Bool.and_eq_true, List.isEmpty_iff] at h
  obtain ⟨⟨⟨-, hb⟩, -⟩, -⟩ := h
  simp [openB, hb]

/-- An instruction that only writes results retires after its `n` cycles to the state with those results. -/
theorem leIssue_writes {c : At} {s r : State} (h : aloneIn c s = true) (n : Nat) (ws : List LeWrite)
    (hsys : ∀ i v, LeWrite.sys i v ∉ ws) (hw : ∀ k e, ws.foldl (applyWrite k) (openB s e) = openB r e)
    (hr : r.le.running = true) :
    leIssue c { effNop c with cycles := n, writes := ws } s = advanced r (s.le.scanCyc + max 1 n) r.le.stalls := by
  have := retire_alone c s { effNop c with cycles := n, writes := ws } h rfl rfl rfl rfl hsys (by rw [hw]; exact hr)
  rw [this, hw, advanced_openB, bundleCost_of_no_access _ _ rfl rfl rfl, stalls_openB]
  dsimp only
  congr 1
  omega

/-- An instruction that writes RLO. -/
theorem leIssue_rlo {c : At} {s : State} (h : aloneIn c s = true) (b : Bool) (t : Tag) :
    leIssue c { effNop c with writes := [.rlo c.lane ⟨b, t⟩] } s =
      advanced (rloResult s c b t) (s.le.scanCyc + 1) s.le.stalls :=
  leIssue_writes h 1 _ (by simp) (fun _ _ => rfl) (running_of (s := s) h)

/-- A write of all 32 bits leaves nothing of the old word. -/
theorem write_all_bits (old v : Word) : (old &&& ~~~0xFFFFFFFF) ||| (v &&& 0xFFFFFFFF) = v := by
  rw [show (0xFFFFFFFF : Word) = BitVec.allOnes 32 from rfl, BitVec.not_allOnes, BitVec.and_zero, BitVec.zero_or,
    BitVec.and_allOnes]

/-- An accumulator takes bits, and no flag is set. -/
theorem lanePut_accWrite (s : State) (c : At) (a : BitVec 3) (mask v r : Word) (t : Tag)
    (hv : ((accA s c a).val &&& ~~~mask) ||| (v &&& mask) = r) :
    lanePut s c.lane.toNat (accWrite (lane s c.lane.toNat) a.toNat mask v t) = accResult s c a r t 0 := by
  unfold accA at hv
  simp [accWrite, accResult, hv]

/-- An instruction that writes bits of an accumulator. -/
theorem leIssue_acc {c : At} {s : State} (h : aloneIn c s = true) (n : Nat) (a : BitVec 3) (mask v : Word) (t : Tag)
    {r : Word} (hv : ((accA s c a).val &&& ~~~mask) ||| (v &&& mask) = r) :
    leIssue c { effNop c with cycles := n, writes := [.acc c.lane a mask v t] } s =
      advanced (accResult s c a r t 0) (s.le.scanCyc + max 1 n) s.le.stalls :=
  leIssue_writes h n _ (by simp) (fun _ e => congrArg (openB · e) (lanePut_accWrite s c a mask v r t hv)) (running_of (s := s) h)

/-- An instruction whose only effect beside its cycles is where the scan goes on (R52). -/
def controlEff (c : At) (n : Nat) (x : LeCtrl) : LaneEff := effCtl { effNop c with ctrl := some x, cycles := n }

/-- The state in which its control effect acts: the bundle is open, its cycles have passed. -/
def afterCycles (s : State) (e : LaneEff) (n : Nat) : State :=
  { openB s e with le := { (openB s e).le with scanCyc := s.le.scanCyc + max 1 n, stalls := s.le.stalls } }

/-- A control instruction retires to its control effect. -/
theorem leIssue_controlEff {c : At} {s : State} (h : aloneIn c s = true) (n : Nat) (x : LeCtrl) :
    leIssue c (controlEff c n x) s =
      applyCtrl (controlEff c n x) (s.le.scanCyc + max 1 n) (afterCycles s (controlEff c n x) n) := by
  have hrun : (openB s (controlEff c n x)).le.running = true := running_of (s := s) h
  have hn : s.le.scanCyc + max 1 n - 1 + 1 = s.le.scanCyc + max 1 n := by omega
  have hcost : bundleCost (openB s (controlEff c n x)).le.scanCyc [controlEff c n x] = (s.le.scanCyc + max 1 n - 1, 0) :=
    bundleCost_of_no_access _ _ rfl rfl rfl
  rw [leIssue_alone _ h]
  unfold retire
  simp only [bundle_openB _ h, byLane_single, bundleTraps_single, hcost]
  simp [controlEff, effCtl, effNop, recordReadFaults, recordTraps, firstTrap, applySys_none, running_of h, hn, afterCycles]

end Sys2Proof.Machine

/-! ## A trap that ends the scan -/

namespace Sys2Proof.Machine

/-- From `s` to `t` the data memory, the lanes and the captured trap stand, and a scan that has ended stays so. -/
structure TrapKept (s t : State) : Prop where
  mem : t.mem = s.mem
  lanes : t.le.lanes = s.le.lanes
  valid : t.le.trapValid = s.le.trapValid
  reason : t.le.trapReason = s.le.trapReason
  bundle : t.le.trapBundle = s.le.trapBundle
  lane : t.le.trapLane = s.le.trapLane
  tick : t.le.trapTick = s.le.trapTick
  idle : s.le.running = false → t.le.running = false

theorem TrapKept.trans {s t u : State} (h : TrapKept s t) (k : TrapKept t u) : TrapKept s u :=
  ⟨k.mem.trans h.mem, k.lanes.trans h.lanes, k.valid.trans h.valid, k.reason.trans h.reason, k.bundle.trans h.bundle,
    k.lane.trans h.lane, k.tick.trans h.tick, fun hs => k.idle (h.idle hs)⟩

/-- What touches neither the logic engine nor the data memory keeps the trap. -/
theorem TrapKept.of_le {s t : State} (hle : t.le = s.le) (hmem : t.mem = s.mem) : TrapKept s t := by
  constructor <;> simp [hle, hmem]

theorem TrapKept.refl (s : State) : TrapKept s s := .of_le rfl rfl

/-! ### The operations that the reaction to a trap calls -/

@[simp] theorem fcuRecord_le (src reason cls : Nat) (s : State) : (fcuRecord src reason cls s).le = s.le := by
  unfold fcuRecord; simp

@[simp] theorem editCancel_le (s : State) : (editCancel s).le = s.le := by unfold editCancel; simp

@[simp] theorem laneUse_le (l : Bool) (p : LinkPayload) (s : State) : (laneUse l p s).le = s.le := by
  unfold laneUse lanePutL; split <;> rfl

@[simp] theorem sendOn_le (ls : List Bool) (p : LinkPayload) (s : State) : (sendOn ls p s).le = s.le :=
  foldl_keeps (fun a : State => a.le) _ (fun _ _ => by simp) _ _

@[simp] theorem setRole_le (r : Role) (cause : Nat) (s : State) : (setRole r cause s).le = s.le := by
  unfold setRole; split <;> simp

@[simp] theorem slcStartGrp_le (cause : Nat) (u : Bool) (s : State) (g : Nat) : (slcStartGrp cause u s g).le = s.le := by
  unfold slcStartGrp; simp only; split <;> simp

@[simp] theorem slcTriggerAll_le (cause : Nat) (s : State) : (slcTriggerAll cause s).le = s.le :=
  foldl_keeps (fun a : State => a.le) _ (fun _ _ => by simp) _ _

@[simp] theorem logScan_le (bin : Nat) (s : State) : (logScan bin s).le = s.le := rfl
@[simp] theorem logScan_mem (bin : Nat) (s : State) : (logScan bin s).mem = s.mem := rfl

@[simp] theorem startResync_le (s : State) : (startResync s).le = s.le := rfl
@[simp] theorem startResync_mem (s : State) : (startResync s).mem = s.mem := rfl

@[simp] theorem epochClose_le (s : State) : (epochClose s).le = s.le := by
  unfold epochClose
  simp only
  (repeat' split) <;> rfl

@[simp] theorem epochClose_mem (s : State) : (epochClose s).mem = s.mem := by
  unfold epochClose
  simp only
  (repeat' split) <;> rfl

/-- The judgement of the watchdogs' cycles touches the watchdogs only (R301, R302). -/
theorem twdJudge_eq (ks : Byte) (s : State) : ∃ w, twdJudge ks s = { s with wd := w } := by
  unfold twdJudge
  generalize (List.range 8).filter _ = l
  generalize ({ s.wd with twdDue := 0 } : _) = w
  induction l generalizing w with
  | nil => exact ⟨w, rfl⟩
  | cons k l ih =>
    rw [List.foldl_cons, twdCycle]
    split <;> exact ih _

@[simp] theorem twdJudge_le (ks : Byte) (s : State) : (twdJudge ks s).le = s.le := by
  obtain ⟨w, hw⟩ := twdJudge_eq ks s; rw [hw]

@[simp] theorem twdJudge_mem (ks : Byte) (s : State) : (twdJudge ks s).mem = s.mem := by
  obtain ⟨w, hw⟩ := twdJudge_eq ks s; rw [hw]

theorem stopScan_trapKept (s : State) : TrapKept s (stopScan s) := by
  unfold stopScan
  constructor <;> simp

theorem enterShadow_trapKept (cause : Nat) (s : State) : TrapKept s (enterShadow cause s) := by
  unfold enterShadow
  constructor <;> simp

theorem releaseCheck_trapKept (s : State) : TrapKept s (releaseCheck s) := by
  unfold releaseCheck
  simp only
  split
  · split
    · exact enterShadow_trapKept 7 s
    · exact .of_le rfl rfl
  · exact .refl s

theorem giveUpOp_trapKept (kind src reason : Nat) (s : State) : TrapKept s (giveUpOp kind src reason s) := by
  unfold giveUpOp
  exact ((stopScan_trapKept s).trans (.of_le (by simp) (by simp))).trans (releaseCheck_trapKept _)

/-- A SOLO module stops its scan, starts its sequences and enters SAFE. -/
theorem soloStop_trapKept (cause : Nat) (s : State) (p : State → PairSt) (u : Bool) :
    TrapKept s (let s1 := slcTriggerAll cause (stopScan s)
      { s1 with pair := p s1, le := { s1.le with uncommitted := u } }) := by
  refine ((stopScan_trapKept s).trans (t := stopScan s) (u := slcTriggerAll cause (stopScan s)) ?_).trans ?_
  · exact .of_le (by simp) (by simp)
  · exact ⟨rfl, rfl, rfl, rfl, rfl, rfl, rfl, id⟩

theorem fatalReact_trapKept (src reason cause : Nat) (s : State) : TrapKept s (fatalReact src reason cause s) := by
  unfold fatalReact
  simp only
  generalize hs0 : ({ s with pair := _, fcu := _ } : State) = s0
  have h0 : TrapKept s s0 := by subst hs0; exact .of_le rfl rfl
  split
  · exact h0.trans (giveUpOp_trapKept ..)
  · exact h0.trans (soloStop_trapKept cause s0 (fun s1 => { s1.pair with mstate := .safe }) _)
  · exact h0.trans (soloStop_trapKept cause s0 (fun s1 => { s1.pair with mstate := .safe }) _)
  · exact .of_le rfl rfl
  · exact .of_le rfl rfl
  · exact h0

theorem fatalFault_trapKept (src reason : Nat) (s : State) : TrapKept s (fatalFault src reason s) :=
  .trans (.of_le (by simp) (by simp)) (fatalReact_trapKept ..)

theorem containedFault_trapKept (src reason : Nat) (s : State) : TrapKept s (containedFault src reason s) := by
  have hrec : TrapKept s (fcuRecord src reason 1 s) := .of_le (by simp) (by simp)
  unfold containedFault
  simp only
  split
  · exact hrec.trans (.of_le (by simp) (by simp))
  · exact hrec.trans (fatalReact_trapKept ..)
  · exact hrec

theorem overrunCount_trapKept (s : State) : TrapKept s (overrunCount s) := by
  have hcount : TrapKept s (unhealthy { s with le := { s.le with overConsec := satN 15 (s.le.overConsec + 1) } }) :=
    ⟨rfl, rfl, rfl, rfl, rfl, rfl, rfl, id⟩
  unfold overrunCount
  simp only
  split
  · exact hcount.trans (fatalFault_trapKept ..)
  · exact hcount

/-- An aborting trap ends the scan (R87). -/
theorem abortScan_trapKept (s : State) : TrapKept s (abortScan s) ∧ (abortScan s).le.running = false := by
  unfold abortScan
  simp only
  generalize hs1 : ({ s with le := _, tick := _ } : State) = s1
  have h1 : TrapKept s s1 ∧ s1.le.running = false := by
    subst hs1; exact ⟨⟨rfl, rfl, rfl, rfl, rfl, rfl, rfl, fun _ => rfl⟩, rfl⟩
  generalize hs2 : epochClose (if s.le.overran then logScan 31 s1 else s1) = s2
  have h2 : TrapKept s1 s2 := by subst hs2; split <;> exact .of_le (by simp) (by simp)
  have h3 : TrapKept s1 (twdJudge s2.wd.twdDue (overrunCount s2)) :=
    h2.trans ((overrunCount_trapKept s2).trans (.of_le (twdJudge_le _ _) (twdJudge_mem _ _)))
  exact ⟨h1.1.trans h3, h3.idle h1.2⟩

/-- The capture of a bundle's only trap (R86, R88). -/
theorem recordTraps_single (s : State) (l : BitVec 2) (r : BitVec 6) :
    (recordTraps [(l, r)] s).mem = s.mem ∧ (recordTraps [(l, r)] s).le.lanes = s.le.lanes ∧
    (recordTraps [(l, r)] s).le.trapValid = true ∧
    (s.le.trapValid = false →
      (recordTraps [(l, r)] s).le.trapReason = r.truncate 4 ∧ (recordTraps [(l, r)] s).le.trapBundle = s.le.pc ∧
      (recordTraps [(l, r)] s).le.trapLane = l ∧
      (recordTraps [(l, r)] s).le.trapTick = BitVec.ofNat 32 s.tick.num) := by
  simp only [recordTraps, firstTrap, List.foldl]
  generalize hs1 : ({ s with le := _ } : State) = s1
  have h := (TrapKept.of_le (s := s1) (t := fireIf (!s.le.trapFired) 477 s1) (by simp) (by simp)).trans
    (containedFault_trapKept 477 r.toNat _)
  rw [h.mem, h.lanes, h.valid, h.reason, h.bundle, h.lane, h.tick]
  subst hs1
  exact ⟨rfl, rfl, rfl, fun hf => by simp [hf]⟩

/-- An instruction alone in its bundle that traps with an aborting reason ends the scan (R86-R88). -/
theorem leIssue_traps {c : At} {s : State} (h : aloneIn c s = true) (e : LaneEff) (r : BitVec 6) (hl : e.lane = c.lane)
    (ht : e.traps = [r]) (ha : trapAborts r = true) (hv : e.viols = []) (hf : e.memFaults = []) :
    trapsWith (.next (leIssue c e s)) s c (r.truncate 4) := by
  have hret : leIssue c e s = abortScan (recordTraps [(c.lane, r)] (openB s e)) := by
    rw [leIssue_alone _ h]
    unfold retire
    simp [bundle_openB _ h, byLane_single, bundleTraps_single, ht, hl, ha, hv, hf, recordReadFaults]
  obtain ⟨hmem, hlanes, hvalid, hrec⟩ := recordTraps_single (openB s e) c.lane r
  obtain ⟨hk, hrun⟩ := abortScan_trapKept (recordTraps [(c.lane, r)] (openB s e))
  refine ⟨_, rfl, ?_⟩
  rw [hret, hk.mem, hk.lanes, hk.valid, hk.reason, hk.bundle, hk.lane, hk.tick]
  exact ⟨hrun, hmem, hlanes, hvalid, hrec⟩

end Sys2Proof.Machine

/-! ## Words that spell no instruction -/

namespace Sys2Proof

/-- A word that the decoder's tables do not know is issued as an illegal instruction, unless it has format C (R54, R86). -/
theorem leDecode_of_none {c : At} {w : BitVec 36} (hd : decodeFields c w.toNat = none) (hc : isCtlWord w = false) :
    leDecode c w = .illegalInstruction c := by
  simp [leDecode, hd, illegalWord, hc]

/-- Bits [35:30] of a word are its opcode (R53). -/
theorem wfld_opcode {w : BitVec 36} {op : Nat} (hw : w.toNat / 2 ^ 30 = op) : wfld w.toNat 30 6 = op := by
  have := w.isLt
  unfold wfld
  omega

theorem isCtlWord_of_lt {w : BitVec 36} (hop : wfld w.toNat 30 6 < 0x30) : isCtlWord w = false := by
  simp [isCtlWord, hop]

theorem decodeFields_rlop (c : At) {w : Nat} (hop : wfld w 30 6 = 0x09) : decodeFields c w = decodeStack c rlopOps w := by
  simp [decodeFields, hop]

theorem decodeFields_imm (c : At) {w : Nat} (hop : wfld w 30 6 = 0x18) : decodeFields c w = decodeImm c immOps w := by
  simp [decodeFields, hop]

/-- A function code beyond the group's list, or a word field that is not zero, spells no instruction of STK or RLOP (R54). -/
theorem decodeStack_none (c : At) (l : List (At → Instr)) {w : Nat} (h : l.length ≤ wfld w 0 6 ∨ wfld w 6 24 ≠ 0) :
    decodeStack c l w = none := by
  unfold decodeStack
  rcases h with hf | hu
  · simp [List.getElem?_eq_none hf]
  · simp [hu]

/-- A function code beyond the group's list spells no instruction of IMM or SYS (R54). -/
theorem decodeImm_none (c : At) (l : List (At → BitVec 3 → BitVec 23 → Instr)) {w : Nat} (h : l.length ≤ wfld w 26 4) :
    decodeImm c l w = none := by
  simp [decodeImm, List.getElem?_eq_none h]

/-- No word of RLOP but the six of R63 is an instruction. -/
theorem leDecode_rlop_illegal (c : At) (w : BitVec 36) (hw : w.toNat / 2 ^ 30 = 0x09)
    (h : 5 < w.toNat % 64 ∨ w.toNat / 64 % 2 ^ 24 ≠ 0) : leDecode c w = .illegalInstruction c := by
  have hop := wfld_opcode hw
  refine leDecode_of_none ?_ (isCtlWord_of_lt (by omega))
  rw [decodeFields_rlop c hop]
  refine decodeStack_none c _ (h.imp (fun hf => ?_) (fun hu => hu))
  simp only [wfld, rlopOps, List.length_cons, List.length_nil]
  omega

/-- Function code 15 of IMM is no instruction (R73). -/
theorem leDecode_imm_illegal (c : At) (w : BitVec 36) (hw : w.toNat / 2 ^ 30 = 0x18) (h : w.toNat / 2 ^ 26 % 16 = 15) :
    leDecode c w = .illegalInstruction c := by
  have hop := wfld_opcode hw
  refine leDecode_of_none ?_ (isCtlWord_of_lt (by omega))
  rw [decodeFields_imm c hop]
  exact decodeImm_none c _ (le_of_eq h.symm)

end Sys2Proof

/-! ## NOP, the RLO operations and the rung stack -/

namespace Sys2Proof.Machine

/-- NOP retires with nothing written (R54). -/
theorem leIssue_nop {c : At} {s : State} (h : aloneIn c s = true) :
    leIssue c (effNop c) s = advanced s (s.le.scanCyc + 1) s.le.stalls :=
  leIssue_writes h 1 [] (by simp) (fun _ _ => rfl) (running_of h)

/-- An RLO operation gives RLO the bit and tag that `f` forms (R63). -/
theorem leIssue_rloEff {c : At} {s : State} (h : aloneIn c s = true) (f : Rlo → Rlo) {b : Bool} {t : Tag}
    (hf : f (lane s c.lane.toNat).rlo = ⟨b, t⟩) :
    leIssue c (rloEff s c f) s = advanced (rloResult s c b t) (s.le.scanCyc + 1) s.le.stalls := by
  rw [rloEff, hf]
  exact leIssue_rlo h b t

/-- A push puts RLO on the stack while there is room (R62). -/
theorem leIssue_pushEff {c : At} {s : State} (h : aloneIn c s = true) (hroom : (lane s c.lane.toNat).stack.length < 8) :
    leIssue c (pushEff s c) s =
      advanced (lanePut s c.lane.toNat { lane s c.lane.toNat with
        stack := (lane s c.lane.toNat).rlo :: (lane s c.lane.toNat).stack }) (s.le.scanCyc + 1) s.le.stalls := by
  simp only [pushEff, if_neg (Nat.not_le.mpr hroom)]
  exact leIssue_writes h 1 _ (by simp) (fun _ _ => rfl) (running_of (s := s) h)

/-- A pop takes the top entry off the stack, and RLO takes what `f` forms from it (R62). -/
theorem leIssue_popEff {c : At} {s : State} (h : aloneIn c s = true) (f : Rlo → Rlo → Rlo) {top : Rlo} {rest : List Rlo}
    (hst : (lane s c.lane.toNat).stack = top :: rest) :
    leIssue c (popEff s c f) s =
      advanced (lanePut s c.lane.toNat { lane s c.lane.toNat with rlo := f top (lane s c.lane.toNat).rlo, stack := rest })
        (s.le.scanCyc + 1) s.le.stalls := by
  have hwf := lanesWf h
  simp only [popEff, hst]
  refine leIssue_writes h 1 _ (by simp) (fun k e => ?_) (running_of (s := s) h)
  simp only [List.foldl, applyWrite, lane_openB, lanePut_openB, lane_lanePut hwf, lanePut_lanePut hwf]

/-- Settles O7: each instruction through the rule of its effect, and the illegal words through the decoder's tables. -/
theorem leRloAndRungStack : Obligations.LeRloAndRungStack := by
  unfold Obligations.LeRloAndRungStack
  refine ⟨fun s c h => ?_, leDecode_rlop_illegal, fun s c h => ⟨fun hroom => ?_, fun top rest hst => ?_⟩⟩
  · refine ⟨?nop, ?not, ?one, ?zero, ?qgood, ?quse, ?qsub⟩
    case nop => exact congrArg _ (leIssue_nop h)
    case not => exact congrArg _ (leIssue_rloEff h _ rfl)
    case one => exact congrArg _ (leIssue_rloEff h _ rfl)
    case zero => exact congrArg _ (leIssue_rloEff h _ rfl)
    case qgood => exact congrArg _ (leIssue_rloEff h _ rfl)
    case quse => exact congrArg _ (leIssue_rloEff h _ (by simp [tagGOOD]))
    case qsub => exact congrArg _ (leIssue_rloEff h _ rfl)
  · exact congrArg _ (leIssue_pushEff h hroom)
  · exact ⟨congrArg _ (leIssue_popEff h _ hst), congrArg _ (leIssue_popEff h _ hst),
      congrArg _ (leIssue_popEff h _ hst), congrArg _ (leIssue_popEff h _ hst)⟩

end Sys2Proof.Machine

/-! ## The immediate instructions -/

namespace Sys2Proof.Machine

/-- Whatever time the bundle took, it retires to the state `r` that the next bundle finds. -/
theorem retiresTo_of_eq {s r : State} {n k : Nat} (h : s = advanced r n k) : retiresTo (.next s) r := ⟨n, k, congrArg _ h⟩

/-- An immediate instruction gives A the value that `f` forms, with A's own tag and no flag (R73). -/
theorem retiresTo_immEff {c : At} {s : State} (h : aloneIn c s = true) (a : BitVec 3) (n : Nat) (f : Word → Word) {v : Word}
    (hv : f (accA s c a).val = v) :
    retiresTo (.next (leIssue c (immEff s c a n f) s)) (accResult s c a v (accA s c a).tag 0) := by
  subst hv
  exact retiresTo_of_eq (leIssue_acc h n a _ _ _ (write_all_bits _ _))

/-- An immediate compare gives RLO the relation that `f` decides, with A's tag (R73). -/
theorem retiresTo_immCmp {c : At} {s : State} (h : aloneIn c s = true) (a : BitVec 3) (f : Word → Bool) :
    retiresTo (.next (leIssue c (immCmp s c a f) s)) (rloResult s c (f (accA s c a).val) (accA s c a).tag) :=
  retiresTo_of_eq (leIssue_rlo h _ _)

/-- An immediate shift by less than 32 shifts A (R73). -/
theorem retiresTo_immShift {c : At} {s : State} (h : aloneIn c s = true) (a : BitVec 3) {k : BitVec 23}
    (f : Word → Nat → Word) (hk : k.toNat < 32) :
    retiresTo (.next (leIssue c (immShift s c a k f) s))
      (accResult s c a (f (accA s c a).val k.toNat) (accA s c a).tag 0) := by
  rw [immShift, if_neg (Nat.not_le.mpr hk)]
  exact retiresTo_immEff h a 1 _ rfl

/-- An illegal instruction ends the scan with reason ILLEGAL, a control instruction too (R54, R86). -/
theorem trapsWith_illegal {c : At} {s : State} (h : aloneIn c s = true) {e : LaneEff}
    (he : e = effIllegal c ∨ e = effCtl (effIllegal c)) :
    trapsWith (.next (leIssue c e s)) s c 4 := by
  rcases he with rfl | rfl <;> exact leIssue_traps h _ 4 rfl rfl rfl rfl rfl

/-- The wrapped sum and product of signed words are those of the words (R70). -/
theorem iAdd_fst (x y : Word) : (iAdd x y).1 = x + y := by
  simp [iAdd, wrap, BitVec.ofInt_add]

theorem iMul_fst (x y : Word) : (iMul x y).1 = x * y := by
  simp [iMul, wrap, BitVec.ofInt_mul]

theorem iMin_fst (x y : Word) : (iMin x y).1 = if x.toInt ≤ y.toInt then x else y := by
  simp only [iMin, ← Int.not_lt, ite_not]

theorem iMax_fst (x y : Word) : (iMax x y).1 = if y.toInt ≤ x.toInt then x else y := by
  simp only [iMax, ← Int.not_lt, ite_not]

/-- The bits that LDIH writes are the nine of its constant (R73). -/
theorem ldih_bits (x : Word) (k : BitVec 23) :
    (x &&& ~~~(0xFF800000 : Word)) ||| ((zxk k <<< 23) &&& (0xFF800000 : Word)) =
      (x &&& (0x007FFFFF : Word)) ||| (zxk k <<< 23) := by
  have hmask : (0xFF800000 : Word) = BitVec.allOnes 32 <<< 23 := rfl
  have hlow : ~~~(0xFF800000 : Word) = 0x007FFFFF := rfl
  rw [hlow, hmask, ← BitVec.shiftLeft_and_distrib, BitVec.and_allOnes]

/-- LDIH with a constant of nine bits writes A's bits 31 to 23 (R73). -/
theorem retiresTo_ldih {c : At} {s : State} (h : aloneIn c s = true) (a : BitVec 3) {k : BitVec 23} (hk : k.toNat < 512) :
    retiresTo (exec (.leLdih c a k) s)
      (accResult s c a (((accA s c a).val &&& (0x007FFFFF : Word)) ||| (zxk k <<< 23)) (accA s c a).tag 0) := by
  change retiresTo (execLeLdih c a k s) _
  rw [execLeLdih, if_neg (Nat.not_le.mpr hk)]
  exact retiresTo_of_eq (leIssue_acc h 1 a _ _ _ (ldih_bits _ k))

/-- LDIH with a larger constant is illegal. -/
theorem trapsWith_ldih {c : At} {s : State} (h : aloneIn c s = true) (a : BitVec 3) {k : BitVec 23} (hk : 512 ≤ k.toNat) :
    trapsWith (exec (.leLdih c a k) s) s c 4 :=
  trapsWith_illegal h (.inl (if_pos hk))

/-- A shift by 32 or more is illegal. -/
theorem trapsWith_immShift {c : At} {s : State} (h : aloneIn c s = true) (a : BitVec 3) {k : BitVec 23}
    (f : Word → Nat → Word) (hk : 32 ≤ k.toNat) : trapsWith (.next (leIssue c (immShift s c a k f) s)) s c 4 :=
  trapsWith_illegal h (.inl (if_pos hk))

/-- Settles O19: each instruction through the rule of its effect, with the word that it computes. -/
theorem leImmediates : Obligations.LeImmediates := by
  unfold Obligations.LeImmediates
  refine ⟨fun s c a k h => ?_, leDecode_imm_illegal⟩
  refine ⟨?ldi, ?addi, ?muli, ?andi, ?ori, ?xori, ?mini, ?maxi, ?ceqi, ?clti, ?cgti, ?ldih, ?shifts, ?ldihTrap, ?shiftTraps⟩
  case ldi => exact retiresTo_of_eq (leIssue_acc h 1 a _ _ _ (write_all_bits _ _))
  case addi => exact retiresTo_immEff h a 1 _ (iAdd_fst _ _)
  case muli => exact retiresTo_immEff h a 2 _ (iMul_fst _ _)
  case andi => exact retiresTo_immEff h a 1 _ rfl
  case ori => exact retiresTo_immEff h a 1 _ rfl
  case xori => exact retiresTo_immEff h a 1 _ rfl
  case mini => exact retiresTo_immEff h a 1 _ (iMin_fst _ _)
  case maxi => exact retiresTo_immEff h a 1 _ (iMax_fst _ _)
  case ceqi => exact retiresTo_immCmp h a _
  case clti => exact retiresTo_immCmp h a _
  case cgti => exact retiresTo_immCmp h a _
  case ldih => exact fun hk => retiresTo_ldih h a hk
  case shifts => exact fun hk => ⟨retiresTo_immShift h a _ hk, retiresTo_immShift h a _ hk, retiresTo_immShift h a _ hk⟩
  case ldihTrap => exact fun hk => trapsWith_ldih h a hk
  case shiftTraps =>
    intro hk i hi
    simp only [List.mem_cons, List.not_mem_nil, or_false] at hi
    rcases hi with rfl | rfl | rfl <;> exact trapsWith_immShift h a _ hk

end Sys2Proof.Machine

/-! ## The control instructions -/

namespace Sys2Proof.Machine

/-! ### Conditions (R80) -/

/-- Codes 9 to 15 name no condition. -/
theorem condHolds_reserved (s : State) (c : At) {cond : BitVec 4} (a : BitVec 3) (h : 8 < cond.toNat) :
    condHolds s c cond a = none := by
  obtain ⟨n, hn⟩ := Nat.exists_eq_add_of_le' h
  simp only [condHolds, hn]

/-- Where the condition holds, the instruction has its effect. -/
theorem ctrlEff_taken {s : State} {c : At} {cond : BitVec 4} {a : BitVec 3} (hc : condHolds s c cond a = some true)
    (e : LaneEff) : ctrlEff s c cond a e = e := by
  rw [ctrlEff, hc]

/-- Where it does not, the next bundle follows. -/
theorem ctrlEff_not_taken {s : State} {c : At} {cond : BitVec 4} {a : BitVec 3} (hc : condHolds s c cond a = some false)
    (e : LaneEff) : effCtl (ctrlEff s c cond a e) = controlEff c 1 .next := by
  rw [ctrlEff, hc]
  rfl

/-- A reserved condition code is illegal. -/
theorem ctrlEff_reserved {s : State} {c : At} {cond : BitVec 4} {a : BitVec 3} (hc : condHolds s c cond a = none)
    (e : LaneEff) : ctrlEff s c cond a e = effIllegal c := by
  rw [ctrlEff, hc]

/-- The word 0 is the only one that is the number 0. -/
theorem word_eq_zero (v : Word) : v = 0 ↔ v.toInt = 0 := by
  rw [← BitVec.toInt_inj, BitVec.toInt_ofNat]
  rfl

/-- What each condition asks for, the tests of A as tests of a number. -/
theorem condHolds_codes (s : State) (c : At) (a : BitVec 3) :
    let r := (lane s c.lane.toNat).rlo
    let v := (accA s c a).val.toInt
    let good := decide (tagClass r.tag = 0)
    condHolds s c 0 a = some true ∧ condHolds s c 1 a = some r.bit ∧ condHolds s c 2 a = some (!r.bit) ∧
    condHolds s c 3 a = some (r.bit && good) ∧ condHolds s c 4 a = some (!good) ∧
    condHolds s c 5 a = some (decide (v = 0)) ∧ condHolds s c 6 a = some (decide (v ≠ 0)) ∧
    condHolds s c 7 a = some (decide (v < 0)) ∧ condHolds s c 8 a = some (decide (v > 0)) := by
  have hz := word_eq_zero (accA s c a).val
  exact ⟨rfl, rfl, rfl, rfl, congrArg some decide_not, congrArg some (decide_eq_decide.mpr hz),
    congrArg some (decide_eq_decide.mpr hz.not), rfl, rfl⟩

/-! ### Where the scan goes on (R52, R81, R82) -/

/-- The scan goes on in the bundle at `t`, entered at slot `sl`. -/
def goTo (t : BitVec 18) (sl : BitVec 2) (s : State) : State :=
  { s with le := { s.le with pc := t, slot := sl, bundle := [], issued := false } }

section
variable (c : At) (k n : Nat) (s : State) (t : BitVec 18) (sl : BitVec 2)

theorem applyCtrl_next : applyCtrl (controlEff c k .next) n s = goTo (s.le.pc + 1) 0 s := rfl

theorem applyCtrl_jump : applyCtrl (controlEff c k (.jump t sl)) n s = goTo t sl s := rfl

theorem applyCtrl_call (p : BitVec 6) : applyCtrl (controlEff c k (.call t sl p)) n s =
    goTo t sl { s with le := { s.le with callStack := ⟨s.le.pc + 1, p⟩ :: s.le.callStack } } := rfl

theorem applyCtrl_ret {x : CallEntry} {rest : List CallEntry} (hst : s.le.callStack = x :: rest) :
    applyCtrl (controlEff c k .ret) n s =
      goTo x.ret 0 { s with le := { s.le with callStack := rest, poolbase := x.poolbase } } := by
  simp [applyCtrl, controlEff, effCtl, hst, goTo]

theorem applyCtrl_loop (l : BitVec 2) (d : DWord) (taken : Bool) : applyCtrl (controlEff c k (.loop l d taken t sl)) n s =
    let s1 := lanePut s l.toNat (accWrite (lane s l.toNat) 7 0xFFFFFFFF d.val d.tag)
    if taken then goTo t sl s1 else goTo (s.le.pc + 1) 0 s1 := rfl

theorem applyCtrl_ends : applyCtrl (controlEff c k .ends) n s = sealScan n s := rfl

end

/-- The time that the bundle took apart, a bundle that goes on elsewhere jumps there. -/
theorem jumpsTo_goTo (r : State) (e : LaneEff) (n : Nat) (t : BitVec 18) (sl : BitVec 2) :
    jumpsTo (.next (goTo t sl (afterCycles r e n))) r t sl := ⟨_, _, rfl⟩

/-- The time that the bundle took apart, a bundle that goes on in the next one retires. -/
theorem retiresTo_goTo (r : State) (e : LaneEff) (n : Nat) :
    retiresTo (.next (goTo (r.le.pc + 1) 0 (afterCycles r e n))) r := ⟨_, _, rfl⟩

/-- A7 takes the count of a LOOP beside the open bundle. -/
theorem lanePut_afterCycles (s : State) (c : At) (e : LaneEff) (n : Nat) (d : DWord) :
    lanePut (afterCycles s e n) c.lane.toNat
        (accWrite (lane (afterCycles s e n) c.lane.toNat) 7 0xFFFFFFFF d.val d.tag) =
      afterCycles (accResult s c 7 d.val d.tag 0) e n :=
  congrArg (afterCycles · e n) (lanePut_accWrite s c 7 _ d.val d.val d.tag (write_all_bits _ _))

section
variable {c : At} {s : State} (h : aloneIn c s = true)
include h

theorem retiresTo_next : retiresTo (.next (leIssue c (controlEff c 1 .next) s)) s := by
  rw [leIssue_controlEff h, applyCtrl_next]
  exact retiresTo_goTo s _ 1

theorem jumpsTo_jump (t : BitVec 18) (sl : BitVec 2) : jumpsTo (.next (leIssue c (controlEff c 2 (.jump t sl)) s)) s t sl := by
  rw [leIssue_controlEff h, applyCtrl_jump]
  exact jumpsTo_goTo s _ 2 t sl

/-- A CALL stacks the next bundle with POOLBASE. -/
theorem jumpsTo_call (t : BitVec 18) (sl : BitVec 2) (p : BitVec 6) :
    jumpsTo (.next (leIssue c (controlEff c 3 (.call t sl p)) s))
      { s with le := { s.le with callStack := ⟨s.le.pc + 1, p⟩ :: s.le.callStack } } t sl := by
  rw [leIssue_controlEff h, applyCtrl_call]
  exact jumpsTo_goTo { s with le := { s.le with callStack := ⟨s.le.pc + 1, p⟩ :: s.le.callStack } } _ 3 t sl

/-- A RET takes the newest entry back. -/
theorem jumpsTo_ret {x : CallEntry} {rest : List CallEntry} (hst : s.le.callStack = x :: rest) :
    jumpsTo (.next (leIssue c (controlEff c 2 .ret) s))
      { s with le := { s.le with callStack := rest, poolbase := x.poolbase } } x.ret 0 := by
  rw [leIssue_controlEff h, applyCtrl_ret c 2 _ (afterCycles s _ 2) hst]
  exact jumpsTo_goTo { s with le := { s.le with callStack := rest, poolbase := x.poolbase } } _ 2 x.ret 0

/-- A LOOP writes its count to A7; taken, it jumps. -/
theorem jumpsTo_loop (n : Nat) (d : DWord) (t : BitVec 18) (sl : BitVec 2) :
    jumpsTo (.next (leIssue c (controlEff c n (.loop c.lane d true t sl)) s)) (accResult s c 7 d.val d.tag 0) t sl := by
  rw [leIssue_controlEff h, applyCtrl_loop, lanePut_afterCycles]
  exact jumpsTo_goTo (accResult s c 7 d.val d.tag 0) _ n t sl

/-- A LOOP writes its count to A7; not taken, it goes on in the next bundle. -/
theorem retiresTo_loop (n : Nat) (d : DWord) (t : BitVec 18) (sl : BitVec 2) :
    retiresTo (.next (leIssue c (controlEff c n (.loop c.lane d false t sl)) s)) (accResult s c 7 d.val d.tag 0) := by
  rw [leIssue_controlEff h, applyCtrl_loop, lanePut_afterCycles]
  exact retiresTo_goTo (accResult s c 7 d.val d.tag 0) _ n

end

/-! ### The seal of a scan (R19) -/

@[simp] theorem epochClose_tick (s : State) : (epochClose s).tick = s.tick := by
  unfold epochClose
  simp only
  (repeat' split) <;> rfl

@[simp] theorem logScan_tick (bin : Nat) (s : State) : (logScan bin s).tick = s.tick := rfl

@[simp] theorem twdJudge_tick (ks : Byte) (s : State) : (twdJudge ks s).tick = s.tick := by
  obtain ⟨w, hw⟩ := twdJudge_eq ks s; rw [hw]

@[simp] theorem twdJudge_ev (ks : Byte) (s : State) : (twdJudge ks s).ev = s.ev := by
  obtain ⟨w, hw⟩ := twdJudge_eq ks s; rw [hw]

/-- A source that exists is pending once it has fired (R267). -/
theorem mem_fire_pend {src : Nat} {s : State} (h : srcPresent s src = true) (st : Nat) :
    BitVec.ofNat 10 src ∈ (fire src st s).ev.pend := by
  simp only [fire, h, if_true, addNew]
  split
  · assumption
  · simp

/-- A scan that seals ends with the Q image and the requests that travel with it, and fires source 472. -/
theorem sealScan_seals (n : Nat) (s : State) :
    let u := sealScan n s
    u.le.running = false ∧ u.le.sealedReady = true ∧ u.le.sealedQ = s.mem.words.filter (fun p => inQ p.1) ∧
    u.le.sealedGo = s.le.goMask ∧ u.le.sealedRst = s.le.rfxRst ∧ u.le.sealedTick = s.tick.num ∧
    u.tick.scanDone = true ∧ u.mem = s.mem ∧ (472 : BitVec 10) ∈ u.ev.pend := by
  simp only [sealScan, twdJudge_le, twdJudge_tick, twdJudge_mem, twdJudge_ev, fire_le, fire_tick, fire_mem, epochClose_le,
    epochClose_tick, epochClose_mem, logScan_le, logScan_tick, logScan_mem, true_and]
  exact mem_fire_pend (src := 472) rfl _

/-! ### The instructions -/

/-- The effect of a CALL while the call stack has room (R82). -/
theorem callEff_room {s : State} {c : At} (t : BitVec 18) (sl : BitVec 2) (h : s.le.callStack.length < 16) :
    effCtl (callEff s c t sl) = controlEff c 3 (.call t sl s.le.poolbase) := by
  rw [callEff, if_neg (Nat.not_le.mpr h)]
  rfl

/-- The effect of a RET from a call (R82). -/
theorem retEff_cons {s : State} {c : At} {x : CallEntry} {rest : List CallEntry} (hst : s.le.callStack = x :: rest) :
    effCtl (retEff s c) = controlEff c 2 .ret := by
  rw [retEff, if_neg (by simp [hst])]
  rfl

/-- The effect of a LOOP whose counter comes out as `v` (R81). -/
theorem loopEff_eq (s : State) (c : At) (a : BitVec 3) (t : BitVec 18) (sl : BitVec 2) {v : Word}
    (hv : (accA s c 7).val + 1 = v) {go : Bool} (hgo : decide (v.toInt < (accA s c a).val.toInt) = go) :
    effCtl (loopEff s c a t sl) =
      controlEff c (if go then 2 else 1) (.loop c.lane ⟨v, (accA s c 7).tag⟩ go t sl) := by
  subst hv hgo
  rfl

section
variable {c : At} {s : State} (h : aloneIn c s = true) {cond : BitVec 4} {a : BitVec 3} (t : BitVec 18) (sl : BitVec 2)
include h

/-- A JMP whose condition holds goes on at its target (R81). -/
theorem leJmp_taken (hc : condHolds s c cond a = some true) : jumpsTo (exec (.leJmp c cond a t sl) s) s t sl := by
  change jumpsTo (execLeJmp c cond a t sl s) s t sl
  rw [execLeJmp, ctrlEff_taken hc]
  exact jumpsTo_jump h t sl

/-- A CALL whose condition holds stacks the bundle that follows it, while there is room (R81, R82). -/
theorem leCall_taken (hc : condHolds s c cond a = some true) (hroom : s.le.callStack.length < 16) :
    jumpsTo (exec (.leCall c cond a t sl) s)
      { s with le := { s.le with callStack := ⟨s.le.pc + 1, s.le.poolbase⟩ :: s.le.callStack } } t sl := by
  change jumpsTo (execLeCall c cond a t sl s) _ t sl
  rw [execLeCall, ctrlEff_taken hc, callEff_room t sl hroom]
  exact jumpsTo_call h t sl _

/-- A RET whose condition holds takes the newest entry (R81, R82). -/
theorem leRet_taken (hc : condHolds s c cond a = some true) {x : CallEntry} {rest : List CallEntry}
    (hst : s.le.callStack = x :: rest) :
    jumpsTo (exec (.leRet c cond a) s) { s with le := { s.le with callStack := rest, poolbase := x.poolbase } } x.ret 0 := by
  change jumpsTo (execLeRet c cond a s) _ x.ret 0
  rw [execLeRet, ctrlEff_taken hc, retEff_cons hst]
  exact jumpsTo_ret h hst

/-- A LOOP whose condition holds counts A7 up, and jumps while the count is below its bound (R81). -/
theorem leLoop_taken (hc : condHolds s c cond a = some true) (ha : a ≠ 7) :
    let v := (accA s c 7).val + 1
    let r := accResult s c 7 v (accA s c 7).tag 0
    if v.toInt < (accA s c a).val.toInt then jumpsTo (exec (.leLoop c cond a t sl) s) r t sl
    else retiresTo (exec (.leLoop c cond a t sl) s) r := by
  intro v r
  have hexec : exec (.leLoop c cond a t sl) s = .next (leIssue c (effCtl (loopEff s c a t sl)) s) := by
    change execLeLoop c cond a t sl s = _
    rw [execLeLoop, if_neg ha, ctrlEff_taken hc]
  rw [hexec]
  split
  case isTrue hlt =>
    rw [loopEff_eq s c a t sl rfl (decide_eq_true hlt)]
    exact jumpsTo_loop h _ ⟨v, (accA s c 7).tag⟩ t sl
  case isFalse hge =>
    rw [loopEff_eq s c a t sl rfl (decide_eq_false hge)]
    exact retiresTo_loop h _ ⟨v, (accA s c 7).tag⟩ t sl

/-- An ENDS whose condition holds seals the scan. -/
theorem leEnds_taken (hc : condHolds s c cond a = some true) :
    ∃ u, exec (.leEnds c cond a) s = .next u ∧ u.le.running = false ∧ u.le.sealedReady = true ∧
      u.le.sealedQ = s.mem.words.filter (fun p => inQ p.1) ∧ u.le.sealedGo = s.le.goMask ∧
      u.le.sealedRst = s.le.rfxRst ∧ u.le.sealedTick = s.tick.num ∧ u.tick.scanDone = true ∧ u.mem = s.mem ∧
      (472 : BitVec 10) ∈ u.ev.pend := by
  have hexec : exec (.leEnds c cond a) s = .next (sealScan (s.le.scanCyc + 1) (afterCycles s (controlEff c 1 .ends) 1)) := by
    change execLeEnds c cond a s = _
    rw [execLeEnds, ctrlEff_taken hc]
    exact congrArg _ (leIssue_controlEff h 1 .ends)
  exact ⟨_, hexec, sealScan_seals _ _⟩

/-- A control instruction whose condition does not hold goes on in the next bundle. -/
theorem control_not_taken (hc : condHolds s c cond a = some false) (e : LaneEff) :
    retiresTo (.next (leIssue c (effCtl (ctrlEff s c cond a e)) s)) s := by
  rw [ctrlEff_not_taken hc]
  exact retiresTo_next h

/-- A reserved condition code is illegal. -/
theorem control_reserved (hc : 8 < cond.toNat) (e : LaneEff) :
    trapsWith (.next (leIssue c (effCtl (ctrlEff s c cond a e)) s)) s c 4 :=
  trapsWith_illegal h (.inr (by rw [ctrlEff_reserved (condHolds_reserved s c a hc)]))

/-- A LOOP with a reserved condition code is illegal, as is one that names A7 for its bound (R80, R81). -/
theorem leLoop_reserved (hc : 8 < cond.toNat) : trapsWith (exec (.leLoop c cond a t sl) s) s c 4 := by
  change trapsWith (execLeLoop c cond a t sl s) s c 4
  rw [execLeLoop]
  split
  · exact trapsWith_illegal h (.inr rfl)
  · exact control_reserved h hc _

theorem leLoop_not_taken (hc : condHolds s c cond a = some false) (ha : a ≠ 7) :
    retiresTo (exec (.leLoop c cond a t sl) s) s := by
  change retiresTo (execLeLoop c cond a t sl s) s
  rw [execLeLoop, if_neg ha]
  exact control_not_taken h hc _

end

/-- Settles O25: each instruction through the rule of its effect where its condition holds; a condition that does not hold, or a
reserved code, gives all five the same effect. -/
theorem leControl : Obligations.LeControl := by
  unfold Obligations.LeControl
  refine ⟨fun s c cond a t sl h hc => ?taken, fun s c cond a t sl h => ?conditions⟩
  case taken =>
    exact ⟨leJmp_taken h t sl hc, leCall_taken h t sl hc, fun _ _ hst => leRet_taken h hc hst, leLoop_taken h t sl hc,
      leEnds_taken h hc⟩
  case conditions =>
    obtain ⟨h0, h1, h2, h3, h4, h5, h6, h7, h8⟩ := condHolds_codes s c a
    refine ⟨h0, h1, h2, h3, h4, h5, h6, h7, h8, ?reserved, ?notTaken⟩
    case reserved =>
      intro hcode i hi
      simp only [List.mem_cons, List.not_mem_nil, or_false] at hi
      rcases hi with rfl | rfl | rfl | rfl | rfl
      · exact control_reserved h hcode _
      · exact control_reserved h hcode _
      · exact control_reserved h hcode _
      · exact leLoop_reserved h t sl hcode
      · exact control_reserved h hcode _
    case notTaken =>
      intro hc
      refine ⟨fun i hi => ?_, leLoop_not_taken h t sl hc⟩
      simp only [List.mem_cons, List.not_mem_nil, or_false] at hi
      rcases hi with rfl | rfl | rfl | rfl <;> exact control_not_taken h hc _

end Sys2Proof.Machine

/-! ## Steps, the module before its first power-up, and a swap that lands late -/

namespace Sys2Proof.Machine

/-- Settles O1: `step` reads the front of the queue, and `idle` tests the supply first. -/
theorem stepRunsQueue : Obligations.StepRunsQueue := by
  refine ⟨fun s i rest hq => by simp only [step, hq], fun s hq => by simp only [step, hq], fun s hq hoff => ?_⟩
  have hidle : idle s = s := by simp only [idle, hoff, Bool.not_false, if_true]
  simp only [step, hq, hidle]

/-- Settles O6: each part is about the one state `State.reset`, whose tables are empty. -/
theorem resetState : Obligations.ResetState :=
  ⟨rfl, rfl, rfl, rfl, rfl, rfl, rfl, rfl, rfl, fun _ => ⟨rfl, rfl⟩⟩

/-- A swap is overdue, and its migration table, one FILL of word 0x8000 with 7, is not applied. -/
def migWaiting : State where
  mem := { prog := [(0, 0x10001), (2, 0x8000), (3, 7)] }
  edit := { phase := .pending, mig := { base := 0, entries := 1 } }

theorem exec_editSwap_migWaiting : exec .editSwap migWaiting = .next (swapNow migWaiting) := by
  have hdue : swapDue migWaiting = true := by decide
  change execEditSwap migWaiting = _
  rw [execEditSwap, if_pos hdue]

/-- Refutes O60: an EDIT_SWAP that finds its migration table not applied applies it first (`swapNow`), and so stores
into M, which the statement does not allow that command. -/
theorem not_commandFrame : ¬ Obligations.CommandFrame := by
  intro ⟨_, hwords⟩
  have hstand := hwords .editSwap migWaiting _ rfl exec_editSwap_migWaiting
  have hstored : (swapNow migWaiting).mem.words = [(0x8000, ⟨7, 0⟩)] := by decide +kernel
  rw [hstored] at hstand
  exact absurd hstand (by decide)

end Sys2Proof.Machine

/-! ## What every operation keeps -/

namespace Sys2Proof.Machine

-- The argument that `by rfl` supplies is evaluated in each use; on parallel threads the uses would wait for each other.
set_option Elab.async false

/-- The part of the state that the invariants speak of. -/
structure Core where
  regs : Regs
  words : SMap DWord
  lwords : SMap (Option DWord)
  lanes : SMap LaneSt
  chan : SMap ChanSt
  grp : SMap GrpSt
  sgrp : SMap SlcGrp
  bus : SMap BusSt
  node : SMap NodeSt
  uart : SMap UartSt
  q0 : List QEntry
  q1 : List QEntry
  tokenOut : Bool
  mstate : ModState
  role : Role

/-- The core of a state. -/
def coreOf (s : State) : Core where
  regs := s.regs
  words := s.mem.words
  lwords := s.mem.lwords
  lanes := s.le.lanes
  chan := s.chan
  grp := s.grp
  sgrp := s.slc.grp
  bus := s.bus
  node := s.node
  uart := s.cp.uart
  q0 := s.ev.q0
  q1 := s.ev.q1
  tokenOut := s.pair.tokenOut
  mstate := s.pair.mstate
  role := s.pair.role

/-- Each invariant that holds in `s` holds in `t`: the one of TOKEN_OUT where `k` claims it. -/
structure Keeps (k : Bool) (s t : State) : Prop where
  mem : memOk s = true → memOk t = true
  tables : tablesOk s = true → tablesOk t = true
  queues : queuesOk s = true → queuesOk t = true
  token : k = true → tokenOk s = true → tokenOk t = true

protected theorem Keeps.refl (k : Bool) (s : State) : Keeps k s s := ⟨id, id, id, fun _ => id⟩

section
variable {k l : Bool} {r s t : State}

protected theorem Keeps.trans (h : Keeps k r s) (g : Keeps k s t) : Keeps k r t where
  mem := g.mem ∘ h.mem
  tables := g.tables ∘ h.tables
  queues := g.queues ∘ h.queues
  token := fun hk => g.token hk ∘ h.token hk

/-- What leaves the core alone keeps everything. -/
protected theorem Keeps.same (h : Keeps k r s) (e : coreOf t = coreOf s := by rfl) : Keeps k r t := by
  simp only [coreOf, Core.mk.injEq] at e
  obtain ⟨hr, hw, hlw, hl, hc, hg, hsg, hb, hn, hu, h0, h1, ht, hm, hro⟩ := e
  refine h.trans ⟨?_, ?_, ?_, fun _ => ?_⟩
  · simp only [memOk, hw, hlw, imp_self]
  · simp only [tablesOk, hl, hc, hg, hsg, hb, hn, hu, hr, imp_self]
  · simp only [queuesOk, h0, h1, imp_self]
  · simp only [tokenOk, ht, hm, hro, imp_self]

/-- A relation that every step of a fold keeps holds at its end. -/
protected theorem Keeps.foldl {β : Type} (h : Keeps k r s) (f : State → β → State) (l : List β)
    (hf : ∀ a b, Keeps k r a → Keeps k r (f a b)) : Keeps k r (l.foldl f s) := by
  induction l generalizing s with
  | nil => exact h
  | cons b l ih => exact ih (hf s b h)

/-- TOKEN_OUT is not asserted at the end. -/
protected theorem Keeps.off (h : Keeps false r s) (ht : s.pair.tokenOut = false) : Keeps k r s :=
  { h with token := fun _ _ => by simp [tokenOk, ht] }

/-- A choice between two states. -/
protected theorem Keeps.ite {c : Prop} [Decidable c] {a b : State} (ha : Keeps k r a) (hb : Keeps k r b) :
    Keeps k r (if c then a else b) := by
  split
  exacts [ha, hb]

/-- Where the claim of TOKEN_OUT is not made. -/
protected theorem Keeps.weaken (h : Keeps k r s) : Keeps false r s := { h with token := fun hk => nomatch hk }

/-- One table of units takes a new canonical form. -/
protected theorem Keeps.ofTables (h : Keeps k r s) (ht : tablesOk s = true → tablesOk t = true)
    (e : { coreOf t with
      regs := s.regs, lanes := s.le.lanes, chan := s.chan, grp := s.grp, sgrp := s.slc.grp, bus := s.bus, node := s.node
      uart := s.cp.uart } = coreOf s := by rfl) : Keeps k r t := by
  simp only [coreOf, Core.mk.injEq] at e
  obtain ⟨-, hw, hlw, -, -, -, -, -, -, -, h0, h1, hto, hm, hro⟩ := e
  refine h.trans ⟨?_, ht, ?_, fun _ => ?_⟩
  · simp only [memOk, hw, hlw, imp_self]
  · simp only [queuesOk, h0, h1, imp_self]
  · simp only [tokenOk, hto, hm, hro, imp_self]

theorem tablesOk_iff (s : State) : tablesOk s = true ↔
    mwf (fun _ => ({} : LaneSt)) s.le.lanes = true ∧ mwf (fun _ => ({} : ChanSt)) s.chan = true ∧
    mwf (fun _ => ({} : GrpSt)) s.grp = true ∧ mwf (fun _ => ({} : SlcGrp)) s.slc.grp = true ∧
    mwf (fun _ => ({} : BusSt)) s.bus = true ∧ mwf (fun _ => ({} : NodeSt)) s.node = true ∧
    mwf (fun _ => ({} : UartSt)) s.cp.uart = true ∧ mwf regReset s.regs.written = true ∧ mwf regReset s.regs.force = true := by
  simp only [tablesOk, Bool.and_eq_true, and_assoc]

protected theorem Keeps.chPut (h : Keeps k r s) (n : Nat) (c : ChanSt) : Keeps k r (chPut s n c) :=
  h.ofTables (by simp only [tablesOk_iff]; exact fun ⟨a, b, c⟩ => ⟨a, mwf_mput _ _ _ b, c⟩)

protected theorem Keeps.grPut (h : Keeps k r s) (n : Nat) (c : GrpSt) : Keeps k r (grPut s n c) :=
  h.ofTables (by simp only [tablesOk_iff]; exact fun ⟨a, b, c, d⟩ => ⟨a, b, mwf_mput _ _ _ c, d⟩)

/-- An entry joins a queue only where one is free (R269). -/
theorem length_enqueue {q : List QEntry} (c : Bool) (e : QEntry) (h : q.length ≤ 512) :
    (if c && decide (q.length < 512) then q ++ [e] else q).length ≤ 512 := by
  split
  case isTrue hc =>
    simp only [Bool.and_eq_true, decide_eq_true_eq] at hc
    simp only [List.length_append, List.length_singleton]
    omega
  case isFalse => exact h

theorem queuesOk_iff (s : State) : queuesOk s = true ↔ s.ev.q0.length ≤ 512 ∧ s.ev.q1.length ≤ 512 := by
  simp only [queuesOk, Bool.and_eq_true, decide_eq_true_eq]

protected theorem Keeps.fire (h : Keeps k r s) (src stamp : Nat) : Keeps k r (fire src stamp s) := by
  refine h.trans ⟨id, id, ?_, fun _ => id⟩
  simp only [queuesOk_iff]
  exact fun ⟨h0, h1⟩ => ⟨length_enqueue _ _ h0, length_enqueue _ _ h1⟩

protected theorem Keeps.fireIf (h : Keeps k r s) (c : Bool) (src : Nat) : Keeps k r (fireIf c src s) :=
  .ite (h.fire _ _) h

protected theorem Keeps.sgPut (h : Keeps k r s) (g : Nat) (c : SlcGrp) : Keeps k r (sgPut s g c) :=
  h.ofTables (by simp only [tablesOk_iff]; exact fun ⟨a, b, c, d, e⟩ => ⟨a, b, c, mwf_mput _ _ _ d, e⟩)

protected theorem Keeps.buPut (h : Keeps k r s) (b : Nat) (c : BusSt) : Keeps k r (buPut s b c) :=
  h.ofTables (by simp only [tablesOk_iff]; exact fun ⟨a, b, c, d, e, f⟩ => ⟨a, b, c, d, mwf_mput _ _ _ e, f⟩)

protected theorem Keeps.ndPut (h : Keeps k r s) (n : Nat) (c : NodeSt) : Keeps k r (ndPut s n c) :=
  h.ofTables (by simp only [tablesOk_iff]; exact fun ⟨a, b, c, d, e, f, g⟩ => ⟨a, b, c, d, e, mwf_mput _ _ _ f, g⟩)

protected theorem Keeps.regPut (h : Keeps k r s) (a : Nat) (v : Word) : Keeps k r (regPut s a v) :=
  h.ofTables (by
    simp only [tablesOk_iff]
    exact fun ⟨a, b, c, d, e, f, g, x, y⟩ => ⟨a, b, c, d, e, f, g, mwf_mput _ _ _ x, mwf_mput _ _ _ y⟩)

protected theorem Keeps.regStage (h : Keeps k r s) (a : Nat) (v : Word) : Keeps k r (regStage s a v) :=
  h.ofTables (by
    simp only [tablesOk_iff]
    exact fun ⟨a, b, c, d, e, f, g, x, y⟩ => ⟨a, b, c, d, e, f, g, mwf_mput _ _ _ x, y⟩)

protected theorem Keeps.regLatch (h : Keeps k r s) : Keeps k r (regLatch s) :=
  h.ofTables (by simp only [tablesOk_iff]; exact fun ⟨a, b, c, d, e, f, g, x, _⟩ => ⟨a, b, c, d, e, f, g, x, x⟩)

/-! ### Events, notices and faults -/

protected theorem Keeps.fires (h : Keeps k r s) (l : List (Nat × Nat)) : Keeps k r (fires l s) :=
  h.foldl _ l fun _ _ ha => ha.fire _ _

theorem coreOf_nvEnqueue (q : NvReq) (s : State) : coreOf (nvEnqueue q s) = coreOf s := by
  unfold nvEnqueue
  simp only
  (repeat' split) <;> rfl

protected theorem Keeps.nvEnqueue (h : Keeps k r s) (q : NvReq) : Keeps k r (nvEnqueue q s) :=
  h.same (coreOf_nvEnqueue q s)

protected theorem Keeps.ringPut (h : Keeps k r s) (n : Notice) : Keeps k r (ringPut n s) :=
  Keeps.fireIf (.ite (h.same.nvEnqueue _) h.same) _ _

protected theorem Keeps.notice (h : Keeps k r s) (kind src reason : Nat) (d : Word) :
    Keeps k r (notice kind src reason d s) :=
  .ite (h.ringPut _) h.same

protected theorem Keeps.noticeIf (h : Keeps k r s) (c : Bool) (kind src reason : Nat) (d : Word) :
    Keeps k r (noticeIf c kind src reason d s) :=
  .ite (h.notice _ _ _ _) h

protected theorem Keeps.gradNotice (h : Keeps k r s) (c : Bool) (reason : Nat) (d : Word) :
    Keeps k r (gradNotice c reason d s) :=
  .ite ((h.notice _ _ _ _).fire _ _) h

protected theorem Keeps.corrected (h : Keeps k r s) : Keeps k r (corrected s) := h.same.fireIf _ _

protected theorem Keeps.fcuRecord (h : Keeps k r s) (src reason cls : Nat) : Keeps k r (fcuRecord src reason cls s) :=
  (h.same.fire _ _).fireIf _ _

/-! ### Reflexes, outputs and the settling of the commands -/

protected theorem Keeps.rfxReport (h : Keeps k r s) (e : Nat) : Keeps k r (rfxReport s e) :=
  (h.same.fireIf _ _).noticeIf _ _ _ _ _

protected theorem Keeps.rfxEval (h : Keeps k r s) : Keeps k r (rfxEval s) :=
  Keeps.foldl h.same _ _ fun _ _ ha => ha.rfxReport _

protected theorem Keeps.chEdge (h : Keeps k r s) (n : Nat) (b : Bool) (ts : Nat) : Keeps k r (chEdge n b ts s) :=
  .ite ((h.chPut _ _).fire _ _) (h.chPut _ _)

protected theorem Keeps.driveCh (h : Keeps k r s) (n : Nat) (v : Bool) : Keeps k r (driveCh s n v) :=
  .ite (((h.chPut _ _).fireIf _ _).chEdge _ _ _) ((h.chPut _ _).fireIf _ _)

protected theorem Keeps.driveAll (h : Keeps k r s) : Keeps k r (driveAll s) := by
  refine h.foldl _ _ fun a n ha => ?_
  have hb := fun c : ChanSt => Keeps.ite (c := inhHeld s (standing s 3) n = (ch s n).held) ha (ha.chPut n c)
  exact .ite (hb _) ((hb _).driveCh _ _)

protected theorem Keeps.currentReport (h : Keeps k r s) : Keeps k r (currentReport s) :=
  .ite h (h.same.fire _ _)

protected theorem Keeps.settle (h : Keeps k r s) : Keeps k r (settle s) := h.rfxEval.driveAll.currentReport

/-! ### Sluice starts -/

protected theorem Keeps.slcStartGrp (h : Keeps k r s) (cause : Nat) (u : Bool) (g : Nat) :
    Keeps k r (slcStartGrp cause u s g) :=
  .ite ((h.sgPut _ _).fireIf _ _) h

protected theorem Keeps.slcTriggerAll (h : Keeps k r s) (cause : Nat) : Keeps k r (slcTriggerAll cause s) :=
  Keeps.foldl h.same _ _ fun _ _ ha => ha.slcStartGrp _ _ _

protected theorem Keeps.slcTriggerMask (h : Keeps k r s) (cause : Nat) (m : Word) : Keeps k r (slcTriggerMask cause m s) :=
  .ite (Keeps.foldl h.same _ _ fun _ _ ha => ha.slcStartGrp _ _ _) h.same

protected theorem Keeps.slcStartTables (h : Keeps k r s) : Keeps k r (slcStartTables s) := h.slcTriggerMask _ _

/-! ### Leaving RUN, and the twin link -/

protected theorem Keeps.editCancel (h : Keeps k r s) : Keeps k r (editCancel s) := h.same.fireIf _ _

protected theorem Keeps.stopScan (h : Keeps k r s) : Keeps k r (stopScan s) := h.same.editCancel

theorem coreOf_laneUse (l : Bool) (p : LinkPayload) (s : State) : coreOf (laneUse l p s) = coreOf s := rfl

protected theorem Keeps.sendOn (h : Keeps k r s) (ls : List Bool) (p : LinkPayload) : Keeps k r (sendOn ls p s) :=
  Keeps.foldl h.same _ _ fun a l ha => ha.same (coreOf_laneUse l p a)

protected theorem Keeps.sendFrame (h : Keeps k r s) (p : LinkPayload) : Keeps k r (sendFrame p s) := h.sendOn _ _

protected theorem Keeps.sendLow (h : Keeps k r s) (j : LinkJob) : Keeps k r (sendLow j s) := h.same

/-- A change of the module's state and role, where TOKEN_OUT is not claimed. -/
theorem Keeps.unclaimed (h : Keeps false r s)
    (e : { coreOf t with tokenOut := s.pair.tokenOut, mstate := s.pair.mstate, role := s.pair.role } = coreOf s := by rfl) :
    Keeps false r t := by
  simp only [coreOf, Core.mk.injEq] at e
  obtain ⟨hr, hw, hlw, hl, hc, hg, hsg, hb, hn, hu, h0, h1, -, -, -⟩ := e
  refine h.trans ⟨?_, ?_, ?_, (nomatch ·)⟩
  · simp only [memOk, hw, hlw, imp_self]
  · simp only [tablesOk, hl, hc, hg, hsg, hb, hn, hu, hr, imp_self]
  · simp only [queuesOk, h0, h1, imp_self]

/-- A change of the module's state and role that leaves TOKEN_OUT released. -/
theorem Keeps.silent (h : Keeps k r s) (ht : t.pair.tokenOut = false := by rfl)
    (e : { coreOf t with tokenOut := s.pair.tokenOut, mstate := s.pair.mstate, role := s.pair.role } = coreOf s := by rfl) :
    Keeps l r t :=
  (h.weaken.unclaimed e).off ht

/-- A role may change where TOKEN_OUT is not claimed. -/
protected theorem Keeps.setRole (h : Keeps false r s) (x : Role) (cause : Nat) : Keeps false r (setRole x cause s) :=
  .ite h (h.unclaimed.fire _ _)

protected theorem Keeps.enterShadow (h : Keeps k r s) (cause : Nat) : Keeps k r (enterShadow cause s) :=
  (h.weaken.editCancel.setRole .standby cause).silent.notice _ _ _ _

protected theorem Keeps.releaseCheck (h : Keeps k r s) : Keeps k r (releaseCheck s) :=
  .ite (.ite (h.enterShadow _) h.same) h

protected theorem Keeps.giveUpOp (h : Keeps k r s) (kind src reason : Nat) : Keeps k r (giveUpOp kind src reason s) :=
  ((h.stopScan.sendOn _ _).silent.fire _ _).releaseCheck

protected theorem Keeps.callReset (h : Keeps k r s) (cause : BitVec 4) : Keeps k r (callReset cause s) := h.same

protected theorem Keeps.wakePin (h : Keeps k r s) (bit : Nat) : Keeps k r (wakePin bit s) := .ite h.same h

@[simp] theorem editCancel_pair (s : State) : (editCancel s).pair = s.pair := by unfold editCancel; simp
@[simp] theorem stopScan_pair (s : State) : (stopScan s).pair = s.pair := by unfold stopScan; simp
@[simp] theorem slcStartGrp_pair (cause : Nat) (u : Bool) (s : State) (g : Nat) : (slcStartGrp cause u s g).pair = s.pair := by
  unfold slcStartGrp; simp only; split <;> simp
@[simp] theorem slcTriggerAll_pair (cause : Nat) (s : State) : (slcTriggerAll cause s).pair = s.pair :=
  foldl_keeps (fun a : State => a.pair) _ (fun _ _ => by simp) _ _

/-- A SOLO module stops its scan, starts its sequences and enters SAFE. -/
theorem Keeps.stopSolo (h : Keeps k r s) (hs : s.pair.tokenOut = false) (cause : Nat) (u : Bool) :
    Keeps k r (let s1 := slcTriggerAll cause (stopScan s)
      { s1 with pair := { s1.pair with mstate := .safe }, le := { s1.le with uncommitted := u } }) :=
  Keeps.silent (h.stopScan.slcTriggerAll cause) (by simp [hs])

protected theorem Keeps.fatalReact (h : Keeps k r s) (src reason cause : Nat) :
    Keeps k r (fatalReact src reason cause s) := by
  unfold Machine.fatalReact
  dsimp only
  split
  · exact Keeps.giveUpOp h.silent _ _ _
  · exact Keeps.stopSolo h.silent rfl cause _
  · exact Keeps.stopSolo h.silent rfl cause _
  · exact h.silent
  · exact h.silent
  · exact h.silent

protected theorem Keeps.fatalFault (h : Keeps k r s) (src reason : Nat) : Keeps k r (fatalFault src reason s) :=
  (h.fcuRecord _ _ _).fatalReact _ _ _

protected theorem Keeps.containedFault (h : Keeps k r s) (src reason : Nat) : Keeps k r (containedFault src reason s) := by
  have hr := h.fcuRecord src reason 1
  unfold Machine.containedFault
  dsimp only
  split
  exacts [hr.notice _ _ _ _, hr.fatalReact _ _ _, hr]

protected theorem Keeps.containedIf (h : Keeps k r s) (c : Bool) (src reason : Nat) :
    Keeps k r (containedIf c src reason s) :=
  .ite (h.containedFault _ _) h

protected theorem Keeps.freezeMaster (h : Keeps k r s) (m : Nat) (a : Word) (wr : Bool) :
    Keeps k r (freezeMaster m a wr s) :=
  .ite ((h.same.fire _ _).fatalFault _ _) ((h.same.fire _ _).containedFault _ _)

protected theorem Keeps.sramCount (h : Keeps k r s) (a : Nat) : Keeps k r (sramCount a s) :=
  (h.same.noticeIf _ _ _ _ _).fireIf _ _

/-! ### The data memory -/

/-- The data memory takes a new canonical form. -/
theorem Keeps.ofMem (h : Keeps k r s) (hm : memOk s = true → memOk t = true)
    (e : { coreOf t with words := s.mem.words, lwords := s.mem.lwords } = coreOf s := by rfl) : Keeps k r t := by
  simp only [coreOf, Core.mk.injEq] at e
  obtain ⟨hr, -, -, hl, hc, hg, hsg, hb, hn, hu, h0, h1, hto, hst, hro⟩ := e
  refine h.trans ⟨hm, ?_, ?_, fun _ => ?_⟩
  · simp only [tablesOk, hl, hc, hg, hsg, hb, hn, hu, hr, imp_self]
  · simp only [queuesOk, h0, h1, imp_self]
  · simp only [tokenOk, hto, hst, hro, imp_self]

theorem memOk_iff (s : State) : memOk s = true ↔
    mwf (fun _ => goodZero) s.mem.words = true ∧ mwf (fun _ => none) s.mem.lwords = true := by
  simp only [memOk, Bool.and_eq_true]

protected theorem Keeps.startResync (h : Keeps k r s) : Keeps k r (startResync s) := h.same

protected theorem Keeps.harvestMark (h : Keeps k r s) (a : Nat) (old : DWord) : Keeps k r (harvestMark a old s) :=
  .ite (h.same.sendFrame _).startResync h.same

protected theorem Keeps.putPlain (h : Keeps k r s) (a : Nat) (mask v : Word) (t : Tag) :
    Keeps k r (putPlain a mask v t s) := by
  refine .ite ((h.harvestMark _ _).ofMem ?_) (.ite (h.ofMem ?_) h) <;> simp only [memOk_iff, harvestMark_mem]
  exacts [fun ⟨hw, hl⟩ => ⟨mwf_mput _ _ _ hw, hl⟩, fun ⟨hw, hl⟩ => ⟨hw, mwf_mput _ _ _ hl⟩]

protected theorem Keeps.writeBits (h : Keeps k r s) (a : Nat) (mask v : Word) (t : Tag) :
    Keeps k r (writeBits a mask v t s) :=
  .ite (h.foldl _ _ fun _ _ ha => .ite (ha.putPlain _ _ _ _) ha) (h.putPlain _ _ _ _)

protected theorem Keeps.writeWord (h : Keeps k r s) (a : Nat) (x : DWord) : Keeps k r (writeWord a x s) :=
  h.writeBits _ _ _ _

protected theorem Keeps.writeTag (h : Keeps k r s) (a : Nat) (t : Tag) : Keeps k r (writeTag a t s) :=
  .ite (h.foldl _ _ fun _ _ ha => ha.putPlain _ _ _ _) (h.putPlain _ _ _ _)

protected theorem Keeps.writeWords (h : Keeps k r s) (l : List (Nat × DWord)) : Keeps k r (writeWords l s) :=
  h.foldl _ _ fun _ _ ha => ha.writeWord _ _

protected theorem Keeps.memFault (h : Keeps k r s) (f : Nat × Nat) : Keeps k r (memFault s f) :=
  .ite (h.corrected.sramCount _) (.ite (h.same.corrected.sramCount _) (.ite (h.fatalFault _ _) (h.containedFault _ _)))

protected theorem Keeps.recordReadFaults (h : Keeps k r s) (l : List (Nat × Nat)) : Keeps k r (recordReadFaults l s) :=
  h.foldl _ _ fun _ _ ha => ha.memFault _

/-! ### The configuration store and the guard -/

protected theorem Keeps.oemCheck (h : Keeps k r s) : Keeps k r (oemCheck s) := h.same.noticeIf _ _ _ _ _

protected theorem Keeps.accessRefused (h : Keeps k r s) (m a : Nat) (wr : Bool) : Keeps k r (accessRefused m a wr s) :=
  .ite h (h.freezeMaster _ _ _)

protected theorem Keeps.cpRefused (h : Keeps k r s) (a : Nat) (wr : Bool) : Keeps k r (cpRefused s a wr) :=
  h.accessRefused _ _ _

protected theorem Keeps.engAct (h : Keeps k r s) (a : Nat) (wr : Bool) (f : State → State) (hf : Keeps k r (f s)) :
    Keeps k r (engAct a wr f s) :=
  .ite hf (h.accessRefused _ _ _)

end

/-! ### What a command answers -/

/-- Whatever state the command answers keeps the invariants, the one of TOKEN_OUT where `k` claims it. -/
def Answers (k : Bool) (r : State) (o : Out) : Prop := ∀ t, o = .next t → Keeps k r t

section
variable {k : Bool} {r s t : State} {o p : Out}

theorem Answers.next (h : Keeps k r t) : Answers k r (.next t) := fun _ e => by injection e with e; exact e ▸ h

theorem Answers.fault (f : Fault) : Answers k r (.fault f) := fun _ e => by injection e

protected theorem Answers.ite {c : Prop} [Decidable c] (ho : Answers k r o) (hp : Answers k r p) :
    Answers k r (if c then o else p) := by
  split
  exacts [ho, hp]

/-- A command that leads to one state where its condition holds. -/
theorem Answers.when {c : Prop} [Decidable c] (ht : Keeps k r t) (hs : Keeps k r s) :
    Answers k r (if c then .next t else .next s) :=
  .ite (.next ht) (.next hs)

/-- A row that is an access of the CP keeps what the access keeps. -/
protected theorem Answers.cpRow (h : Keeps k r s) (ho : Answers k r o) (a : Nat) (wr : Bool) :
    Answers k r (cpRow a wr s o) :=
  have h0 : Keeps k r (if wr then s else readOut 0 s) := .ite h h.same
  .ite (.next h) (.ite ho (.next (h0.accessRefused _ _ _).settle))

protected theorem Answers.svcRow (h : Keeps k r s) (ho : Answers k r o) (x : Byte) (a : Nat) (wr : Bool) :
    Answers k r (svcRow x a wr s o) :=
  .ite (.cpRow h ho a wr) (.next h)

end
end Sys2Proof.Machine

namespace Sys2Proof.Machine

set_option Elab.async false
section
variable {k : Bool} {r s : State}

/-! ### The reflex block and the field channels -/

theorem execRfxLatch_keeps (h : Keeps k r s) (hi : Bool) (v : Word) : Answers k r (execRfxLatch hi v s) :=
  .cpRow h (.next (Keeps.settle h.same)) _ _

theorem execRfxSoft_keeps (h : Keeps k r s) (v : Word) : Answers k r (execRfxSoft v s) :=
  .cpRow h (.next (h.regPut _ _).settle) _ _

theorem execRfxLastTime_keeps (h : Keeps k r s) : Answers k r (execRfxLastTime s) := .cpRow h (.next h.same) _ _

protected theorem Keeps.rawTo (h : Keeps k r s) (n : Nat) (b : Bool) (ts : Nat) : Keeps k r (rawTo n b ts s) := h.chPut _ _

protected theorem Keeps.sampleTo (h : Keeps k r s) (n : Nat) (b : Bool) : Keeps k r (sampleTo n b s) :=
  .ite h (.ite (h.rawTo _ _ _) (.ite h (h.chPut _ _)))

protected theorem Keeps.calDiscard (h : Keeps k r s) (n code : Nat) : Keeps k r (calDiscard n code s) :=
  (h.chPut _ _).fireIf _ _

protected theorem Keeps.abortWindow (h : Keeps k r s) (n : Nat) : Keeps k r (abortWindow n s) :=
  (h.calDiscard _ _).sampleTo _ _

theorem execRawEdge_keeps (h : Keeps k r s) (n : BitVec 8) (x : Sample) : Answers k r (execRawEdge n x s) :=
  .ite (.next h) (.ite (.next (.ite (h.abortWindow _) h)) (.next (h.sampleTo _ _)))

protected theorem Keeps.debounceTo (h : Keeps k r s) (n : Nat) : Keeps k r (debounceTo n s) :=
  .ite (h.chPut _ _) ((h.chPut _ _).chEdge _ _ _)

theorem execDebouncedEdge_keeps (h : Keeps k r s) (n : BitVec 8) : Answers k r (execDebouncedEdge n s) :=
  .when (h.debounceTo _).settle h

protected theorem Keeps.wetEdge (h : Keeps k r s) (n : Nat) (b : Bool) (ts : Nat) : Keeps k r (wetEdge n b ts s) :=
  Keeps.rawTo (.ite (h.calDiscard _ _) h) _ _ _

theorem execWettingSample_keeps (h : Keeps k r s) (n : BitVec 8) (b : Bool) : Answers k r (execWettingSample n b s) :=
  .when (h.wetEdge _ _ _) h

theorem execWettingConfirm_keeps (h : Keeps k r s) (n : BitVec 8) (b : Bool) :
    Answers k r (execWettingConfirm n b s) := by
  unfold execWettingConfirm
  dsimp only
  split
  · exact .ite (.when (h.wetEdge _ _ _) (h.chPut _ _)) (.next h)
  · exact .next h

theorem execWettingAdapt_keeps (h : Keeps k r s) (n : BitVec 8) (ns : Nat) : Answers k r (execWettingAdapt n ns s) :=
  .ite (.when (h.chPut _ _) (h.chPut _ _)) (.next h)

protected theorem Keeps.breakOff (h : Keeps k r s) (n us : Nat) : Keeps k r (breakOff n us s) :=
  have h1 := Keeps.ite (h.rawTo n false (nowUs s - us)) h
  .ite (Keeps.debounceTo h1 _) h1

theorem execWirebreak_keeps (h : Keeps k r s) (n : BitVec 8) (ua us : Nat) : Answers k r (execWirebreak n ua us s) :=
  .when (((h.breakOff _ _).chPut _ _).fireIf _ _).settle h

theorem execWirebreakClear_keeps (h : Keeps k r s) (n : BitVec 8) (ua us : Nat) :
    Answers k r (execWirebreakClear n ua us s) :=
  .when (Keeps.settle (.ite (((h.chPut _ _).fireIf _ _).chEdge _ _ _) ((h.chPut _ _).fireIf _ _))) h

theorem execWbLearn_keeps (h : Keeps k r s) (n : BitVec 8) (ua : Nat) : Answers k r (execWbLearn n ua s) :=
  .when (h.chPut _ _) h

protected theorem Keeps.chTrip (h : Keeps k r s) (n cause : Nat) : Keeps k r (chTrip n cause s) :=
  (((h.chPut _ _).containedFault _ _).fireIf _ _).settle

theorem execShort_keeps (h : Keeps k r s) (n : BitVec 8) (us : Nat) : Answers k r (execShort n us s) :=
  .when (h.chTrip _ _) h

theorem execOvercurrent_keeps (h : Keeps k r s) (n : BitVec 8) (ma us : Nat) : Answers k r (execOvercurrent n ma us s) :=
  .when ((h.chPut _ _).same.chTrip _ _) h

theorem execThermal_keeps (h : Keeps k r s) (n : BitVec 8) : Answers k r (execThermal n s) := .when (h.chTrip _ _) h

theorem execGroupShed_keeps (h : Keeps k r s) (g : BitVec 5) (ma us : Nat) : Answers k r (execGroupShed g ma us s) := by
  unfold execGroupShed
  refine .ite ?_ (.next h)
  split
  · exact .next (((h.grPut _ _).fireIf _ _).chTrip _ _)
  · exact .next h

theorem execChFaultRearm_keeps (h : Keeps k r s) (n : BitVec 8) : Answers k r (execChFaultRearm n s) :=
  .cpRow h (.when (h.chPut _ _) h) _ _

protected theorem Keeps.rearm (h : Keeps k r s) (n : Nat) (b : Bool) : Keeps k r (rearm n b s) :=
  .ite (h.chPut _ _) (h.chPut _ _)

theorem execMismatch_keeps (h : Keeps k r s) (n : BitVec 8) (us : Nat) : Answers k r (execMismatch n us s) :=
  .when ((h.chPut _ _).fireIf _ _) h

theorem execDriveSense_keeps (h : Keeps k r s) (n : BitVec 8) (b : Bool) : Answers k r (execDriveSense n b s) :=
  .when ((h.chPut _ _).fireIf _ _).releaseCheck.settle h

protected theorem Keeps.settleStart (h : Keeps k r s) (n : Nat) (b : Bool) : Keeps k r (settleStart n b s) :=
  (h.chPut _ _).fireIf _ _

theorem execSettlingEnd_keeps (h : Keeps k r s) (n : BitVec 8) : Answers k r (execSettlingEnd n s) :=
  .when (h.chPut _ _) h

theorem execCalDue_keeps (h : Keeps k r s) (n : BitVec 8) : Answers k r (execCalDue n s) := .when (h.chPut _ _) h

theorem execCalWindow_keeps (h : Keeps k r s) (n : BitVec 8) : Answers k r (execCalWindow n s) := .when (h.chPut _ _) h

theorem execCalResult_keeps (h : Keeps k r s) (n : BitVec 8) (thr ilim : Int) (b : Bool) :
    Answers k r (execCalResult n thr ilim b s) :=
  .ite (.ite (.next (h.calDiscard _ _)) (.ite (.next ((h.calDiscard _ _).notice _ _ _ _))
    (.next (((h.chPut _ _).corrected.nvEnqueue _).gradNotice _ _ _)))) (.next h)

theorem execAbortEdge_keeps (h : Keeps k r s) (n : BitVec 8) : Answers k r (execAbortEdge n s) :=
  .when (h.abortWindow _) h

theorem execCalOverdue_keeps (h : Keeps k r s) (n : BitVec 8) : Answers k r (execCalOverdue n s) := .when (h.chPut _ _) h

theorem execCalReq_keeps (h : Keeps k r s) (n : BitVec 8) : Answers k r (execCalReq n s) :=
  .cpRow h (.when (h.chPut _ _) h) _ _

protected theorem Keeps.frontLost (h : Keeps k r s) (n : Nat) : Keeps k r (frontLost s n) :=
  Keeps.chPut (.ite (h.rawTo _ _ _) h) _ _

theorem execFieldSupplyLost_keeps (h : Keeps k r s) (g : BitVec 5) : Answers k r (execFieldSupplyLost g s) :=
  have h1 := h.foldl (fun a i => frontLost a (8 * g.toNat + i)) (List.range 8) fun _ _ ha => ha.frontLost _
  .when ((h1.grPut _ _).fireIf _ _).settle h

theorem execFieldSupplyReturn_keeps (h : Keeps k r s) (g : BitVec 5) : Answers k r (execFieldSupplyReturn g s) :=
  .when (h.grPut _ _) h

theorem execLow_keeps (h : Keeps k r s) (g : BitVec 5) (mv : BitVec 16) : Answers k r (execLow g mv s) :=
  .when ((h.grPut _ _).fireIf _ _).settle h

theorem execLowClear_keeps (h : Keeps k r s) (g : BitVec 5) (mv : BitVec 16) : Answers k r (execLowClear g mv s) :=
  .when (h.grPut _ _).settle h

theorem execSurge_keeps (h : Keeps k r s) (g : BitVec 5) (uj : Nat) : Answers k r (execSurge g uj s) :=
  .when ((h.grPut _ _).same.gradNotice _ _ _) h

end
end Sys2Proof.Machine

namespace Sys2Proof.Machine

set_option Elab.async false
section
variable {k : Bool} {r s : State}

/-! ### The logic engine -/

protected theorem Keeps.twdExpire (h : Keeps k r s) (n reason : Nat) : Keeps k r (twdExpire n reason s) :=
  (h.same.fireIf _ _).containedFault _ _

protected theorem Keeps.twdServe (h : Keeps k r s) (n : Nat) (key : BitVec 16) : Keeps k r (twdServe n key s) :=
  .ite h (.ite h.same (h.twdExpire _ _))

protected theorem Keeps.twdJudge (h : Keeps k r s) (ks : Byte) : Keeps k r (twdJudge ks s) := by
  obtain ⟨x, hx⟩ := twdJudge_eq ks s
  rw [hx]
  exact h.same

protected theorem Keeps.lanePut (h : Keeps k r s) (l : Nat) (x : LaneSt) : Keeps k r (lanePut s l x) :=
  h.ofTables (by simp only [tablesOk_iff]; exact fun ⟨a, b⟩ => ⟨mwf_mput _ _ _ a, b⟩)

protected theorem Keeps.applyWrite (h : Keeps k r s) (stamp : Nat) (x : LeWrite) :
    Keeps k r (applyWrite stamp s x) :=
  match x with
  | .mem _ _ _ _ => .ite (h.writeTag _ _) (h.writeBits _ _ _ _)
  | .acc _ _ _ _ _ | .rlo _ _ | .stack _ _ | .flags _ _ _ => h.lanePut _ _
  | .sys _ _ => h
  | .raise _ => .ite h (h.same.fire _ _)
  | .wdsrv _ _ => h.twdServe _ _

protected theorem Keeps.recordTraps (h : Keeps k r s) (l : List (BitVec 2 × BitVec 6)) : Keeps k r (recordTraps l s) := by
  unfold Machine.recordTraps
  split
  · exact h
  · exact (h.same.fireIf _ _).foldl _ _ fun _ _ ha => ha.containedFault _ _

theorem coreOf_epochClose (s : State) : coreOf (epochClose s) = coreOf s := by
  unfold epochClose
  split
  · dsimp only
    split <;> rfl
  · rfl

protected theorem Keeps.epochClose (h : Keeps k r s) : Keeps k r (epochClose s) := h.same (coreOf_epochClose s)

protected theorem Keeps.overrunCount (h : Keeps k r s) : Keeps k r (overrunCount s) :=
  .ite (h.same.fatalFault _ _) h.same

protected theorem Keeps.sealScan (h : Keeps k r s) (n : Nat) : Keeps k r (sealScan n s) :=
  (h.same.epochClose.fire _ _).twdJudge _

protected theorem Keeps.abortScan (h : Keeps k r s) : Keeps k r (abortScan s) :=
  (Keeps.ite h.same h.same).epochClose.overrunCount.twdJudge _

protected theorem Keeps.applyCtrl (h : Keeps k r s) (e : LaneEff) (n : Nat) : Keeps k r (applyCtrl e n s) := by
  unfold Machine.applyCtrl
  cases e.ctrl with
  | none => exact h.same
  | some x =>
    cases x with
    | next => exact h.same
    | jump => exact h.same
    | call => exact h.same
    | ret =>
      cases s.le.callStack with
      | nil => exact h.same
      | cons => exact h.same
    | loop l a7 taken t sl => exact .ite (h.lanePut _ _).same (h.lanePut _ _).same
    | ends => exact h.sealScan _

/-- A violation by the logic engine freezes it. -/
theorem Keeps.violations (h : Keeps k r s) (l : List (BitVec 21 × Bool)) :
    Keeps k r (l.foldl (fun x v => freezeMaster 0 (v.1.zeroExtend 32) v.2 x) s) :=
  h.foldl _ _ fun _ _ ha => ha.freezeMaster _ _ _

protected theorem Keeps.retire (h : Keeps k r s) : Keeps k r (retire s) := by
  unfold Machine.retire
  extract_lets l traps abort cost viols s1 frozen ws stamp s2 s3 ctrl
  have h1 : Keeps k r s1 := (h.recordReadFaults _).recordTraps _
  refine .ite (h1.violations _).abortScan (.ite h1 ?_)
  have hw : Keeps k r (ws.foldl (applyWrite stamp) s1) := h1.foldl _ _ fun _ _ ha => ha.applyWrite _ _
  have h2 : Keeps k r s2 := Keeps.violations hw.same _
  exact .ite h2 (h2.same.applyCtrl _ _)

protected theorem Keeps.leIssue (h : Keeps k r s) (c : At) (e : LaneEff) : Keeps k r (leIssue c e s) :=
  .ite (.ite h.same.retire h.same) h

end
end Sys2Proof.Machine

namespace Sys2Proof.Machine

set_option Elab.async false
section
variable {k : Bool} {r s : State}

/-! ### Online edits -/

protected theorem Keeps.editRefuse (h : Keeps k r s) (code : Byte) : Keeps k r (editRefuse code s) := h.same.fire _ _

protected theorem Keeps.editOut (h : Keeps k r s) (e : EditMsg) : Keeps k r (editOut e s) := .ite h.same h

protected theorem Keeps.partnerLow (h : Keeps k r s) (l : List LinkJob) : Keeps k r (partnerLow l s) :=
  .ite (h.foldl _ _ fun _ _ ha => ha.sendLow _) h

theorem execEditOpen_keeps (h : Keeps k r s) : Answers k r (execEditOpen s) :=
  .svcRow h (.ite (.next (h.editRefuse _)) (.ite (.next (h.editRefuse _)) (.when (h.editRefuse _) h.same))) _ _ _

theorem execEditClose_keeps (h : Keeps k r s) : Answers k r (execEditClose s) := by
  refine .svcRow h ?_ _ _ _
  cases s.edit.openRange with
  | none => exact .next (h.editRefuse _)
  | some => exact .ite (.next (h.editRefuse _)) (.when (h.editRefuse _) (h.same.partnerLow _))

theorem execEditStage_keeps (h : Keeps k r s) : Answers k r (execEditStage s) :=
  .svcRow h (.ite (.next (h.editRefuse _)) (.when (h.editRefuse _) (h.same.partnerLow _))) _ _ _

protected theorem Keeps.migStep (h : Keeps k r s) (e : MigEntry) (i : Nat) : Keeps k r (migStep e s i) := by
  have put : ∀ d a, Keeps k r a → Keeps k r (engAct (e.dst + i) true (writeWord (e.dst + i) d) a) :=
    fun _ _ ha => ha.engAct _ _ _ (ha.writeWord _ _)
  exact .ite (put _ _ h) (h.engAct _ _ _ (put _ _ (h.recordReadFaults _)))

protected theorem Keeps.migApplyEntry (h : Keeps k r s) (e : MigEntry) : Keeps k r (migApplyEntry s e) :=
  h.foldl _ _ fun _ _ ha => ha.migStep _ _

protected theorem Keeps.migRun (h : Keeps k r s) (m : MigRef) : Keeps k r (migRun m s) :=
  (h.recordReadFaults _).foldl _ _ fun _ _ ha => ha.migApplyEntry _

protected theorem Keeps.migApply (h : Keeps k r s) : Keeps k r (migApply s) :=
  .ite (h.migRun _) (h.migRun _).same

theorem execMigrationApply_keeps (h : Keeps k r s) : Answers k r (execMigrationApply s) := .when h.migApply.settle h

protected theorem Keeps.swapArm (h : Keeps k r s) (p : EditPhase) (b : BitVec 26) (id : Word) (m : MigRef) :
    Keeps k r (swapArm p b id m s) := h.same.partnerLow _

theorem execEditCommit_keeps (h : Keeps k r s) : Answers k r (execEditCommit s) :=
  .svcRow h (.ite (.next (h.editRefuse _)) (.when (h.editRefuse _) (h.swapArm _ _ _ _).same)) _ _ _

theorem execEditUndo_keeps (h : Keeps k r s) : Answers k r (execEditUndo s) :=
  .svcRow h (.ite (.next (h.editRefuse _)) (.when (h.editRefuse _) (h.swapArm _ _ _ _))) _ _ _

theorem execEditAccept_keeps (h : Keeps k r s) : Answers k r (execEditAccept s) :=
  .svcRow h (.when (h.editRefuse _) (h.same.editOut _)) _ _ _

theorem execEditDiscard_keeps (h : Keeps k r s) : Answers k r (execEditDiscard s) :=
  .svcRow h (.ite (.next (h.editRefuse _)) (.ite (.next (h.same.partnerLow _)) (.when (h.same.editOut _) (h.editRefuse _))))
    _ _ _

protected theorem Keeps.swapLand (h : Keeps k r s) : Keeps k r (swapLand s) :=
  ((h.regPut _ _).same.editOut _).fire _ _

/-- A swap stores no words where no migration is due. -/
protected theorem Keeps.swapNow (h : Keeps k r s) : Keeps k r (swapNow s) :=
  .ite h.swapLand (.ite h.migApply.swapLand h.migApply.settle)

theorem execEditSwap_keeps (h : Keeps k r s) : Answers k r (execEditSwap s) := .when h.swapNow h

/-! ### The record store and the CP flash -/

protected theorem Keeps.secPut (h : Keeps k r s) (i : Nat) (x : Sector) : Keeps k r (secPut s i x) := h.same

protected theorem Keeps.wornMark (h : Keeps k r s) (i : Nat) : Keeps k r (wornMark s i) := h.same.gradNotice _ _ _

protected theorem Keeps.secErased (h : Keeps k r s) (i n : Nat) : Keeps k r (secErased i n s) :=
  .ite ((h.secPut _ _).wornMark _) (h.secPut _ _)

protected theorem Keeps.eraseCut (h : Keeps k r s) : Keeps k r (eraseCut s) := by
  unfold Machine.eraseCut
  split
  exacts [h.same, h]

protected theorem Keeps.openSec (h : Keeps k r s) (role : Nat) (b : Bool) : Keeps k r (openSec role b s) := by
  refine .ite ?_ h
  split
  exacts [h.same, h]

protected theorem Keeps.headAppend (h : Keeps k r s) (b : Bool) (x : Slot) : Keeps k r (headAppend b x s) := by
  have h1 := Keeps.ite (c := headFree s = true) h (h.openSec 1 b)
  unfold Machine.headAppend
  dsimp only
  split
  exacts [.ite h1 (h1.secPut _ _), h1]

protected theorem Keeps.twinAppend (h : Keeps k r s) (x : Slot) : Keeps k r (twinAppend x s) := by
  unfold Machine.twinAppend
  split
  exacts [.ite h (h.secPut _ _), h]

protected theorem Keeps.reclaim (h : Keeps k r s) : Keeps k r (reclaim s) := by
  unfold Machine.reclaim
  split
  · have h1 := fun l => h.foldl (fun a (q : Rec) => headAppend true (some { q with moved := true }) a) l fun _ _ ha => ha.headAppend _ _
    exact .ite ((h1 _).secPut _ _) (h1 _).same
  · exact h

protected theorem Keeps.openHead (h : Keeps k r s) : Keeps k r (openHead s) := .ite (h.openSec _ _).reclaim h

protected theorem Keeps.openTwin (h : Keeps k r s) : Keeps k r (openTwin s) :=
  .ite (.ite (h.openSec _ _).reclaim h.openHead) h

protected theorem Keeps.twinFollow (h : Keeps k r s) : Keeps k r (twinFollow s) := .ite (.ite h.openTwin h) h.same

protected theorem Keeps.headReady (h : Keeps k r s) : Keeps k r (headReady s) := .ite h h.openHead

protected theorem Keeps.twinReady (h : Keeps k r s) : Keeps k r (twinReady s) := by
  unfold Machine.twinReady
  split
  exacts [.ite h.openTwin h, h]

protected theorem Keeps.nvCode (h : Keeps k r s) (c : Nat) : Keeps k r (nvCode c s) := h.same

theorem execNvWrite_keeps (h : Keeps k r s) : Answers k r (execNvWrite s) :=
  .cpRow h (.ite (.next h.same) (.ite (.next h.same) (.ite (.next h.same) (.ite (.next h.same)
    (.when h.same ((h.nvEnqueue _).nvCode _)))))) _ _

theorem execNvRead_keeps (h : Keeps k r s) : Answers k r (execNvRead s) := by
  refine .cpRow h (.ite (.next h.same) ?_) _ _
  split
  exacts [.next h.same, .next h.same]

theorem execNvDrain_keeps (h : Keeps k r s) : Answers k r (execNvDrain s) := by
  unfold execNvDrain
  split
  exacts [.ite (.when h.same h.openHead) (.next h), .next h]

protected theorem Keeps.logSaved (h : Keeps k r s) (n : Nat) : Keeps k r (logSaved n s) := h.same

protected theorem Keeps.roundDone (h : Keeps k r s) : Keeps k r (roundDone s) := .ite h.same h

protected theorem Keeps.nvAdmit (h : Keeps k r s) : Keeps k r (nvAdmit s) := by
  unfold Machine.nvAdmit
  split
  exacts [.ite (h.same.nvEnqueue _) h, h]

protected theorem Keeps.moveNext (h : Keeps k r s) : Keeps k r (moveNext s) := by
  unfold Machine.moveNext
  split
  exacts [.ite (h.headReady.same.headAppend _ _) h.headReady, h]

protected theorem Keeps.nvCarry (h : Keeps k r s) : Keeps k r (nvCarry s) := by
  refine .ite ?_ h
  split
  · split
    exacts [h.nvEnqueue _, h]
  · exact h

protected theorem Keeps.nvKeep (h : Keeps k r s) : Keeps k r (nvKeep s) :=
  have h1 := h.roundDone.nvAdmit.moveNext.twinFollow
  .ite h1.reclaim h1

theorem execNvProgramDone_keeps (h : Keeps k r s) (ok : Bool) : Answers k r (execNvProgramDone ok s) := by
  unfold execNvProgramDone
  split
  · exact .next h
  · next q twin _ =>
    have h0 : Keeps k r (if twin then twinReady s else headReady s) := .ite h.twinReady h.headReady
    have h1 := fun x => Keeps.ite (c := twin = true) (h0.twinAppend x) (h0.headAppend false x)
    exact .ite (.next h0) (.ite (.next (.ite (h1 _).same ((h1 _).same.logSaved _ |>.fire _ _))) (.next (h1 _).same))

theorem execNvEraseDone_keeps (h : Keeps k r s) (b : Bool) : Answers k r (execNvEraseDone b s) := by
  unfold execNvEraseDone
  split
  · exact .next h
  · exact .ite (.next (h.secErased _ _).same) (.when h.same h.same)

protected theorem Keeps.eraseMarked (h : Keeps k r s) : Keeps k r (eraseMarked s) :=
  h.foldl _ _ fun _ _ ha => ha.secErased _ _

protected theorem Keeps.restoreRing (h : Keeps k r s) : Keeps k r (restoreRing s) := .ite h.same h.same

protected theorem Keeps.restoreLog (h : Keeps k r s) : Keeps k r (restoreLog s) :=
  have h0 := Keeps.ite (c := stampsLost s = true) (h.restoreRing.same (t := restoreStamps _))
    (h.restoreRing.same (t := { restoreRing s with btn := { (restoreRing s).btn with backupLost := false } }))
  (h0.same.foldl _ _ fun _ _ ha => ha.ringPut _).noticeIf _ _ _ _ _

protected theorem Keeps.eraseNow (h : Keeps k r s) : Keeps k r (eraseNow s) := by
  unfold Machine.eraseNow
  split
  exacts [(h.secErased _ _).same, h]

protected theorem Keeps.mountReclaim (h : Keeps k r s) (n : Nat) : Keeps k r (mountReclaim n s) := by
  induction n generalizing s with
  | zero => exact h
  | succ n ih => exact .ite h (ih h.reclaim.eraseNow)

theorem execMountDone_keeps (h : Keeps k r s) : Answers k r (execMountDone s) :=
  .ite (.next h) (.next
    (((((h.eraseMarked.same.mountReclaim _).twinFollow).noticeIf _ _ _ _ _).restoreLog).fire _ _))

theorem execStartupEnd_keeps (h : Keeps k r s) : Answers k r (execStartupEnd s) := .when h.same.twinFollow h

theorem execRecoveryEnd_keeps (h : Keeps k r s) : Answers k r (execRecoveryEnd s) := .when h.same.twinFollow h

theorem execNvTest_keeps (h : Keeps k r s) (v : Word) : Answers k r (execNvTest v s) :=
  .cpRow h (.next (h.regPut _ _).same.twinFollow) _ _

protected theorem Keeps.roundQueue (h : Keeps k r s) (l : List Nat) : Keeps k r (roundQueue l s) := by
  induction l generalizing s with
  | nil => exact h
  | cons j l ih => exact .ite h.same (ih (h.nvEnqueue _))

protected theorem Keeps.roundTake (h : Keeps k r s) : Keeps k r (roundTake s) :=
  have h0 := h.recordReadFaults ((s.nv.pmap.drop (4 * s.nv.nextRec)).flatMap (fun a => readFaults s a.toNat))
  have h1 := Keeps.ite (c := recDiffers s (pmapRec s) = true) (h0.nvEnqueue (pmapRec s)) h0
  h1.same.roundQueue _

protected theorem Keeps.flWear (h : Keeps k r s) (l : List Nat) : Keeps k r (flWear l s) :=
  h.foldl _ _ fun _ _ ha => ha.same.gradNotice _ _ _

protected theorem Keeps.flTouch (h : Keeps k r s) (b i : Nat) : Keeps k r (flTouch b i s) := h.same

protected theorem Keeps.flStart (h : Keeps k r s) (erase : Bool) (v : Word) (src : BitVec 2) :
    Keeps k r (flStart erase v src s) :=
  .ite h (.ite (h.same.fire _ _) (.ite h (.ite ((h.same.flWear _).flTouch _ _) h.same)))

theorem execFlProgram_keeps (h : Keeps k r s) (v : Word) (src : BitVec 2) : Answers k r (execFlProgram v src s) :=
  .cpRow h (.next (h.flStart _ _ _)) _ _

theorem execFlErase_keeps (h : Keeps k r s) (v : Word) (src : BitVec 2) : Answers k r (execFlErase v src s) :=
  .cpRow h (.next (h.flStart _ _ _)) _ _

theorem execFlDone_keeps (h : Keeps k r s) (ok : Bool) : Answers k r (execFlDone ok s) := by
  unfold execFlDone
  split
  exacts [.next (h.same.fire _ _), .next h]

end
end Sys2Proof.Machine

namespace Sys2Proof.Machine

set_option Elab.async false
section
variable {k : Bool} {r s t : State}

/-! ### The input latch -/

protected theorem Keeps.nodeEvent (h : Keeps k r s) (bit n : Nat) : Keeps k r (nodeEvent bit n s) :=
  Keeps.fireIf (h.fireIf _ _) _ _

protected theorem Keeps.latchNode (h : Keeps k r s) (n : Nat) : Keeps k r (latchNode s n) :=
  .ite (h.ndPut _ _) (.ite ((h.ndPut _ _).nodeEvent _ _) (h.ndPut _ _))

/-- The channels take a new canonical table. -/
theorem Keeps.chanTab (h : Keeps k r s) (hm : mwf (fun _ => ({} : ChanSt)) t.chan = true)
    (e : { coreOf t with chan := s.chan } = coreOf s := by rfl) : Keeps k r t :=
  have g : Keeps k r { s with chan := t.chan } :=
    h.ofTables (by simp only [tablesOk_iff]; exact fun ⟨a, _, c⟩ => ⟨a, hm, c⟩)
  g.same (by simp only [coreOf, Core.mk.injEq] at e ⊢; simp only [e, and_self])

/-- The groups take a new canonical table. -/
theorem Keeps.grpTab (h : Keeps k r s) (hm : mwf (fun _ => ({} : GrpSt)) t.grp = true)
    (e : { coreOf t with grp := s.grp } = coreOf s := by rfl) : Keeps k r t :=
  have g : Keeps k r { s with grp := t.grp } :=
    h.ofTables (by simp only [tablesOk_iff]; exact fun ⟨a, b, _, d⟩ => ⟨a, b, hm, d⟩)
  g.same (by simp only [coreOf, Core.mk.injEq] at e ⊢; simp only [e, and_self])

protected theorem Keeps.inputLatch (h : Keeps k r s) : Keeps k r (inputLatch s) := by
  unfold Machine.inputLatch
  extract_lets s1 img s2 im again
  have h1 : Keeps k r s1 := h.foldl _ _ fun _ _ ha => ha.latchNode _
  have h2 : Keeps k r s2 := h1.chanTab (mwf_mtab _ _ _)
  exact h2.same

/-! ### The Sluice -/

theorem execSlcKey_keeps (h : Keeps k r s) (v : Word) : Answers k r (execSlcKey v s) := .cpRow h (.next h.same) _ _

theorem execSlcStart_keeps (h : Keeps k r s) (v : Word) : Answers k r (execSlcStart v s) :=
  .cpRow h (.when (Keeps.slcTriggerMask h.same _ _).settle h.same) _ _

theorem execSlcRelease_keeps (h : Keeps k r s) (v : Word) : Answers k r (execSlcRelease v s) :=
  .cpRow h (.when h.same h.same) _ _

protected theorem Keeps.releaseGroups (h : Keeps k r s) : Keeps k r (releaseGroups s) :=
  Keeps.foldl h.same _ _ fun _ _ ha => ha.sgPut _ _

theorem execStep1_keeps (h : Keeps k r s) (op : Nat) (f : SlcGrp → SlcGrp) (g : Nat) : Answers k r (execStep1 op f g s) :=
  .when (h.sgPut _ _).settle h

theorem execSetch_keeps (h : Keeps k r s) (g : BitVec 5) : Answers k r (execSetch g s) := execStep1_keeps h _ _ _

theorem execClrch_keeps (h : Keeps k r s) (g : BitVec 5) : Answers k r (execClrch g s) := execStep1_keeps h _ _ _

theorem execSlcHold_keeps (h : Keeps k r s) (g : BitVec 5) : Answers k r (execSlcHold g s) := execStep1_keeps h _ _ _

theorem execPulse_keeps (h : Keeps k r s) (g : BitVec 5) : Answers k r (execPulse g s) := .when (h.sgPut _ _).settle h

theorem execPulseEnd_keeps (h : Keeps k r s) (g : BitVec 5) : Answers k r (execPulseEnd g s) := .when (h.sgPut _ _).settle h

theorem execSlcWait_keeps (h : Keeps k r s) (g : BitVec 5) : Answers k r (execSlcWait g s) := .when (h.sgPut _ _) h

theorem execWaitEnd_keeps (h : Keeps k r s) (g : BitVec 5) : Answers k r (execWaitEnd g s) := .when (h.sgPut _ _) h

theorem execWaitin_keeps (h : Keeps k r s) (g : BitVec 5) : Answers k r (execWaitin g s) := .when (h.sgPut _ _) h

theorem execWaitinSatisfied_keeps (h : Keeps k r s) (g : BitVec 5) : Answers k r (execWaitinSatisfied g s) :=
  .when (h.sgPut _ _) h

theorem execWaitinTimeout_keeps (h : Keeps k r s) (g : BitVec 5) : Answers k r (execWaitinTimeout g s) :=
  .when (h.sgPut _ _) h

theorem execSlcEnd_keeps (h : Keeps k r s) (g : BitVec 5) : Answers k r (execSlcEnd g s) :=
  .when ((h.sgPut _ _).fireIf _ _).releaseCheck.settle h

theorem execHardOff_keeps (h : Keeps k r s) (g : BitVec 5) : Answers k r (execHardOff g s) := .when (h.grPut _ _).settle h

protected theorem Keeps.hardOffAll (h : Keeps k r s) : Keeps k r (hardOffAll s) := .ite (h.grpTab (mwf_mtab _ _ _)) h

end
end Sys2Proof.Machine

namespace Sys2Proof.Machine

set_option Elab.async false
section
variable {k : Bool} {r s t : State}

/-! ### The tick -/

/-- A change of the module's state and role under which the invariant of TOKEN_OUT stands. -/
theorem Keeps.turn (h : Keeps k r s) (ht : tokenOk s = true → tokenOk t = true)
    (e : { coreOf t with tokenOut := s.pair.tokenOut, mstate := s.pair.mstate, role := s.pair.role } = coreOf s := by rfl) :
    Keeps k r t :=
  { h.weaken.unclaimed e with token := fun hk hr => ht (h.token hk hr) }

protected theorem Keeps.loadTime (h : Keeps k r s) (d : Int) (src : BitVec 2) : Keeps k r (loadTime d src s) :=
  Keeps.fire (h.ofTables (by
    simp only [tablesOk_iff]
    exact fun ⟨a, _, c, d, _, _, g⟩ => ⟨a, mwf_mtab _ _ _, c, d, mwf_mtab _ _ _, mwf_mtab _ _ _, g⟩)) _ _

/-- The words of Q, M and T take a new canonical table. -/
theorem Keeps.wordTab (h : Keeps k r s)
    (hm : mwf (fun _ => goodZero) s.mem.words = true → mwf (fun _ => goodZero) t.mem.words = true)
    (e : { coreOf t with words := s.mem.words } = coreOf s := by rfl) : Keeps k r t := by
  have he := e
  simp only [coreOf, Core.mk.injEq] at he
  refine h.ofMem ?_ (by simp only [coreOf, Core.mk.injEq]; simp only [he, and_self])
  simp only [memOk_iff, he]
  exact fun ⟨a, b⟩ => ⟨hm a, b⟩

protected theorem Keeps.clearRunids (h : Keeps k r s) : Keeps k r (clearRunids s) := by
  have hw := wf_clearRunids (s := s)
  unfold Machine.clearRunids at hw ⊢
  split
  · exact h
  · split
    · exact h.accessRefused _ _ _
    · next hf _ he =>
      rw [if_neg hf, he] at hw
      exact h.wordTab hw

protected theorem Keeps.initWord (h : Keeps k r s) (p : Nat × DWord) : Keeps k r (initWord s p) :=
  .ite (h.wordTab (mwf_mput _ _ _)) (.ite (h.ofMem (by simp only [memOk_iff]; exact fun ⟨a, b⟩ => ⟨a, mwf_mput _ _ _ b⟩)) h)

protected theorem Keeps.coldMemory (h : Keeps k r s) : Keeps k r (coldMemory s) := by
  unfold Machine.coldMemory
  have h0 : Keeps k r { s with mem := { s.mem with
      words := s.mem.words.filter (fun p => inQ p.1), upset := s.mem.upset.filter (fun p => !(inM p.1 || inT p.1)) } } :=
    h.wordTab (mwf_filter _ _)
  have h1 := h0.foldl initWord s.sys.initMem fun _ _ ha => ha.initWord _
  exact .ite h1 (.ite (h1.foldl _ _ fun _ _ ha => ha.initWord _) (h1.notice _ _ _ _))

protected theorem Keeps.budgetRefuse (h : Keeps k r s) : Keeps k r (budgetRefuse s) := Keeps.notice h.same _ _ _ _

protected theorem Keeps.runState (h : Keeps k r s) : Keeps k r (runState s) := by
  have h1 : Keeps k r { s with pair := { s.pair with mstate := .run } } := h.turn (by
    simp only [tokenOk, Bool.or_eq_true, Bool.and_eq_true, decide_eq_true_eq]
    exact Or.imp_right fun ⟨_, hr⟩ => ⟨trivial, hr⟩)
  have h2 : Keeps k r { s with
      pair := { s.pair with mstate := .run }, chan := mtab (fun _ => ({} : ChanSt)) (nCh s) (fun n => { ch s n with rearmPrev := true }) } :=
    h1.chanTab (mwf_mtab _ _ _)
  exact h2.ofMem (by simp only [memOk_iff]; exact fun ⟨a, _⟩ => ⟨a, rfl⟩)

theorem releaseCheck_role {s : State} (h : s.pair.giveKind ≠ 3) : (releaseCheck s).pair.role = s.pair.role := by
  unfold releaseCheck
  dsimp only
  split
  · split
    · next hc => exact absurd hc.1 h
    · rfl
  · rfl

@[simp] theorem sendOn_role (ls : List Bool) (p : LinkPayload) (s : State) : (sendOn ls p s).pair.role = s.pair.role :=
  (foldl_keeps (fun a : State => a.pair.role) (fun a l => laneUse l p a) (fun _ _ => rfl) ls _).trans rfl

/-- The reaction to a fault changes no role: only a handover given up in HOLD does. -/
theorem fatalReact_role (src reason cause : Nat) (s : State) : (fatalReact src reason cause s).pair.role = s.pair.role := by
  unfold fatalReact
  dsimp only
  split
  · unfold giveUpOp
    dsimp only
    rw [releaseCheck_role (by simp)]
    simp
  all_goals simp

@[simp] theorem fcuRecord_pair (src reason cls : Nat) (s : State) : (fcuRecord src reason cls s).pair = s.pair := by
  simp [fcuRecord]

theorem fatalFault_role (src reason : Nat) (s : State) : (fatalFault src reason s).pair.role = s.pair.role := by
  unfold fatalFault
  rw [fatalReact_role, fcuRecord_pair]

theorem containedFault_role (src reason : Nat) (s : State) : (containedFault src reason s).pair.role = s.pair.role := by
  unfold containedFault
  dsimp only
  split
  · simp
  · rw [fatalReact_role, fcuRecord_pair]
  · simp

theorem accessRefused_role (m a : Nat) (wr : Bool) (s : State) : (accessRefused m a wr s).pair.role = s.pair.role := by
  unfold accessRefused freezeMaster
  split
  · rfl
  · dsimp only
    split
    · rw [fatalFault_role, fire_pair]
    · rw [containedFault_role, fire_pair]

theorem clearRunids_role (s : State) : (clearRunids s).pair.role = s.pair.role := by
  unfold clearRunids
  split
  · rfl
  · split
    · exact accessRefused_role _ _ _ _
    · rfl

theorem coldMemory_role (s : State) : (coldMemory s).pair.role = s.pair.role := by
  have init : ∀ (l : List (Nat × DWord)) (a : State), (l.foldl initWord a).pair.role = a.pair.role :=
    foldl_keeps (fun a : State => a.pair.role) _ (fun a b => by unfold initWord; split; rfl; split <;> rfl)
  unfold coldMemory
  dsimp only
  split
  · rw [init]
  · split
    · rw [init, init]
    · rw [notice_pair, init]

protected theorem Keeps.enterRun (h : Keeps k r s) (cold : Bool) : Keeps k r (enterRun cold s) := by
  unfold Machine.enterRun
  split
  · exact h.budgetRefuse
  · extract_lets warm fresh differs s1 s2 s3
    have h1 : Keeps k r s1 := .ite h.clearRunids h
    have h2 : Keeps k r s2 := .ite h1 h1.coldMemory
    have h3 : Keeps k r s3 := Keeps.runState (Keeps.same (h2.noticeIf _ _ _ _ _))
    have hr1 : s1.pair.role = s.pair.role := by
      rw [apply_ite (fun a : State => a.pair.role) _ (clearRunids s) s, clearRunids_role, ite_self]
    have hr2 : s2.pair.role = s.pair.role := by
      rw [apply_ite (fun a : State => a.pair.role) _ s1 (coldMemory s1), coldMemory_role, ite_self, hr1]
    have hr3 : s3.pair.role = s.pair.role := by
      rw [← hr2]; simp [s3, runState, unhealthy]
    refine Keeps.turn (h3.chanTab (t := { s3 with chan := mtab (fun _ => ({} : ChanSt)) (nCh s3) (fun n => { ch s3 n with cmd := false }) })
      (mwf_mtab _ _ _)) (fun _ => ?_)
    have hrun : s3.pair.mstate = .run := rfl
    change (!decide (s.pair.role = .active) || (decide (s3.pair.mstate = .run) && decide (s3.pair.role = .active))) = true
    simp only [hr3, hrun, decide_true, Bool.true_and, Bool.not_or_self]

/-! ### The boundary -/

protected theorem Keeps.settleNew (h : Keeps k r s) (old : State) (first : Bool) (n : Nat) : Keeps k r (settleNew old first s n) :=
  .ite ((h.settleStart _ _).chPut _ _) (h.settleStart _ _)

protected theorem Keeps.settleAll (h : Keeps k r s) (old : State) (first : Bool) : Keeps k r (settleAll old first s) :=
  h.foldl _ _ fun _ _ ha => .ite (ha.settleNew _ _ _) (.ite (ha.chPut _ _) (.ite (ha.chPut _ _) ha))

protected theorem Keeps.reloadDone (h : Keeps k r s) : Keeps k r (reloadDone s) :=
  h.foldl _ _ fun _ _ ha => .ite (ha.grPut _ _) ha

protected theorem Keeps.currentFollow (h : Keeps k r s) : Keeps k r (currentFollow s) := .ite h.same h

protected theorem Keeps.lagFollow (h : Keeps k r s) : Keeps k r (lagFollow s) := .ite (Keeps.currentFollow h.same) h

protected theorem Keeps.tickStep (h : Keeps k r s) : Keeps k r (tickStep s) := by
  unfold Machine.tickStep
  extract_lets first old s1 t0 want p num next
  have h1 : Keeps k r s1 := by
    unfold s1
    split
    exacts [h.loadTime _ _, h]
  exact h1.ofTables (by simp only [tablesOk_iff]; exact fun ⟨a, b, c, d, _, f⟩ => ⟨a, b, c, d, mwf_mtab _ _ _, f⟩)

protected theorem Keeps.rfxMask (h : Keeps k r s) : Keeps k r (rfxMask s) := h.same

protected theorem Keeps.settingsTurn (h : Keeps k r s) (old : State) (first : Bool) : Keeps k r (settingsTurn old first s) :=
  Keeps.reloadDone (Keeps.settleAll h.rfxMask.same _ _)

protected theorem Keeps.settleChanged (h : Keeps k r s) (old : State) (first : Bool) : Keeps k r (settleChanged old first s) :=
  h.rfxMask.foldl _ _ fun _ _ ha => .ite (ha.settleNew _ _ _) ha

protected theorem Keeps.leBoundary (h : Keeps k r s) : Keeps k r (leBoundary s) := by
  refine h.trans ⟨id, ?_, id, fun _ => ?_⟩
  · simp only [tablesOk_iff]
    refine fun ⟨a, b, _, d, e⟩ => ⟨a, b, mwf_mtab _ _ _, ?_, e⟩
    unfold Machine.leBoundary
    dsimp only
    split
    exacts [rfl, d]
  · unfold Machine.leBoundary
    cases hstop : s.le.stopReady && inRun s && !anyRunning s <;> simp [tokenOk]

protected theorem Keeps.shipStart (h : Keeps k r s) : Keeps k r (shipStart s) := .ite h.same h

protected theorem Keeps.twdBoundary (h : Keeps k r s) : Keeps k r (twdBoundary s) := .ite h.same (.ite h.same (h.twdJudge _))

protected theorem Keeps.listenStart (h : Keeps k r s) : Keeps k r (listenStart s) := .ite h.same h

/-! ### The output commit and the scan -/

protected theorem Keeps.commitOut (h : Keeps k r s) (n : Nat) : Keeps k r (commitOut s n) :=
  .ite ((h.chPut _ _).rearm _ _) (h.chPut _ _)

protected theorem Keeps.commitChan (h : Keeps k r s) (n : Nat) : Keeps k r (commitChan s n) :=
  .ite (h.commitOut _) (h.chPut _ _)

protected theorem Keeps.absentBack (h : Keeps k r s) : Keeps k r (absentBack s) := h.wordTab wf_absentBack

protected theorem Keeps.commitNode (h : Keeps k r s) (n : Nat) : Keeps k r (commitNode s n) :=
  .ite h (.ite ((h.ndPut _ _).nodeEvent _ _) (h.ndPut _ _))

protected theorem Keeps.supersede (h : Keeps k r s) (x : BitVec 2) (b : Nat) : Keeps k r (supersede x b s) :=
  (h.buPut _ _).fireIf _ _

protected theorem Keeps.loadOutputs (h : Keeps k r s) (b : Nat) : Keeps k r (loadOutputs s b) :=
  .ite ((h.supersede _ _).buPut _ _) (h.supersede _ _)

protected theorem Keeps.commitNow (h : Keeps k r s) : Keeps k r (commitNow s) :=
  have h0 : Keeps k r { s with le := { s.le with commQ := s.le.sealedQ } } := h.same
  have h1 := h0.recordReadFaults (commitFaults { s with le := { s.le with commQ := s.le.sealedQ } })
  have h2 := h1.foldl commitChan (List.range (nCh s)) fun _ _ ha => ha.commitChan _
  have h3 := h2.foldl commitNode (List.range (nNodes s)) fun _ _ ha => ha.commitNode _
  Keeps.absentBack h3.same

protected theorem Keeps.rfxReset (h : Keeps k r s) (m : BitVec 64) : Keeps k r (rfxReset m s) := h.same

protected theorem Keeps.rfxEndActions (h : Keeps k r s) : Keeps k r (rfxEndActions s) := h.same

protected theorem Keeps.commitRequests (h : Keeps k r s) : Keeps k r (commitRequests s) :=
  have h2 := (Keeps.rfxReset (h.same (t := { s with le := { s.le with sealedReady := false, sealedGo := 0, sealedRst := 0 } }))
    s.le.sealedRst).rfxEval.rfxEndActions
  .ite h2 (h2.slcTriggerMask _ _)

protected theorem Keeps.cpRearms (h : Keeps k r s) : Keeps k r (cpRearms s) :=
  h.foldl _ _ fun _ _ ha => .ite (ha.rearm _ _) ha

protected theorem Keeps.commitMiss (h : Keeps k r s) : Keeps k r (commitMiss s) := .ite h.same h

protected theorem Keeps.takeoverCommit (h : Keeps k r s) : Keeps k r (takeoverCommit s) := by
  unfold Machine.takeoverCommit
  split
  · next hc =>
    obtain ⟨hr, hrun, _⟩ := hc
    exact Keeps.sendFrame (h.turn fun _ => by simpa [tokenOk, hr, inRun] using hrun) _
  · exact h

theorem execOutputCommit_keeps (h : Keeps k r s) : Answers k r (execOutputCommit s) := by
  unfold execOutputCommit
  refine .ite (.next h) (.next ?_)
  have h1 := Keeps.ite (c := commitTakes s = true) h.commitNow.takeoverCommit.commitRequests h.commitMiss
  refine Keeps.settle (Keeps.foldl ?_ _ _ fun _ _ ha => ha.loadOutputs _)
  exact (Keeps.rfxEndActions (Keeps.rfxEval h1.same)).cpRearms.releaseGroups

theorem execRefreshTimeout_keeps (h : Keeps k r s) : Answers k r (execRefreshTimeout s) :=
  .when (Keeps.fatalFault h.same _ _).settle h

protected theorem Keeps.scanFresh (h : Keeps k r s) : Keeps k r (scanFresh s) :=
  h.ofTables (by simp only [tablesOk_iff]; exact fun ⟨_, b⟩ => ⟨rfl, b⟩)

theorem execScanStart_keeps (h : Keeps k r s) : Answers k r (execScanStart s) := by
  unfold execScanStart
  have h1 := (Keeps.ite (c := swapDue s = true) h.swapNow h).scanFresh
  exact .ite (.next h) (.when (h1.recordTraps _).abortScan h1)

theorem execOverrun_keeps (h : Keeps k r s) : Answers k r (execOverrun s) :=
  .when ((Keeps.fire h.same _ _).containedFault _ _).overrunCount.settle h

theorem execScanHistClr_keeps (h : Keeps k r s) (v : Word) : Answers k r (execScanHistClr v s) := .cpRow h (.next h.same) _ _

theorem execCountLo_keeps (h : Keeps k r s) : Answers k r (execCountLo s) := .cpRow h (.next h.same) _ _

end
end Sys2Proof.Machine

namespace Sys2Proof.Machine

set_option Elab.async false
section
variable {k : Bool} {r s t : State}

/-! ### The monitor and the windows -/

theorem execMonSnap_keeps (h : Keeps k r s) : Answers k r (execMonSnap s) := .cpRow h (.next h.same) _ _

theorem execMonWrite_keeps (h : Keeps k r s) : Answers k r (execMonWrite s) := .cpRow h (.next h.same) _ _

protected theorem Keeps.snapCopy (h : Keeps k r s) (n : Nat) : Keeps k r (snapCopy n s) := Keeps.recordReadFaults h.same _

theorem execSnapshot_keeps (h : Keeps k r s) : Answers k r (execSnapshot s) := by
  unfold execSnapshot
  refine .ite (.next h) ?_
  split
  · exact .next ((h.snapCopy _).accessRefused _ _ _).settle
  · exact .next (h.snapCopy _).same

protected theorem Keeps.wlApply (h : Keeps k r s) (i : Nat) : Keeps k r (wlApply s i) :=
  .ite h (.ite h.same (h.engAct _ _ _ (h.writeWord _ _)))

theorem execWriteList_keeps (h : Keeps k r s) : Answers k r (execWriteList s) := by
  unfold execWriteList
  refine .ite ?_ (.next h)
  have h0 : Keeps k r { s with mon := { s.mon with skipped := 0 } } := h.same
  have h1 := h0.foldl wlApply (List.range 64) fun _ _ ha => ha.wlApply _
  exact .next (.ite h1.settle h1.same)

theorem execPersistRound_keeps (h : Keeps k r s) : Answers k r (execPersistRound s) := by
  unfold execPersistRound
  refine .ite (.next h) ?_
  split
  exacts [.next (h.accessRefused _ _ _).settle, .next h.roundTake]

theorem execDataWindowLowWrite_keeps (h : Keeps k r s) (a : BitVec 21) (v : Word) : Answers k r (execDataWindowLowWrite a v s) :=
  .ite (.next (h.cpRefused _ _)) (.next h.same)

theorem execDataWindowHighWrite_keeps (h : Keeps k r s) (a : BitVec 21) (v : Word) :
    Answers k r (execDataWindowHighWrite a v s) := by
  unfold execDataWindowHighWrite
  refine .ite (.next (h.cpRefused _ _)) (.ite (.next h.same) ?_)
  split
  · exact .next (.ite (Keeps.writeWord h.same _ _) (Keeps.writeTag h.same _ _))
  · exact .next (Keeps.writeTag h.same _ _)

theorem coreOf_readOut (v : Word) (s : State) : coreOf (readOut v s) = coreOf s := rfl

protected theorem Keeps.readOut (h : Keeps k r s) (v : Word) : Keeps k r (readOut v s) := h.same

protected theorem Keeps.progLowRead (h : Keeps k r s) (i : BitVec 20) : Keeps k r (progLowRead i s) :=
  .ite ((Keeps.cpRefused h.same _ _).readOut _) ((Keeps.recordReadFaults h.same _).readOut _)

protected theorem Keeps.dataLowRead (h : Keeps k r s) (a : BitVec 21) : Keeps k r (dataLowRead a s) :=
  .ite ((Keeps.cpRefused h.same _ _).readOut _) ((Keeps.recordReadFaults h.same _).readOut _)

theorem execDataWindowLowRead_keeps (h : Keeps k r s) (w : LeWord) : Answers k r (execDataWindowLowRead w s) := by
  cases w with
  | data a => exact .next (h.dataLowRead a)
  | prog i => exact .next (h.progLowRead i)

protected theorem Keeps.forwardProg (h : Keeps k r s) (pool : Bool) (x : Nat) : Keeps k r (forwardProg pool x s) := h.partnerLow _

protected theorem Keeps.progWinWrite (h : Keeps k r s) (i : Nat) (hi : Bool) (v : Word) : Keeps k r (progWinWrite i hi v s) :=
  .ite h.same (.ite (Keeps.forwardProg h.same _ _) h.same)

protected theorem Keeps.poolWinWrite (h : Keeps k r s) (i : Nat) (hi : Bool) (v : Word) : Keeps k r (poolWinWrite i hi v s) :=
  .ite (Keeps.forwardProg h.same _ _) h

theorem execLockstepMismatch_keeps (h : Keeps k r s) : Answers k r (execLockstepMismatch s) :=
  .when ((h.stopScan.fire _ _).fatalFault _ _).settle h

theorem execSelfTestPassStart_keeps (h : Keeps k r s) : Answers k r (execSelfTestPassStart s) := .when h.same h

theorem execLockstepSelfTest_keeps (h : Keeps k r s) (pass : Bool) : Answers k r (execLockstepSelfTest pass s) :=
  .ite (.when h.same h) (.when ((Keeps.fire h.same _ _).fatalFault _ _).settle h)

theorem execDbProg_keeps (h : Keeps k r s) : Answers k r (execDbProg s) := .next (h.fatalFault _ _).settle

theorem execScrub_keeps (h : Keeps k r s) (b : BitVec 4) : Answers k r (execScrub b s) :=
  .next (.ite ((Keeps.corrected h.same).sramCount _) h.same)

end
end Sys2Proof.Machine

namespace Sys2Proof.Machine

set_option Elab.async false
section
variable {k : Bool} {r s t : State}

/-! ### The redundant pair -/

/-- A module that is not ACTIVE in RUN asserts no TOKEN_OUT, and goes on to assert none. -/
theorem Keeps.notDriving (h : Keeps k r s) (hs : ¬ (s.pair.mstate = .run ∧ s.pair.role = .active)) (g : Keeps false r t)
    (e : t.pair.tokenOut = s.pair.tokenOut := by rfl) : Keeps k r t where
  mem := g.mem
  tables := g.tables
  queues := g.queues
  token := fun hk hr => by
    have hq := h.token hk hr
    simp only [tokenOk, ← Bool.decide_and, hs, decide_false, Bool.or_false, Bool.not_eq_true'] at hq
    simp only [tokenOk, e, hq, Bool.not_false, Bool.true_or]

@[simp] theorem setRole_tokenOut (x : Role) (cause : Nat) (s : State) : (setRole x cause s).pair.tokenOut = s.pair.tokenOut := by
  unfold setRole
  split <;> simp

protected theorem Keeps.pairNotice (h : Keeps k r s) (src : Nat) : Keeps k r (pairNotice src s) := h.notice _ _ _ _

protected theorem Keeps.pairNoticeIf (h : Keeps k r s) (c : Bool) (src : Nat) : Keeps k r (pairNoticeIf c src s) :=
  .ite (h.pairNotice _) h

@[simp] theorem pairNotice_pair (src : Nat) (s : State) : (pairNotice src s).pair = s.pair := by simp [pairNotice]

@[simp] theorem pairNoticeIf_pair (c : Bool) (src : Nat) (s : State) : (pairNoticeIf c src s).pair = s.pair := by
  unfold pairNoticeIf
  split <;> simp

theorem coreOf_lanePutL (s : State) (l : Bool) (x : LaneStat) : coreOf (lanePutL s l x) = coreOf s := by
  cases l <;> rfl

protected theorem Keeps.lanePutL (h : Keeps k r s) (l : Bool) (x : LaneStat) : Keeps k r (lanePutL s l x) :=
  h.same (coreOf_lanePutL s l x)

protected theorem Keeps.laneUse (h : Keeps k r s) (l : Bool) (p : LinkPayload) : Keeps k r (laneUse l p s) :=
  h.same (coreOf_laneUse l p s)

protected theorem Keeps.laneError (h : Keeps k r s) (l : Bool) : Keeps k r (laneError l s) := (h.lanePutL _ _).same

protected theorem Keeps.laneRetx (h : Keeps k r s) (l : Bool) (n : Nat) : Keeps k r (laneRetx l n s) := (h.lanePutL _ _).same

protected theorem Keeps.awaitResync (h : Keeps k r s) : Keeps k r (awaitResync s) := Keeps.currentFollow h.same

protected theorem Keeps.resyncHere (h : Keeps k r s) : Keeps k r (resyncHere s) := .ite h.startResync (.ite h.awaitResync h)

protected theorem Keeps.laneHeard (h : Keeps k r s) (x : FrameHdr) : Keeps k r (laneHeard x s) :=
  have h1 := (h.lanePutL x.lane { laneOf s x.lane with up := true, lastRx := s.time.cyc }).same.fireIf _ _
  .ite (Keeps.resyncHere h1) h1

/-- A frame that is delivered does what its kind does. -/
protected theorem Keeps.onFrame (h : Keeps k r s) (q : Bool) (x : FrameHdr) (f : State → State)
    (hf : ∀ a, Keeps k r a → Keeps k r (f a)) : Keeps k r (onFrame q x f s) :=
  .ite h (.ite (h.laneError _) (.ite (hf _ (h.laneHeard _)) (.ite (hf _ (h.laneHeard _).same) (h.laneHeard _))))

theorem execHeartbeatSend_keeps (h : Keeps k r s) (l : Bool) : Answers k r (execHeartbeatSend l s) :=
  .when (Keeps.laneUse h.same _ _) h

protected theorem Keeps.lossCheck (h : Keeps k r s) : Keeps k r (lossCheck s) :=
  .ite h ((Keeps.fire h.same _ _).pairNoticeIf _ _)

protected theorem Keeps.linkLost (h : Keeps k r s) : Keeps k r (linkLost s) := h.same

theorem execLaneDown_keeps (h : Keeps k r s) (l : Bool) : Answers k r (execLaneDown l s) := by
  unfold execLaneDown
  extract_lets x mine s1 pair s2
  have h1 : Keeps k r s1 := h.lanePutL _ _
  have h2 : Keeps k r s2 := .ite h1.linkLost (Keeps.laneRetx h1.same _ _)
  exact .when (h2.fire _ _).lossCheck.settle h

theorem execLinkResend_keeps (h : Keeps k r s) (seq : BitVec 16) : Answers k r (execLinkResend seq s) := by
  unfold execLinkResend
  split
  · next f _ => exact .when ((h.laneRetx f.hdr.lane 1).laneUse f.hdr.lane f.payload).same h
  · exact .next h

protected theorem Keeps.sendEpoch (h : Keeps k r s) (l : Bool) (p : LinkPayload) (e : ShipEpoch) : Keeps k r (sendEpoch l p e s) := by
  unfold Machine.sendEpoch
  extract_lets e1 s1
  have h1 : Keeps k r s1 := by
    unfold s1
    split
    exacts [(h.recordReadFaults _).same, h]
  exact Keeps.sendOn h1.same _ _

protected theorem Keeps.serveLane (h : Keeps k r s) (l : Bool) : Keeps k r (serveLane l s) := by
  unfold Machine.serveLane
  refine .ite h ?_
  split
  · refine .ite h ?_
    split
    exacts [(h.accessRefused _ _ _).settle, h.sendEpoch _ _ _]
  · split
    · exact h
    · dsimp only
      split
      exacts [Keeps.sendOn h.same _ _, h.same]

protected theorem Keeps.linkServe (h : Keeps k r s) : Keeps k r (linkServe s) :=
  .ite h (.ite ((h.serveLane _).serveLane _) (h.serveLane _))

protected theorem Keeps.mergeEnd (h : Keeps k r s) : Keeps k r (mergeEnd s) :=
  .ite (.ite (((h.fire _ _).stopScan.enterShadow _).settle.pairNotice _) ((h.fire _ _).pairNotice _)) h

protected theorem Keeps.mergeStanding (h : Keeps k r s) : Keeps k r (mergeStanding s) := .ite h.mergeEnd h

protected theorem Keeps.hbTime (h : Keeps k r s) (p : Heartbeat) : Keeps k r (hbTime p s) := .ite h.same h

protected theorem Keeps.hbConditions (h : Keeps k r s) (x : FrameHdr) (p : Heartbeat) : Keeps k r (hbConditions x p s) := by
  unfold Machine.hbConditions
  extract_lets mis seat pair s1 s2 s3 pair3
  have h2 : Keeps k r s2 := Keeps.pairNoticeIf (Keeps.pairNoticeIf h.same _ _) _ _
  split
  · next hc =>
    have h3 : Keeps false r s3 := h2.weaken.setRole _ _
    have e3 : s3.pair.tokenOut = s.pair.tokenOut := by simp [s3, s2, s1, pair]
    exact h.notDriving (by simp [hc.2]) h3.unclaimed e3
  · exact h2

protected theorem Keeps.hbHandover (h : Keeps k r s) (p : Heartbeat) : Keeps k r (hbHandover p s) := .ite (h.giveUpOp _ _ _) h

protected theorem Keeps.hbTake (h : Keeps k r s) (x : FrameHdr) (p : Heartbeat) : Keeps k r (hbTake x p s) :=
  have h2 := Keeps.fireIf (h.same (t := { s with pair := _ })) _ _
  Keeps.hbHandover (Keeps.hbTime (Keeps.hbConditions (.ite (h2.startResync.pairNoticeIf _ _) h2) _ _) _) _

protected theorem Keeps.autoPull (h : Keeps k r s) : Keeps k r (autoPull s) := .ite (Keeps.sendLow h.same _) h

theorem execHeartbeat_keeps (h : Keeps k r s) (x : FrameHdr) (p : Heartbeat) : Answers k r (execHeartbeat x p s) :=
  .next (h.onFrame _ _ _ fun _ ha => .ite (ha.hbTake _ _).autoPull.mergeEnd (ha.hbTake _ _).autoPull).settle

theorem execGiveUp_keeps (h : Keeps k r s) (x : FrameHdr) (p : GiveUpMsg) : Answers k r (execGiveUp x p s) :=
  .next (h.onFrame _ _ _ fun _ ha => .ite (Keeps.same (Keeps.fire ha.same _ _)) (Keeps.fire ha.same _ _)).settle

protected theorem Keeps.takeNow (h : Keeps k r s) (cause : Nat) : Keeps k r (takeNow cause s) := by
  unfold Machine.takeNow
  extract_lets nc s1 s2
  have h1 : Keeps false r s1 := (h.weaken.setRole _ _).runState
  have h2 : Keeps false r { s1 with bus := mtab (fun _ => ({} : BusSt)) (nBus s) (fun b => { bu s1 b with lowerHeard := none }) } :=
    h1.ofTables (by simp only [tablesOk_iff]; exact fun ⟨a, b, c, d, _, f⟩ => ⟨a, b, c, d, mwf_mtab _ _ _, f⟩)
  exact Keeps.pairNoticeIf (Keeps.fire h2.silent _ _) _ _

theorem execTakeover_keeps (h : Keeps k r s) : Answers k r (execTakeover s) := by
  unfold execTakeover
  split
  exacts [.when (h.takeNow _).settle h, .next h]

theorem execTaken_keeps (h : Keeps k r s) (x : FrameHdr) (n : BitVec 64) : Answers k r (execTaken x n s) :=
  .next (h.onFrame _ _ _ fun _ ha => Keeps.releaseCheck ha.same).settle

theorem execGiveupExpired_keeps (h : Keeps k r s) : Answers k r (execGiveupExpired s) := by
  unfold execGiveupExpired
  split
  · split
    · next hc =>
      have hs : s.pair.mstate = .hold := by simp only [Bool.and_eq_true, decide_eq_true_eq] at hc; exact hc.1.1.1
      exact .next (h.notDriving (by simp [hs]) (h.weaken.slcTriggerAll 6).unclaimed (by simp)).settle
    · exact .next h
  · exact .next h

theorem execTokenIn_keeps (h : Keeps k r s) (on : Bool) : Answers k r (execTokenIn on s) :=
  have h1 : Keeps k r _ := Keeps.releaseCheck (h.same (t := { s with pair := { s.pair with tokenIn := on } }))
  .ite (.next h) (.ite (.next (.ite h (Keeps.wakePin h.same _))) (.ite (.next h.same)
    (.next (Keeps.lossCheck (.ite h1.mergeEnd h1)).settle)))

theorem execEpochBegin_keeps (h : Keeps k r s) (x : FrameHdr) (p : EpochHdr) : Answers k r (execEpochBegin x p s) :=
  .next (h.onFrame _ _ _ fun _ ha => .ite ha.same ha).settle

protected theorem Keeps.stageUpd (h : Keeps k r s) (f : Staged → Staged) : Keeps k r (stageUpd f s) := .ite h.same h

theorem execBlock_keeps (h : Keeps k r s) (x : FrameHdr) (sw : Bool) (a : BitVec 21) (ws : List DWord) :
    Answers k r (execBlock x sw a ws s) :=
  .next (h.onFrame _ _ _ fun _ ha => ha.stageUpd _).settle

theorem execEdit_keeps (h : Keeps k r s) (x : FrameHdr) (p : EditMsg) : Answers k r (execEdit x p s) :=
  .next (h.onFrame _ _ _ fun _ ha => ha.stageUpd _).settle

theorem execForce_keeps (h : Keeps k r s) (x : FrameHdr) (p : ForceChange) : Answers k r (execForce x p s) :=
  .next (h.onFrame _ _ _ fun _ ha => ha.stageUpd _).settle

protected theorem Keeps.applyEdit (h : Keeps k r s) (e : EditMsg) : Keeps k r (applyEdit s e) := by
  cases e <;> exact h.same

protected theorem Keeps.applyForce (h : Keeps k r s) (f : ForceChange) : Keeps k r (applyForce s f) := (h.regPut _ _).regPut _ _

protected theorem Keeps.renumber (h : Keeps k r s) (d : Int) : Keeps k r (renumber d s) :=
  .ite h (h.ofTables (by
    simp only [tablesOk_iff]
    exact fun ⟨a, _, c, d, _, _, g⟩ => ⟨a, mwf_mtab _ _ _, c, d, mwf_mtab _ _ _, mwf_mtab _ _ _, g⟩))

theorem wf_applyBlocks (l : List (BitVec 21 × List DWord)) {m : SMap DWord} (h : mwf (fun _ => goodZero) m = true) :
    mwf (fun _ => goodZero) (l.foldl applyBlock m) = true := by
  induction l generalizing m with
  | nil => exact h
  | cons b l ih => exact ih (wf_applyBlock b h)

protected theorem Keeps.epochApply (h : Keeps k r s) (e : Staged) : Keeps k r (epochApply e s) := by
  unfold Machine.epochApply
  extract_lets m num mem s1 s2 s3 fin
  have h1 : Keeps k r s1 := Keeps.renumber (h.wordTab (wf_applyBlocks _)) _
  have h2 : Keeps k r s2 := (h1.foldl _ _ fun _ _ ha => ha.applyEdit _).foldl _ _ fun _ _ ha => ha.applyForce _
  have h3 : Keeps k r s3 := h2.regPut _ _
  exact Keeps.currentFollow h3.same

protected theorem Keeps.epochLost (h : Keeps k r s) (seq : Word) : Keeps k r (epochLost seq s) :=
  Keeps.awaitResync (Keeps.sendFrame h.same _)

protected theorem Keeps.epochWrite (h : Keeps k r s) (e : Staged) : Keeps k r (epochWrite e s) := by
  unfold Machine.epochWrite
  split
  exacts [Keeps.accessRefused h.same _ _ _, h.epochApply _]

theorem execEpochEnd_keeps (h : Keeps k r s) (x : FrameHdr) (seq : Word) (ok : Bool) : Answers k r (execEpochEnd x seq ok s) := by
  refine .next (h.onFrame _ _ _ fun a ha => .ite ha ?_).settle
  split
  exacts [.ite (ha.epochWrite _) (ha.epochLost _), .ite ha.same (ha.epochLost _)]

theorem execEpochLost_keeps (h : Keeps k r s) (x : FrameHdr) (seq : Word) : Answers k r (execEpochLost x seq s) :=
  .next (h.onFrame _ _ _ fun _ ha => ha.resyncHere).settle

theorem execEpochShipped_keeps (h : Keeps k r s) : Answers k r (execEpochShipped s) := by
  unfold execEpochShipped
  split
  exacts [.when h.same h, .next h]

theorem execProgram_keeps (h : Keeps k r s) (x : FrameHdr) (b : BitVec 19) (ws : List (BitVec 36)) :
    Answers k r (execProgram x b ws s) :=
  .next (h.onFrame _ _ _ fun _ ha => .ite ha (.ite ha.same ha.same)).settle

theorem execRangeAck_keeps (h : Keeps k r s) (x : FrameHdr) (b : BitVec 18) (p : Bool) : Answers k r (execRangeAck x b p s) :=
  .next (h.onFrame _ _ _ fun _ ha => ha.same).settle

theorem execBlockTable_keeps (h : Keeps k r s) (x : FrameHdr) (l : List (Nat × BlockEntry)) (p : PrevTable) :
    Answers k r (execBlockTable x l p s) :=
  .next (h.onFrame _ _ _ fun _ ha => .ite (Keeps.currentFollow ha.same) ha).settle

/-- An UNDECIDED module in READY may take role ACTIVE: its TOKEN_OUT is released. -/
theorem Keeps.tryActive (h : Keeps k r s) (hs : s.pair.role = .undecided) (cause : Nat) : Keeps k r (tryActive cause s) := by
  unfold Machine.tryActive
  extract_lets res le s1 pair
  have h1 : Keeps k r s1 := h.same
  exact .ite (h1.notDriving (by simp [s1, hs]) (Keeps.setRole h1.weaken.same _ _) (by simp [pair])) h1

protected theorem Keeps.decideRole (h : Keeps k r s) : Keeps k r (decideRole s) := by
  unfold Machine.decideRole
  dsimp only
  split
  · exact h
  · next hc =>
    have hu : s.pair.role = .undecided := by simp only [not_or, Decidable.not_not] at hc; exact hc.1
    exact .ite (h.enterShadow _) (.ite (.ite (h.tryActive hu _) h) (.ite h (.ite h (h.tryActive hu _))))

theorem execListenEnd_keeps (h : Keeps k r s) : Answers k r (execListenEnd s) := by
  unfold execListenEnd
  split
  exacts [.when (Keeps.decideRole h.same).settle h, .next h]

end
end Sys2Proof.Machine

namespace Sys2Proof.Machine

set_option Elab.async false
section
variable {k : Bool} {r s t : State}

/-! ### Silent takeovers, evaluation points and the pair commands -/

theorem setRole_role (x : Role) (cause : Nat) (s : State) : (setRole x cause s).pair.role = x := by
  unfold setRole
  split
  · assumption
  · simp

theorem memFault_role (s : State) (f : Nat × Nat) : (memFault s f).pair.role = s.pair.role := by
  unfold memFault
  split
  · simp [sramCount, corrected]
  · split
    · simp [sramCount, corrected, clearUpset]
    · split
      · rw [fatalFault_role]
      · rw [containedFault_role]

theorem recordReadFaults_role (l : List (Nat × Nat)) (s : State) : (recordReadFaults l s).pair.role = s.pair.role :=
  foldl_keeps (fun a : State => a.pair.role) memFault memFault_role l s

@[simp] theorem rearm_pair (n : Nat) (cp : Bool) (s : State) : (rearm n cp s).pair = s.pair := by
  simp [rearm, apply_ite State.pair]

theorem commitChan_pair (s : State) (n : Nat) : (commitChan s n).pair = s.pair := by
  simp [commitChan, commitOut, apply_ite State.pair]

theorem commitNode_pair (s : State) (n : Nat) : (commitNode s n).pair = s.pair := by
  simp [commitNode, nodeEvent, apply_ite State.pair]

theorem commitNow_role (s : State) : (commitNow s).pair.role = s.pair.role := by
  simp only [commitNow, absentBack, foldl_keeps (fun a : State => a.pair) commitNode commitNode_pair,
    foldl_keeps (fun a : State => a.pair) commitChan commitChan_pair, recordReadFaults_role]

theorem cpRearms_pair (s : State) : (cpRearms s).pair = s.pair :=
  foldl_keeps (fun a : State => a.pair) _ (fun _ _ => by simp [apply_ite State.pair]) _ _

theorem takeNow_role (cause : Nat) (s : State) : (takeNow cause s).pair.role = .active := by
  simp [takeNow, runState, setRole_role]

/-- The takeover asserts TOKEN_OUT only where its commit has left the module in RUN. -/
protected theorem Keeps.silentTake (h : Keeps k r s) : Keeps k r (silentTake s) := by
  have h1 : Keeps k r (cpRearms (commitNow (takeNow 5 s))) := (h.takeNow 5).commitNow.cpRearms
  have hr : (cpRearms (commitNow (takeNow 5 s))).pair.role = .active := by rw [cpRearms_pair, commitNow_role, takeNow_role]
  unfold Machine.silentTake
  generalize cpRearms (commitNow (takeNow 5 s)) = x at h1 hr
  exact h1.turn fun _ => by simp [tokenOk, hr, inRun]

/-- A module that is not ACTIVE takes the role by a cold start. -/
theorem Keeps.coldTake (h : Keeps k r s) (hs : s.pair.role ≠ .active) : Keeps k r (coldTake s) := by
  have h1 : ∀ x c, Keeps false r (setRole x c s) := fun x c => h.weaken.setRole x c
  refine .ite ?_ ?_
  · exact h.notDriving (by simp [hs]) (Keeps.pairNotice (Keeps.fire (h1 _ _).unclaimed _ _) _) (by simp)
  · exact h.notDriving (by simp [hs]) (Keeps.pairNotice (h1 _ _).unclaimed _) (by simp)

protected theorem Keeps.standbyEval (h : Keeps k r s) : Keeps k r (standbyEval s) := by
  unfold Machine.standbyEval
  split
  · next hc =>
    have hr : s.pair.role = .standby := by simp only [receives, Bool.and_eq_true, decide_eq_true_eq] at hc; exact hc.1.1
    exact .ite h.silentTake (h.coldTake (by simp [hr]))
  · exact h

theorem execEvaluationPoint_keeps (h : Keeps k r s) : Answers k r (execEvaluationPoint s) := by
  unfold execEvaluationPoint
  refine .ite (.next (Keeps.settle (Keeps.standbyEval ?_))) (.next h)
  exact .ite (Keeps.lossCheck h.same).decideRole (Keeps.lossCheck h.same)

theorem execHandover_keeps (h : Keeps k r s) (key : BitVec 16) : Answers k r (execHandover key s) :=
  .cpRow h (.ite (.next h) (.ite (.next h.same) (.ite (.next h.same) (.ite (.next h.same) (.ite (.next h.same)
    (.when h.same h.same)))))) _ _

theorem execHandoverFail_keeps (h : Keeps k r s) : Answers k r (execHandoverFail s) := by
  unfold execHandoverFail
  split
  exacts [.when h.same h, .next h]

theorem execPull_keeps (h : Keeps k r s) (key : BitVec 16) : Answers k r (execPull key s) :=
  .cpRow h (.ite (.next h) (.ite (.next h.same) (.ite (.next h.same) (.ite (.next h.same)
    (.when h.same (Keeps.sendLow h.same _)))))) _ _

theorem execResync_keeps (h : Keeps k r s) (key : BitVec 16) : Answers k r (execResync key s) :=
  .cpRow h (.ite (.next h) (.ite (.next h.same) (.ite (.next h.same) (.ite (.next h.same)
    (.when h.same (Keeps.startResync h.same)))))) _ _

theorem execPairLastTime_keeps (h : Keeps k r s) : Answers k r (execPairLastTime s) :=
  .cpRow h (.when h.same h.same) _ _

theorem execPairEpochTick_keeps (h : Keeps k r s) : Answers k r (execPairEpochTick s) :=
  .cpRow h (.when h.same h.same) _ _

/-! ### The fault collector and the watchdogs -/

theorem execProtectionViolation_keeps (h : Keeps k r s) (m : BitVec 3) (a : Word) (wr : Bool) :
    Answers k r (execProtectionViolation m a wr s) :=
  .ite (.next h.same) (.ite (.next h.same) (.when (h.freezeMaster _ _ _).settle h))

theorem execFreezeClr_keeps (h : Keeps k r s) (v : Word) : Answers k r (execFreezeClr v s) :=
  .cpRow h (.ite (.next (.ite (Keeps.resyncHere h.same) h.same)) (.next h.same)) _ _

theorem execTwdExpired_keeps (h : Keeps k r s) (n : BitVec 3) : Answers k r (execTwdExpired n s) :=
  .when (h.twdExpire _ _).settle h

theorem execBackupWdg_keeps (h : Keeps k r s) : Answers k r (execBackupWdg s) :=
  .ite (.next h) (.ite (.next (.ite (Keeps.callReset h.same _) h)) (.next (Keeps.callReset h.same _)))

theorem execBwdHalfTimeout_keeps (h : Keeps k r s) : Answers k r (execBwdHalfTimeout s) := .when (Keeps.fire h.same _ _) h

theorem execClockFail_keeps (h : Keeps k r s) (dev : Int) : Answers k r (execClockFail dev s) :=
  .ite (.next h) (.ite (.next h.same) (.ite (.next h.same) (.next
    (Keeps.silent (h.fcuRecord 496 0x24 2).stopScan))))

theorem execBackupClock_keeps (h : Keeps k r s) (bad : Bool) : Answers k r (execBackupClock bad s) :=
  have h1 := Keeps.fire (h.same (t := { s with wd := { s.wd with backupFail := bad } })) 496 s.time.ns
  .ite (.next h) (.next (.ite ((h1.containedFault _ _).noticeIf _ _ _ _ _).settle h1.same))

protected theorem Keeps.selfMark (h : Keeps k r s) (n : Nat) : Keeps k r (selfMark n s) := h.silent

/-- A canonical table stays so under a map that keeps its keys and the entries that are not the default. -/
theorem mwfFrom_map {α : Type} [DecidableEq α] {d : Nat → α} (f : Nat × α → Nat × α) (hf : ∀ p, (f p).1 = p.1)
    (hd : ∀ p, p.2 ≠ d p.1 → (f p).2 ≠ d p.1) {m : SMap α} {b : Nat} (h : mwfFrom d b m = true) :
    mwfFrom d b (m.map f) = true := by
  induction m generalizing b with
  | nil => rfl
  | cons p m ih =>
    simp only [mwfFrom, List.map_cons, Bool.and_eq_true, decide_eq_true_eq, hf] at h ⊢
    exact ⟨⟨h.1.1, hd p h.1.2⟩, ih h.2⟩

/-- The sequence of a group that a fatal fault has just started takes cause FCU_SELF. -/
def selfCause (cyc : Nat) (p : Nat × SlcGrp) : Nat × SlcGrp :=
  if p.2.phase = .running ∧ p.2.step = 0 ∧ p.2.stepCyc = cyc + 200 ∧ p.2.cause.toNat ≤ 2 then (p.1, { p.2 with cause := 3 }) else p

theorem selfCause_fst (cyc : Nat) (p : Nat × SlcGrp) : (selfCause cyc p).1 = p.1 := by
  unfold selfCause
  split <;> rfl

theorem selfCause_ne_default (cyc : Nat) (p : Nat × SlcGrp) (hp : p.2 ≠ {}) : (selfCause cyc p).2 ≠ {} := by
  unfold selfCause
  split
  · next hc =>
    intro e
    have hp : p.2.phase = .idle := congrArg SlcGrp.phase e
    exact absurd (hc.1.symm.trans hp) (by decide)
  · exact hp

protected theorem Keeps.selfOverrides (h : Keeps k r s) : Keeps k r (selfOverrides s) := by
  have h1 : Keeps k r { s with slc := { s.slc with grp := s.slc.grp.map (selfCause s.time.cyc) } } := h.ofTables (by
    simp only [tablesOk_iff]
    exact fun ⟨a, b, c, d, e⟩ => ⟨a, b, c, mwfFrom_map _ (selfCause_fst _) (selfCause_ne_default _) d, e⟩)
  refine .ite h ?_
  dsimp only
  split
  exacts [h1.same, h1.same]

theorem releaseCheck_silent {s : State} (hs : s.pair.tokenOut = false) : (releaseCheck s).pair.tokenOut = false := by
  unfold releaseCheck
  dsimp only
  split
  · split
    · simp [enterShadow]
    · exact hs
  · exact hs

theorem giveUpOp_silent (kind src reason : Nat) (s : State) : (giveUpOp kind src reason s).pair.tokenOut = false :=
  releaseCheck_silent (by simp)

/-- A fault of the FCU itself leaves TOKEN_OUT released. -/
theorem execFcuParity_keeps (h : Keeps k r s) (n : BitVec 6) : Answers k r (execFcuParity n s) := by
  unfold execFcuParity
  extract_lets s1 s2 le pair
  refine .ite (.next ?_) (.next h)
  have h1 : Keeps k r s1 := (h.selfOverrides.fcuRecord _ _ _).selfMark _ |>.slcTriggerAll _
  have h2 : Keeps k r s2 := .ite (h1.giveUpOp _ _ _) h1.stopScan
  have ht : s2.pair.tokenOut = false := by
    unfold s2
    split
    · exact giveUpOp_silent _ _ _ _
    · simp [s1, selfMark]
  exact Keeps.settle (Keeps.silent h2 ht)

theorem execFcuFirstTimeLo_keeps (h : Keeps k r s) : Answers k r (execFcuFirstTimeLo s) := .cpRow h (.next h.same) _ _

theorem execFcuFatalTimeLo_keeps (h : Keeps k r s) : Answers k r (execFcuFatalTimeLo s) := .cpRow h (.next h.same) _ _

end
end Sys2Proof.Machine

namespace Sys2Proof.Machine

set_option Elab.async false
section
variable {k : Bool} {r s t : State}

/-! ### Station time -/

protected theorem Keeps.setTime (h : Keeps k r s) (d : Int) (src : BitVec 2) : Keeps k r (setTime d src s) :=
  .ite (h.loadTime _ _) h.same

protected theorem Keeps.timeResult (h : Keeps k r s) (n : Nat) : Keeps k r (timeResult n s) := h.same

theorem execTimeSet_keeps (h : Keeps k r s) (key : BitVec 16) : Answers k r (execTimeSet key s) :=
  .cpRow h (.next (.ite h.same (.ite h.same (.ite h.same ((h.timeResult 0).setTime _ _).settle)))) _ _

theorem execSlew_keeps (h : Keeps k r s) (key : BitVec 16) : Answers k r (execSlew key s) :=
  .cpRow h (.next (.ite h.same (.ite h.same h.same))) _ _

theorem execSlewStop_keeps (h : Keeps k r s) (key : BitVec 16) : Answers k r (execSlewStop key s) :=
  .cpRow h (.next (.ite h.same h.same)) _ _

theorem execSlewComplete_keeps (h : Keeps k r s) : Answers k r (execSlewComplete s) := .when h.same h

protected theorem Keeps.lockState (h : Keeps k r s) (a b : Bool) : Keeps k r (lockState a b s) := Keeps.fireIf h.same _ _

theorem execPpsIn_keeps (h : Keeps k r s) : Answers k r (execPpsIn s) := .ite (.next h) (.next (Keeps.lockState h.same _ _))

theorem execPpsHoldover_keeps (h : Keeps k r s) : Answers k r (execPpsHoldover s) := .when (Keeps.lockState h.same _ _) h

theorem execTimeOfDay_keeps (h : Keeps k r s) (u : BitVec 2) (utc age : Nat) : Answers k r (execTimeOfDay u utc age s) := by
  unfold execTimeOfDay
  split
  exacts [.when (h.setTime _ _).settle h, .next h]

theorem execPpsOut_keeps (h : Keeps k r s) : Answers k r (execPpsOut s) := .when h.same h

theorem execTimeLo_keeps (h : Keeps k r s) : Answers k r (execTimeLo s) := .cpRow h (.next h.same) _ _

protected theorem Keeps.advance (h : Keeps k r s) : Keeps k r (advance s) := h.same

/-! ### The station buses -/

protected theorem Keeps.busStart (h : Keeps k r s) (b : Nat) (f : SchedFrame) : Keeps k r (busStart b f s) := h.buPut _ _

protected theorem Keeps.busLose (h : Keeps k r s) (b : Nat) : Keeps k r (busLose b s) := by
  unfold Machine.busLose
  dsimp only
  split
  exacts [(h.buPut _ _).fireIf _ _, h]

protected theorem Keeps.errCount (h : Keeps k r s) (b : Nat) (tec rec : Byte) (off : Bool) : Keeps k r (errCount b tec rec off s) :=
  have h1 := Keeps.ite (c := off = true) (h.busLose b) h
  Keeps.fireIf (Keeps.same (h1.buPut _ _)) _ _

protected theorem Keeps.errSent (h : Keeps k r s) (b : Nat) : Keeps k r (errSent b s) := .ite h (h.errCount _ _ _ _)

protected theorem Keeps.errHeard (h : Keeps k r s) (b : Nat) : Keeps k r (errHeard b s) := .ite h (h.errCount _ _ _ _)

protected theorem Keeps.busEnd (h : Keeps k r s) (b : Nat) : Keeps k r (busEnd b s) := by
  unfold Machine.busEnd
  dsimp only
  split
  exacts [.ite ((h.buPut _ _).errSent _) h, h]

protected theorem Keeps.busHeard (h : Keeps k r s) (b age : Nat) : Keeps k r (busHeard b age s) := (h.busLose _).buPut _ _

theorem execReferenceFrame_keeps (h : Keeps k r s) (b : BitVec 2) (d : Nat) : Answers k r (execReferenceFrame b d s) :=
  .ite (.next h) (.when ((h.supersede _ _).buPut _ _).same (h.buPut _ _).same)

theorem execReferenceFrameHeard_keeps (h : Keeps k r s) (b : BitVec 2) (id : BitVec 11) (b0 : Option Byte) :
    Answers k r (execReferenceFrameHeard b id b0 s) := by
  unfold execReferenceFrameHeard
  extract_lets i n x s1 pair s2 s3
  have h1 : Keeps k r s1 := .ite (h.buPut _ _) h
  have h2 : Keeps k r s2 := h1.same
  have h3 : Keeps k r s3 := .ite ((h2.busHeard _ _).errHeard _) h2
  exact .when (Keeps.ite h3.mergeEnd h3).settle h

protected theorem Keeps.sendCorrection (h : Keeps k r s) (b n : Nat) : Keeps k r (sendCorrection b n s) :=
  (((h.ndPut _ _).buPut _ _).busStart _ _).nodeEvent _ _

protected theorem Keeps.busServe (h : Keeps k r s) (b : Nat) : Keeps k r (busServe b s) := by
  unfold Machine.busServe
  have h1 := h.busEnd b
  dsimp only
  refine .ite h1 ?_
  split
  exacts [h1.busStart _ _, .ite (h1.sendCorrection _ _) h1, h1]

protected theorem Keeps.queueActivate (h : Keeps k r s) (kind : Nat) : Keeps k r (queueActivate kind s) :=
  h.foldl _ _ fun _ _ ha => .ite (ha.buPut _ _) ha

theorem execFreeWindow_keeps (h : Keeps k r s) (b : BitVec 2) : Answers k r (execFreeWindow b s) := .when (h.buPut _ _).same h

theorem execActivateArm_keeps (h : Keeps k r s) : Answers k r (execActivateArm s) := .when (h.queueActivate _).same h

protected theorem Keeps.nodeGood (h : Keeps k r s) (n : Nat) : Keeps k r (nodeGood n s) :=
  .ite ((h.ndPut _ _).nodeEvent _ _) (h.ndPut _ _)

protected theorem Keeps.nodeViolation (h : Keeps k r s) (n : Nat) (ofs : Int) : Keeps k r (nodeViolation n ofs s) :=
  .ite h (.ite ((h.ndPut _ _).buPut _ _) (h.ndPut _ _))

theorem execNodeInputFrame_keeps (h : Keeps k r s) (n : BitVec 8) (sof eof : Int) (busy : Bool) (data : List Byte) :
    Answers k r (execNodeInputFrame n sof eof busy data s) := by
  unfold execNodeInputFrame
  extract_lets i base shift pushed tick a z start len guard due window edge late x s1 s2
  have h2 : Keeps k r s2 := ((h.ndPut _ _).busHeard _ _).errHeard _
  exact .ite (.next h) (.next (.ite (h2.nodeGood _) (.ite h2 (h2.nodeViolation _ _))))

protected theorem Keeps.intrusion (h : Keeps k r s) (b n : Nat) (f : CanFrame) : Keeps k r (intrusion b n f s) :=
  .ite (.ite ((h.buPut _ _).fire _ _) (h.buPut _ _)) h

protected theorem Keeps.rxStore (h : Keeps k r s) (b n : Nat) (f : CanFrame) : Keeps k r (rxStore b n f s) :=
  .ite h (.ite ((h.buPut _ _).fire _ _) (h.buPut _ _))

theorem execRxFrame_keeps (h : Keeps k r s) (b : BitVec 2) (f : HeardFrame) : Answers k r (execRxFrame b f s) :=
  .when ((((h.busHeard _ _).errHeard _).intrusion _ _ _).rxStore _ _ _) h

theorem execCanRxPop_keeps (h : Keeps k r s) (b : BitVec 2) (v : Word) : Answers k r (execCanRxPop b v s) :=
  .cpRow h (.when (h.buPut _ _) h) _ _

protected theorem Keeps.txPut (h : Keeps k r s) (b e : Nat) (x : TxEntry) : Keeps k r (txPut s b e x) := h.buPut _ _

theorem execTxReq_keeps (h : Keeps k r s) (b : BitVec 2) (e : BitVec 4) : Answers k r (execTxReq b e s) :=
  .cpRow h (.ite (.next h) (.when (h.txPut _ _ _) (h.txPut _ _ _))) _ _

protected theorem Keeps.txAbort (h : Keeps k r s) (b e : Nat) : Keeps k r (txAbort b e s) :=
  .ite ((h.txPut _ _ _).fireIf _ _) h

theorem execTxAbort_keeps (h : Keeps k r s) (b : BitVec 2) (e : BitVec 4) : Answers k r (execTxAbort b e s) :=
  .cpRow h (.when (h.txAbort _ _) h) _ _

protected theorem Keeps.txRefuse (h : Keeps k r s) (b : Nat) : Keeps k r (txRefuse b s) :=
  h.foldl _ _ fun _ _ ha => .ite (ha.txPut _ _ _) ha

theorem execTxDone_keeps (h : Keeps k r s) (b : BitVec 2) (e : BitVec 4) (age : Nat) (esi : Bool) :
    Answers k r (execTxDone b e age esi s) := by
  unfold execTxDone
  extract_lets i j s0 x n s1 s2
  have h0 : Keeps k r s0 := h.txRefuse _
  have h2 : Keeps k r s2 := ((h0.txPut _ _ _).busHeard _ _).errSent _
  exact .ite (.next (.ite (h2.fire _ _) h2)) (.next h0)

theorem execBusError_keeps (h : Keeps k r s) (b : BitVec 2) (tec rec : Byte) : Answers k r (execBusError b tec rec s) :=
  .when ((h.busLose _).errCount _ _ _ _) h

theorem execErrorStateChange_keeps (h : Keeps k r s) (b : BitVec 2) (tec rec : Byte) (st : BitVec 2) :
    Answers k r (execErrorStateChange b tec rec st s) :=
  .when (h.errCount _ _ _ _) h

theorem execBusOffRecovery_keeps (h : Keeps k r s) (b : BitVec 2) : Answers k r (execBusOffRecovery b s) :=
  .when ((h.buPut _ _).fireIf _ _) h

end
end Sys2Proof.Machine

namespace Sys2Proof.Machine

set_option Elab.async false
section
variable {k : Bool} {r s t : State}

/-! ### The communication processor -/

/-- The event queues become no longer. -/
theorem Keeps.ofQueues (h : Keeps k r s) (hq : queuesOk s = true → queuesOk t = true)
    (e : { coreOf t with q0 := s.ev.q0, q1 := s.ev.q1 } = coreOf s := by rfl) : Keeps k r t := by
  simp only [coreOf, Core.mk.injEq] at e
  obtain ⟨hr, hw, hlw, hl, hc, hg, hsg, hb, hn, hu, -, -, hto, hm, hro⟩ := e
  refine h.trans ⟨?_, ?_, hq, fun _ => ?_⟩
  · simp only [memOk, hw, hlw, imp_self]
  · simp only [tablesOk, hl, hc, hg, hsg, hb, hn, hu, hr, imp_self]
  · simp only [tokenOk, hto, hm, hro, imp_self]

theorem execIcClaim_keeps (h : Keeps k r s) : Answers k r (execIcClaim s) := by
  refine .cpRow h ?_ _ _
  split
  · unfold ringTake
    split <;> exact .next h.same
  · exact .next h.same

theorem execIcComplete_keeps (h : Keeps k r s) (src : BitVec 10) : Answers k r (execIcComplete src s) :=
  .cpRow h (.next h.same) _ _

theorem length_popIf {q : List QEntry} (c : Bool) (h : q.length ≤ 512) : (if c then q.drop 1 else q).length ≤ 512 := by
  split
  · simp only [List.length_drop]; omega
  · exact h

theorem execEqPop_keeps (h : Keeps k r s) (q : BitVec 1) (v : Word) : Answers k r (execEqPop q v s) :=
  .cpRow h (.next (h.ofQueues (by
    simp only [queuesOk_iff]; exact fun ⟨a, b⟩ => ⟨length_popIf _ a, length_popIf _ b⟩))) _ _

protected theorem Keeps.uaPut (h : Keeps k r s) (u : Nat) (x : UartSt) : Keeps k r (uaPut s u x) :=
  h.ofTables (by simp only [tablesOk_iff]; exact fun ⟨a, b, c, d, e, f, g, i⟩ => ⟨a, b, c, d, e, f, mwf_mput _ _ _ g, i⟩)

protected theorem Keeps.cpReset (h : Keeps k r s) (cause : Nat) : Keeps k r (cpReset cause s) := by
  unfold Machine.cpReset
  extract_lets s0 s1 msg
  have h0 : Keeps k r s0 := h.foldl _ _ fun _ _ ha => ha.foldl _ _ fun _ _ hb => hb.txAbort _ _
  have h1 : Keeps k r s1 := h0.foldl _ _ fun _ _ ha => ha.regPut _ _
  have h2 : Keeps k r { s1 with cp := { s1.cp with uart := mtab (fun _ => ({} : UartSt)) 4 (fun u => uartReset (ua s1 u)) } } :=
    h1.ofTables (by simp only [tablesOk_iff]; exact fun ⟨a, b, c, d, e, f, _, i⟩ => ⟨a, b, c, d, e, f, mwf_mtab _ _ _, i⟩)
  exact Keeps.settle (h2.ofQueues fun _ => rfl)

protected theorem Keeps.cpwdFail (h : Keeps k r s) (reason : Nat) : Keeps k r (cpwdFail reason s) :=
  (Keeps.containedFault h.same _ _).cpReset _

theorem execCpWdg_keeps (h : Keeps k r s) : Answers k r (execCpWdg s) := .when (h.cpwdFail _) h

theorem execCpwdService_keeps (h : Keeps k r s) (v : Word) : Answers k r (execCpwdService v s) :=
  .cpRow h (.when h.same (h.cpwdFail _)) _ _

theorem execCpLockstep_keeps (h : Keeps k r s) : Answers k r (execCpLockstep s) :=
  .next (.ite ((h.containedFault _ _).cpReset _) h)

theorem execDbCpSram_keeps (h : Keeps k r s) : Answers k r (execDbCpSram s) := .next (.ite ((h.containedFault _ _).cpReset _) h)

theorem execCpResetRequest_keeps (h : Keeps k r s) : Answers k r (execCpResetRequest s) := .next (.ite (h.cpReset _) h)

theorem execCpRestart_keeps (h : Keeps k r s) : Answers k r (execCpRestart s) := .when (Keeps.oemCheck h.same).settle h

theorem execOemViolation_keeps (h : Keeps k r s) : Answers k r (execOemViolation s) := .when (Keeps.notice h.same _ _ _ _) h

theorem execOemRestart_keeps (h : Keeps k r s) : Answers k r (execOemRestart s) := .when h.same h

protected theorem Keeps.charStart (h : Keeps k r s) (u n : Nat) : Keeps k r (charStart u n s) := h.uaPut _ _

protected theorem Keeps.uartStart (h : Keeps k r s) (u : Nat) : Keeps k r (uartStart u s) :=
  .ite h (.ite (.ite h (h.uaPut _ _)) (.ite ((h.uaPut _ _).charStart _ _) (h.charStart _ _)))

theorem execUartDataWrite_keeps (h : Keeps k r s) (u : BitVec 2) (v : Byte) : Answers k r (execUartDataWrite u v s) :=
  .cpRow h (.next ((h.uaPut _ _).uartStart _)) _ _

theorem execUartDataRead_keeps (h : Keeps k r s) (u : BitVec 2) : Answers k r (execUartDataRead u s) := by
  refine .cpRow h ?_ _ _
  dsimp only
  split
  exacts [.next ((h.uaPut _ _).readOut _), .next h.same]

theorem execLeadEnd_keeps (h : Keeps k r s) (u : BitVec 2) : Answers k r (execLeadEnd u s) :=
  .when ((h.uaPut _ _).charStart _ _) h

theorem execTailEnd_keeps (h : Keeps k r s) (u : BitVec 2) : Answers k r (execTailEnd u s) :=
  .when ((h.uaPut _ _).uartStart _) h

theorem execGovHold_keeps (h : Keeps k r s) (u : BitVec 2) : Answers k r (execGovHold u s) := .when ((h.uaPut _ _).fire _ _) h

theorem execGovResume_keeps (h : Keeps k r s) (u : BitVec 2) : Answers k r (execGovResume u s) :=
  .when ((h.uaPut _ _).uartStart _) h

theorem execUartRxByte_keeps (h : Keeps k r s) (u : BitVec 2) (v : Byte) (a b : Bool) :
    Answers k r (execUartRxByte u v a b s) :=
  .ite (.next h) (.next (Keeps.fireIf ((h.uaPut _ _).fireIf _ _) _ _))

theorem execIdleGap_keeps (h : Keeps k r s) (u : BitVec 2) : Answers k r (execIdleGap u s) := by
  unfold execIdleGap
  dsimp only
  split
  exacts [.when ((h.uaPut _ _).fire _ _) h, .next h]

theorem execUartTxComplete_keeps (h : Keeps k r s) (u : BitVec 2) : Answers k r (execUartTxComplete u s) :=
  .when ((h.uaPut _ _).fireIf _ _) h

theorem execModemLineChange_keeps (h : Keeps k r s) (u : BitVec 2) (l : BitVec 4) :
    Answers k r (execModemLineChange u l s) := by
  unfold execModemLineChange
  dsimp only
  refine .ite (.next ?_) (.when (((h.uaPut _ _).fire _ _).uartStart _) h)
  split
  exacts [(h.uaPut _ _).wakePin _, h.uaPut _ _]

theorem execEthernetFrame_keeps (h : Keeps k r s) (e : Bool) (n : Nat) (a b : Bool) :
    Answers k r (execEthernetFrame e n a b s) :=
  .ite (.next h) (.ite (.next (h.fire _ _)) (.ite (.next h) (.when (Keeps.fire h.same _ _) (Keeps.fire h.same _ _))))

protected theorem Keeps.sessPut (h : Keeps k r s) (i : Nat) (x : Option Session) : Keeps k r (sessPut s i x) := h.same

theorem execEthernetLink_keeps (h : Keeps k r s) (e up : Bool) : Answers k r (execEthernetLink e up s) :=
  have h1 := Keeps.ite (c := up = true) h (h.sessPut (b2n e) none)
  .ite (.next h) (.next (Keeps.fire h1.same _ _))

theorem execUsbVbus_keeps (h : Keeps k r s) (on : Bool) : Answers k r (execUsbVbus on s) := by
  unfold execUsbVbus
  have h1 := Keeps.ite (c := on = true) h (h.sessPut 2 none)
  dsimp only
  refine .next ?_
  split
  exacts [Keeps.wakePin h1.same _, h1.same]

theorem execSessionOpen_keeps (h : Keeps k r s) (i : BitVec 2) : Answers k r (execSessionOpen i s) := .when h.same h

protected theorem Keeps.tokenFail (h : Keeps k r s) (i : Nat) : Keeps k r (tokenFail i s) := Keeps.noticeIf h.same _ _ _ _ _

theorem execToken_keeps (h : Keeps k r s) (i : BitVec 2) (m : TokenMsg) : Answers k r (execToken i m s) := by
  unfold execToken
  split
  exacts [.ite (.next h) (.when (h.sessPut _ _) (h.tokenFail _)), .next h]

theorem execTokenLockEnd_keeps (h : Keeps k r s) (i : BitVec 2) : Answers k r (execTokenLockEnd i s) := by
  unfold execTokenLockEnd
  split
  exacts [.when h.same h, .next h]

theorem execSessionExpiry_keeps (h : Keeps k r s) (i : BitVec 2) : Answers k r (execSessionExpiry i s) := by
  unfold execSessionExpiry
  split
  exacts [.when (h.sessPut _ _) h, .next h]

/-! ### The Bittern log -/

protected theorem Keeps.lifeTick (h : Keeps k r s) (n : Int) : Keeps k r (lifeTick n s) := Keeps.gradNotice h.same _ _ _

protected theorem Keeps.chanMeans (h : Keeps k r s) (n : Nat) (m : ChanMeans) : Keeps k r (chanMeans s n m) := (h.chPut _ _).same

protected theorem Keeps.groupMeans (h : Keeps k r s) (g : Nat) (m : GroupMeans) : Keeps k r (groupMeans s g m) := by
  refine (h.grPut _ _).foldl _ _ fun a i ha => ?_
  split
  exacts [ha.chanMeans _ _, ha]

theorem execLogSample_keeps (h : Keeps k r s) (mv : Nat) (temp die : Int) (f : List GroupMeans) :
    Answers k r (execLogSample mv temp die f s) := by
  refine .when (Keeps.lifeTick (Keeps.foldl h.same _ _ fun a i ha => ?_) _) h
  split
  exacts [ha.groupMeans _ _, ha]

theorem execOperatingMinute_keeps (h : Keeps k r s) : Answers k r (execOperatingMinute s) :=
  .when (h.chanTab (mwf_mtab _ _ _)) h

protected theorem Keeps.roundStart (h : Keeps k r s) : Keeps k r (roundStart s) := by
  unfold Machine.roundStart
  extract_lets btn s1 s2 s3
  have h1 : Keeps k r s1 := h.same
  have h2 : Keeps k r s2 := .ite (h1.nvEnqueue _) h1
  have h3 : Keeps k r s3 := .ite (h2.nvEnqueue _) h2
  exact h3.foldl _ _ fun _ _ ha => ha.nvEnqueue _

theorem execBitternRound_keeps (h : Keeps k r s) : Answers k r (execBitternRound s) := .when h.roundStart h

theorem execPersist_keeps (h : Keeps k r s) (v : Word) : Answers k r (execPersist v s) :=
  .cpRow h (.next (.ite h (.ite h.roundStart h.same))) _ _

theorem execNoticeRead_keeps (h : Keeps k r s) (n : Byte) : Answers k r (execNoticeRead n s) := .cpRow h (.next h.same) _ _

protected theorem Keeps.freshNonce (h : Keeps k r s) : Keeps k r (freshNonce s) := h.same

protected theorem Keeps.clearLog (h : Keeps k r s) (n : Nat) : Keeps k r (clearLog n s) := (Keeps.notice h.same _ _ _ _).freshNonce

theorem execBtnClear_keeps (h : Keeps k r s) (v : Word) : Answers k r (execBtnClear v s) :=
  .cpRow h (.next (.ite (h.clearLog _) h)) _ _

theorem execClearRequest_keeps (h : Keeps k r s) (i : BitVec 2) (q : ClearReq) : Answers k r (execClearRequest i q s) := by
  unfold execClearRequest
  split
  exacts [.ite (.next h) (.ite (.next (h.tokenFail _).freshNonce) (.when (h.clearLog _) h.freshNonce)), .next h]

/-! ### The Graduation monitor -/

protected theorem Keeps.sensorTake (h : Keeps k r s) (a b : Nat) : Keeps k r (sensorTake a b s) := h.same

protected theorem Keeps.codeUp (h : Keeps k r s) : Keeps k r (codeUp s) := Keeps.gradNotice h.same _ _ _

protected theorem Keeps.codeDown (h : Keeps k r s) : Keeps k r (codeDown s) := h.same

protected theorem Keeps.clockTo (h : Keeps k r s) (n : Nat) : Keeps k r (clockTo n s) :=
  .ite h (.ite (Keeps.gradNotice h.same _ _ _) (Keeps.fire h.same _ _))

protected theorem Keeps.grdAct (h : Keeps k r s) (n : Nat) : Keeps k r (grdAct n s) :=
  .ite h.codeUp (.ite (h.clockTo _) (.ite (h.clockTo _) (.ite h.codeDown h)))

theorem execGrdEvaluation_keeps (h : Keeps k r s) : Answers k r (execGrdEvaluation s) := .when (Keeps.grdAct h.same _) h

theorem execCanaryUrgent_keeps (h : Keeps k r s) (x : Byte) (c : BitVec 4) : Answers k r (execCanaryUrgent x c s) :=
  have h1 := Keeps.ite (c := x.toNat < s.grd.worst) (h.same (t := { s with grd := { s.grd with worst := x.toNat, canary := c } })) h
  .ite (.next h) (.ite (.next (h1.fatalFault _ _).settle) (.when (Keeps.grdAct h1.same _) h1))

theorem execMonthRecord_keeps (h : Keeps k r s) : Answers k r (execMonthRecord s) := .when (Keeps.gradNotice h.same _ _ _) h

protected theorem Keeps.derateCh (h : Keeps k r s) (n : Int) (i : Nat) : Keeps k r (derateCh n s i) :=
  .ite (Keeps.gradNotice h.same _ _ _) h

protected theorem Keeps.derateGrp (h : Keeps k r s) (g : Nat) : Keeps k r (derateGrp s g) := (h.grPut _ _).gradNotice _ _ _

theorem execDerate_keeps (h : Keeps k r s) (n : Int) : Answers k r (execDerate n s) :=
  .when (((h.sensorTake 1 s.time.cyc).foldl _ _ fun _ _ ha => ha.derateCh _ _).foldl _ _ fun _ _ ha => ha.derateGrp _) h

theorem execRefDrift_keeps (h : Keeps k r s) (n : BitVec 8) (mv : Int) : Answers k r (execRefDrift n mv s) := by
  unfold execRefDrift
  extract_lets i s0 grd s1
  have h1 : Keeps k r s1 := h.same
  exact .when (.ite (h1.chPut _ _) h1) h

theorem execFlashMarginRead_keeps (h : Keeps k r s) (l : List (Nat × Nat)) : Answers k r (execFlashMarginRead l s) :=
  .when (Keeps.foldl (Keeps.same (h.sensorTake 4 s.btn.opMin.toNat)) _ _ fun _ _ ha => ha.wornMark _) h

theorem execCellTest_keeps (h : Keeps k r s) (mv : BitVec 16) : Answers k r (execCellTest mv s) :=
  .when (Keeps.gradNotice h.same _ _ _) h

theorem execOvertemp_keeps (h : Keeps k r s) (n : Int) : Answers k r (execOvertemp n s) := .when (h.gradNotice _ _ _) h

theorem execRoMeasure_keeps (h : Keeps k r s) (l : List (BitVec 16)) : Answers k r (execRoMeasure l s) := .when h.same h

theorem execTcxoDailyMean_keeps (h : Keeps k r s) (n : Int) : Answers k r (execTcxoDailyMean n s) :=
  .when (Keeps.gradNotice h.same _ _ _) h

end
end Sys2Proof.Machine

namespace Sys2Proof.Machine

set_option Elab.async false
section
variable {k : Bool} {r s t : State}

theorem execReadout_keeps (h : Keeps k r s) : Answers k r (execReadout s) := by
  unfold execReadout
  extract_lets words ring
  generalize words ++ ring = l
  exact .when h.same h

/-! ### The local panel -/

protected theorem Keeps.pnlPhaseTo (h : Keeps k r s) (p : PnlPhase) : Keeps k r (pnlPhaseTo p s) := Keeps.fireIf h.same _ _

protected theorem Keeps.stopRect (h : Keeps k r s) (i : Nat) : Keeps k r (stopRect i s) := by
  unfold Machine.stopRect
  split
  exacts [h.same, h]

protected theorem Keeps.copyRow (h : Keeps k r s) (y i : Nat) : Keeps k r (copyRow y s i) := by
  unfold Machine.copyRow
  split
  · exact h
  · refine .ite h (.ite (h.stopRect _) ?_)
    split
    exacts [(h.freezeMaster _ _ _).stopRect _, h.same]

protected theorem Keeps.passRow (h : Keeps k r s) (y : Nat) : Keeps k r (passRow s y) :=
  Keeps.same (h.foldl (copyRow y) (List.range s.pnl.queue.length) fun _ _ ha => ha.copyRow _ _)

protected theorem Keeps.passRowsDo (h : Keeps k r s) (l : List Nat) : Keeps k r (passRowsDo l s) :=
  have h1 := h.foldl passRow l fun _ _ ha => ha.passRow _
  .ite h1 h1.settle

protected theorem Keeps.panelRows (h : Keeps k r s) : Keeps k r (panelRows s) := .ite (.ite h (Keeps.passRowsDo h.same _)) h

protected theorem Keeps.panelDischarge (h : Keeps k r s) : Keeps k r (panelDischarge s) :=
  .ite (Keeps.pnlPhaseTo h.panelRows.same _) h

protected theorem Keeps.panelOn (h : Keeps k r s) : Keeps k r (panelOn s) := .ite ((h.regPut _ _).pnlPhaseTo _) h

protected theorem Keeps.panelOff (h : Keeps k r s) : Keeps k r (panelOff s) := .ite (h.regPut _ _).panelDischarge h

protected theorem Keeps.panelFlush (h : Keeps k r s) : Keeps k r (panelFlush s) := h.same

theorem execPwrOn_keeps (h : Keeps k r s) : Answers k r (execPwrOn s) := .cpRow h (.next h.panelOn) _ _

theorem execPwrOff_keeps (h : Keeps k r s) : Answers k r (execPwrOff s) := .cpRow h (.next h.panelOff) _ _

theorem execDischargeDone_keeps (h : Keeps k r s) : Answers k r (execDischargeDone s) := .when ((h.regPut _ _).pnlPhaseTo _) h

theorem execFlush_keeps (h : Keeps k r s) : Answers k r (execFlush s) := .cpRow h (.next h.same) _ _

theorem execPanelSupplyFault_keeps (h : Keeps k r s) : Answers k r (execPanelSupplyFault s) :=
  .when (Keeps.panelDischarge h.same) h

protected theorem Keeps.rectSubmitOp (h : Keeps k r s) (v : Word) : Keeps k r (rectSubmitOp v s) := .ite h.same h

theorem execRectSubmit_keeps (h : Keeps k r s) (v : Word) : Answers k r (execRectSubmit v s) := .cpRow h (.next (h.rectSubmitOp _)) _ _

protected theorem Keeps.startSubmit (h : Keeps k r s) : Keeps k r (startSubmit s) := by
  unfold Machine.startSubmit
  split
  · next x rest _ =>
    exact .ite (Keeps.rectSubmitOp (Keeps.same ((((h.regPut (aPNL + 0x40) (x.pos &&& 0xFFFF)).regPut (aPNL + 0x44)
      (x.size &&& 0x00FF01FF)).regPut (aPNL + 0x48) x.src).regPut (aPNL + 0x4C) (x.stride &&& 0xFFFF))) _) h
  · exact h

theorem execPassStart_keeps (h : Keeps k r s) : Answers k r (execPassStart s) := .when h.same h

theorem execPassEnd_keeps (h : Keeps k r s) : Answers k r (execPassEnd s) := by
  unfold execPassEnd
  extract_lets s1 done pnl s2 s3
  have h3 : Keeps k r s3 := Keeps.fireIf h.panelRows.same _ _
  exact .when (Keeps.ite (h3.pnlPhaseTo _) h3) h

theorem execFullRefresh_keeps (h : Keeps k r s) : Answers k r (execFullRefresh s) := .when h.same h

theorem execRowScrub_keeps (h : Keeps k r s) : Answers k r (execRowScrub s) := .when h.same h

theorem execBlinkPhase_keeps (h : Keeps k r s) : Answers k r (execBlinkPhase s) := .when h.same h

/-! ### Configuration slots -/

theorem coreOf_slotPut (i : BitVec 1) (c : CfgSlot) (s : State) : coreOf (slotPut i c s) = coreOf s := by
  unfold slotPut
  split <;> rfl

protected theorem Keeps.slotPut (h : Keeps k r s) (i : BitVec 1) (c : CfgSlot) : Keeps k r (slotPut i c s) :=
  h.same (coreOf_slotPut i c s)

protected theorem Keeps.slotWrite (h : Keeps k r s) (i : BitVec 1) (p : Bool) (c : CfgSlot) : Keeps k r (slotWrite i p c s) :=
  (h.slotPut i (slotCut 68 c)).same

protected theorem Keeps.slotStep (h : Keeps k r s) : Keeps k r (slotStep s) := by
  unfold Machine.slotStep
  split
  · exact h
  · next x _ =>
    have h0 := (h.slotPut x.slot (slotCut 64 x.cfg)).same
      (t := { Machine.slotPut x.slot (slotCut 64 x.cfg) s with sys := { (Machine.slotPut x.slot (slotCut 64 x.cfg) s).sys with slotWr := some { x with stage := 1 } } })
    have h1 := (h.slotPut x.slot x.cfg).same
      (t := { Machine.slotPut x.slot x.cfg s with sys := { (Machine.slotPut x.slot x.cfg s).sys with slotWr := none } })
    exact .ite h0 (.ite (h1.callReset _) h1)

protected theorem Keeps.updNote (h : Keeps k r s) (n : Nat) : Keeps k r (updNote n s) := (Keeps.notice h.same _ _ _ _).fire _ _

theorem execConfigSlotWrite_keeps (h : Keeps k r s) (c : CfgSlot) : Answers k r (execConfigSlotWrite c s) :=
  .ite (.next h) (.when (h.updNote _) (h.slotWrite _ _ _))

theorem execCfgReq_keeps (h : Keeps k r s) (x : FrameHdr) : Answers k r (execCfgReq x s) := by
  refine .next (h.onFrame _ _ _ fun a ha => ?_).settle
  split
  exacts [(ha.sendLow _).sendLow _, ha]

theorem execCfgData_keeps (h : Keeps k r s) (x : FrameHdr) (c : CfgSlot) : Answers k r (execCfgData x c s) :=
  .next (h.onFrame _ _ _ fun _ ha => .ite ha.same ha).settle

theorem execCfgEnd_keeps (h : Keeps k r s) (x : FrameHdr) : Answers k r (execCfgEnd x s) := by
  refine .next (h.onFrame _ _ _ fun a ha => ?_).settle
  split
  exacts [.ite (Keeps.slotWrite ha.same _ _ _) (Keeps.pairNotice ha.same _), ha]

end
end Sys2Proof.Machine

namespace Sys2Proof.Machine

set_option Elab.async false
section
variable {k : Bool} {r s t : State}

/-! ### Field updates -/

/-- The state of an update is no part of the core. -/
theorem Keeps.withUpd (h : Keeps k r s) (u : UpdSt) : Keeps k r { s with upd := u } := h.same

protected theorem Keeps.updTo (h : Keeps k r s) (p : UpdPhase) (n : Nat) : Keeps k r (updTo p n s) :=
  .ite h.same (Keeps.updNote h.same _)

protected theorem Keeps.cpSend (h : Keeps k r s) (m : CpMsg) : Keeps k r (cpSend m s) := .ite (h.sendLow _) h

protected theorem Keeps.activeSend (h : Keeps k r s) (m : CpMsg) : Keeps k r (activeSend m s) := .ite (h.cpSend _) h

protected theorem Keeps.updArm (h : Keeps k r s) : Keeps k r (updArm s) := by
  unfold Machine.updArm
  extract_lets a upd s1
  exact .ite (Keeps.updNote (h.withUpd _) _) (.ite (Keeps.updNote (h.withUpd _) _) (Keeps.updTo ((h.withUpd _).withUpd _) _ _))

protected theorem Keeps.armIfStaged (h : Keeps k r s) : Keeps k r (armIfStaged s) := .ite h.updArm h

protected theorem Keeps.withdraw (h : Keeps k r s) : Keeps k r (withdraw s) := .ite (h.queueActivate _) h

protected theorem Keeps.manifestTake (h : Keeps k r s) (m : ManifestMsg) : Keeps k r (manifestTake m s) := by
  unfold Machine.manifestTake
  extract_lets code s0 kept is keep upd s1
  have h0 : Keeps k r s0 := h.withdraw
  have h1 : Keeps k r s1 := h0.same
  exact .ite (h.updNote _) ((h1.updTo _ _).armIfStaged.activeSend _)

theorem execManifest_keeps (h : Keeps k r s) (m : ManifestMsg) : Answers k r (execManifest m s) := .when (h.manifestTake _) h

protected theorem Keeps.flashPut (h : Keeps k r s) (n : Nat) (l : List Byte) : Keeps k r (flashPut n l s) := h.same

protected theorem Keeps.bankVerdict (h : Keeps k r s) (b : BitVec 1) (x y : Option Bool) : Keeps k r (bankVerdict b x y s) := h.same

protected theorem Keeps.bankHeader (h : Keeps k r s) (b : BitVec 1) (q : Nat) : Keeps k r (bankHeader b q s) := h.same

protected theorem Keeps.bankReject (h : Keeps k r s) (b : BitVec 1) : Keeps k r (bankReject b s) := h.same

protected theorem Keeps.eraseTarget (h : Keeps k r s) (p : Part) : Keeps k r (eraseTarget p s) := by
  unfold Machine.eraseTarget
  extract_lets l old nv upd s1
  have h1 : Keeps k r s1 := Keeps.flWear h.same _
  exact .ite (h1.slotPut _ _) (h1.bankVerdict _ _ _)

protected theorem Keeps.partDone (h : Keeps k r s) (p : Part) : Keeps k r (partDone p s) := by
  unfold Machine.partDone
  extract_lets ok
  have hok : ∀ {a}, Keeps k r a → Keeps k r (ok a) := fun ha => Keeps.armIfStaged ha.same
  refine .ite ((h.updNote _).eraseTarget _) (.ite ?_ (hok (h.bankVerdict _ _ _)))
  split
  exacts [.ite (hok (h.slotPut _ _)) (h.updNote _), h.updNote _]

protected theorem Keeps.chunkStore (h : Keeps k r s) (p : Part) (c : Nat) (l : List Byte) : Keeps k r (chunkStore p c l s) := by
  unfold Machine.chunkStore
  refine .ite (h.flashPut _ _) (.ite ?_ h.same)
  extract_lets i here rest slot s1
  have h1 : Keeps k r s1 := .ite h (h.slotPut _ _)
  exact h1.same

protected theorem Keeps.chunkTake (h : Keeps k r s) (type : BitVec 4) (c : Nat) (l : List Byte) (crc : Word) (ok : Bool)
    (img : Option UpdImage) : Keeps k r (chunkTake type c l crc ok img s) := by
  unfold Machine.chunkTake
  split
  · next p _ =>
    extract_lets n want fresh s1 upd s2 full
    have h1 : Keeps k r s1 := Keeps.chunkStore (.ite (h.eraseTarget _) h) _ _ _
    have h2 : Keeps k r s2 := h1.same
    exact .ite h (Keeps.activeSend (.ite (h2.partDone _) h2) _)
  · exact h

theorem execChunk_keeps (h : Keeps k r s) (type : BitVec 4) (c : Nat) (l : List Byte) (crc : Word) (ok : Bool)
    (img : Option UpdImage) : Answers k r (execChunk type c l crc ok img s) :=
  .when (h.chunkTake _ _ _ _ _ _) h

protected theorem Keeps.withProgram (h : Keeps k r s) (c : CfgSlot) : Keeps k r (withProgram c s) := h.same

protected theorem Keeps.completeBank (h : Keeps k r s) (b : BitVec 1) : Keeps k r (completeBank b s) := by
  unfold Machine.completeBank
  extract_lets copy x
  have hc : ∀ {a} i j n, Keeps k r a → Keeps k r (copy i j n a) := fun i j n ha => .ite ha ha.same
  exact Keeps.bankVerdict (hc _ _ _ (hc _ _ _ h)) _ _ _

protected theorem Keeps.commitGo (h : Keeps k r s) : Keeps k r (commitGo s) := by
  unfold Machine.commitGo
  extract_lets upd s1 s2 s3
  have h1 : Keeps k r s1 := Keeps.nvEnqueue h.same _
  have h2 : Keeps k r s2 := by
    unfold s2
    split
    exacts [h1.slotPut _ _, h1]
  have h3 : Keeps k r s3 := by
    unfold s3
    split
    exacts [(h2.completeBank _).bankHeader _ _, h2]
  exact h3.regPut _ _

protected theorem Keeps.updCancelWith (h : Keeps k r s) (n : Nat) : Keeps k r (updCancelWith n s) :=
  ((h.queueActivate _).activeSend _).updTo _ _

theorem execDecision_keeps (h : Keeps k r s) : Answers k r (execDecision s) :=
  .when (.ite (h.updCancelWith _) (Keeps.activeSend (Keeps.same h.commitGo) _)) h

protected theorem Keeps.editSupersede (h : Keeps k r s) : Keeps k r (editSupersede s) := Keeps.fire h.same _ _

/-- The configuration registers take new canonical tables. -/
theorem Keeps.regTab (h : Keeps k r s)
    (hw : mwf regReset s.regs.written = true → mwf regReset t.regs.written = true)
    (hf : mwf regReset s.regs.force = true → mwf regReset t.regs.force = true)
    (e : { coreOf t with regs := s.regs } = coreOf s := by rfl) : Keeps k r t :=
  have g : Keeps k r { s with regs := t.regs } := h.ofTables (by
    simp only [tablesOk_iff]; exact fun ⟨a, b, c, d, e, f, g, x, y⟩ => ⟨a, b, c, d, e, f, g, hw x, hf y⟩)
  g.same (by simp only [coreOf, Core.mk.injEq] at e ⊢; simp only [e, and_self])

protected theorem Keeps.takeSettings (h : Keeps k r s) (sel : Nat → Bool) (c : CfgSlot) : Keeps k r (takeSettings sel c s) :=
  h.regTab (fun a => mwf_mputs _ _ (mwf_filter _ _ a)) (fun a => mwf_mputs _ _ (mwf_filter _ _ a))

protected theorem Keeps.updMigrate (h : Keeps k r s) : Keeps k r (updMigrate s) := by
  unfold Machine.updMigrate
  split
  · next c _ =>
    extract_lets a upd
    have h1 : Keeps k r a := (h.withProgram c).migRun _
    exact .ite (h1.withUpd _).settle h
  · exact h

protected theorem Keeps.takeProgram (h : Keeps k r s) (c : CfgSlot) : Keeps k r (takeProgram c s) := by
  unfold Machine.takeProgram
  extract_lets d s0 s1 s2
  have h0 : Keeps k r s0 := h.withProgram _
  have h2 : Keeps k r s2 := Keeps.regPut (.ite h0 (h0.migRun _)) _ _
  exact h2.same

protected theorem Keeps.takeSlot (h : Keeps k r s) (c : CfgSlot) : Keeps k r (takeSlot c s) :=
  (h.regPut (aLE + 0x78) (slotProgId c)).same

protected theorem Keeps.takePanel (h : Keeps k r s) (c : CfgSlot) : Keeps k r (takePanel c s) :=
  (h.takeSettings (fun x => within x (aPNL + 8) (aPNL + 0xFF)) c).same

protected theorem Keeps.landSettings (h : Keeps k r s) : Keeps k r (landSettings s) := by
  unfold Machine.landSettings
  split
  · extract_lets a a1 slc b
    have ha : Keeps k r a := .ite (h.takeSettings _ _) h
    have h1 : Keeps k r a1 := ha.takeSettings _ _
    have hb : Keeps k r b := .ite h1.same ha
    exact .ite (hb.takePanel _) hb
  · exact h

protected theorem Keeps.landRest (h : Keeps k r s) : Keeps k r (landRest s) := by
  unfold Machine.landRest
  extract_lets a b
  have ha : Keeps k r a := h.editSupersede
  have hb : Keeps k r b := by
    unfold b
    split
    exacts [Keeps.takeSlot (.ite (ha.takeProgram _) ha) _, ha]
  exact Keeps.cpReset hb.same _

protected theorem Keeps.probation (h : Keeps k r s) : Keeps k r (probation s) := Keeps.updTo h.same _ _

protected theorem Keeps.stopForReset (h : Keeps k r s) (cause : BitVec 4) : Keeps k r (stopForReset cause s) :=
  Keeps.callReset (.ite h.slcStartTables h) _

protected theorem Keeps.actSettings (h : Keeps k r s) : Keeps k r (actSettings s) := .ite h.landSettings h

protected theorem Keeps.actLand (h : Keeps k r s) : Keeps k r (actLand s) :=
  .ite (h.probation.editSupersede.stopForReset _) h.probation.landRest

theorem execActivation_keeps (h : Keeps k r s) : Answers k r (execActivation s) :=
  .when (Keeps.actLand (.ite h (h.landSettings.settleChanged _ _))).settle h

theorem execTickBoundary_keeps (h : Keeps k r s) : Answers k r (execTickBoundary s) := by
  unfold execTickBoundary
  extract_lets first s0 act s1 s2 s3 s4 wd s5
  have h1 : Keeps k r s1 := (h.tickStep.regLatch.actSettings.settingsTurn _ _).leBoundary
  have h2 : Keeps k r s2 := .ite h1.listenStart h1
  have h3 : Keeps k r s3 := .ite (h2.enterRun _).mergeStanding h2
  have h4 : Keeps k r s4 := .ite h3.actLand (.ite h3.swapNow h3)
  have h5 : Keeps k r s5 := Keeps.twdBoundary h4.same
  exact .ite (.next h) (.next h5.lagFollow.inputLatch.shipStart.settle)

protected theorem Keeps.updFinish (h : Keeps k r s) : Keeps k r (updFinish s) := by
  unfold Machine.updFinish
  extract_lets s1 upd s2
  have h1 : Keeps k r s1 := .ite h (h.regPut _ _)
  have h2 : Keeps k r s2 := Keeps.updTo h1.same _ _
  exact .ite (.ite (h2.cpSend _) h2) h

theorem execConfirm_keeps (h : Keeps k r s) : Answers k r (execConfirm s) := .when (Keeps.updFinish h.same) h

theorem execOemConfirm_keeps (h : Keeps k r s) : Answers k r (execOemConfirm s) := .when (Keeps.updFinish h.same) h

protected theorem Keeps.fallCall (h : Keeps k r s) (n : Nat) : Keeps k r (fallCall n s) := .ite (Keeps.updTo h.same _ _) h

theorem execConfirmTimeout_keeps (h : Keeps k r s) : Answers k r (execConfirmTimeout s) := .when (h.fallCall _) h

protected theorem Keeps.dropSet (h : Keeps k r s) : Keeps k r (dropSet s) := by
  unfold Machine.dropSet
  extract_lets s1 s2 s3
  have h1 : Keeps k r s1 := by
    unfold s1
    split
    exacts [h.slotPut _ _, h]
  have h2 : Keeps k r s2 := by
    unfold s2
    split
    exacts [h1.bankReject _, h1]
  have h3 : Keeps k r s3 := .ite h2 (h2.regPut _ _)
  exact h3.same

theorem execFallback_keeps (h : Keeps k r s) : Answers k r (execFallback s) :=
  .when (((h.dropSet.cpSend _).updTo _ _).stopForReset _).settle h

protected theorem Keeps.updCancelOp (h : Keeps k r s) : Keeps k r (updCancelOp s) := .ite (h.updCancelWith _) h

protected theorem Keeps.updConfirmOp (h : Keeps k r s) : Keeps k r (updConfirmOp s) := .ite (Keeps.updFinish h.same) h

protected theorem Keeps.updDiscardOp (h : Keeps k r s) : Keeps k r (updDiscardOp s) := by
  unfold Machine.updDiscardOp
  extract_lets s1 s2 upd
  have h1 : Keeps k r s1 := .ite (h.withdraw.activeSend _) h
  have h2 : Keeps k r s2 := .ite h1.dropSet h1
  exact .ite h (Keeps.updTo h2.same _ _)

theorem execUpdCancel_keeps (h : Keeps k r s) (key : BitVec 16) : Answers k r (execUpdCancel key s) :=
  .cpRow h (.next (.ite h.updCancelOp h)) _ _

theorem execUpdConfirm_keeps (h : Keeps k r s) (key : BitVec 16) : Answers k r (execUpdConfirm key s) :=
  .cpRow h (.next (.ite h.updConfirmOp h)) _ _

theorem execUpdFallback_keeps (h : Keeps k r s) (key : BitVec 16) : Answers k r (execUpdFallback key s) :=
  .cpRow h (.next (.ite (h.fallCall _) h)) _ _

theorem execUpdDiscard_keeps (h : Keeps k r s) (key : BitVec 16) : Answers k r (execUpdDiscard key s) :=
  .cpRow h (.next (.ite h.updDiscardOp h)) _ _

protected theorem Keeps.editRangeTake (h : Keeps k r s) (x : DlRange) (crc : Word) : Keeps k r (editRangeTake x crc s) :=
  .ite (Keeps.sendLow h.same _) h

protected theorem Keeps.cpMsgTake (h : Keeps k r s) (p : CpMsg) : Keeps k r (cpMsgTake p s) := by
  cases p with
  | manifest m => exact h.manifestTake m
  | chunk => exact h.chunkTake _ _ _ _ _ _
  | ready => exact h.same
  | go => exact .ite h.commitGo h
  | cancel => exact .ite (.ite (h.dropSet.updTo _ _) (h.updTo _ _)) h
  | confirmed => exact .ite (Keeps.updFinish h.same) h
  | fallback => exact h.fallCall _
  | editRange => exact .ite (h.editRangeTake _ _) h
  | editStage => exact .ite h.same h
  | editPend => exact .ite h.same h
  | other => exact h

theorem execCpMsg_keeps (h : Keeps k r s) (x : FrameHdr) (p : CpMsg) : Answers k r (execCpMsg x p s) :=
  .next (h.onFrame _ _ _ fun _ ha => .ite (ha.cpMsgTake _) ha).settle

end
end Sys2Proof.Machine

namespace Sys2Proof.Machine

set_option Elab.async false
section
variable {k : Bool} {r s t : State}

/-! ### Resets and power-up -/

protected theorem Keeps.finishRec (h : Keeps k r s) : Keeps k r (finishRec s) := by
  unfold Machine.finishRec
  split
  · next q twin _ =>
    extract_lets s1
    have h1 : Keeps k r s1 := .ite ((Keeps.ite h (h.openSec 2 true)).twinAppend _) ((h.headAppend _ _).logSaved _)
    exact h1.same
  · exact h

protected theorem Keeps.afterReset (h : Keeps k r s) : Keeps k r (afterReset s) where
  mem := fun hr => by
    have hf := (memOk_iff _).1 (h.finishRec.mem hr)
    exact (memOk_iff _).2 ⟨wf_afterReset hf.1, rfl⟩
  tables := fun _ => (tablesOk_iff _).2 ⟨rfl, mwf_mtab _ _ _, mwf_mtab _ _ _, rfl, rfl, rfl, mwf_mtab _ _ _, rfl, rfl⟩
  queues := fun _ => rfl
  token := fun _ _ => rfl

protected theorem Keeps.fatalCount (h : Keeps k r s) (c : BitVec 4) : Keeps k r (fatalCount c s) := .ite h.same (.ite h.same h)

protected theorem Keeps.fatalFall (h : Keeps k r s) (c : BitVec 4) : Keeps k r (fatalFall c s) := .ite (h.fallCall _) h

protected theorem Keeps.resetNow (h : Keeps k r s) (c : BitVec 4) : Keeps k r (resetNow c s) := by
  unfold Machine.resetNow
  extract_lets s1 sys s2 s3
  have h1 : Keeps k r s1 := (h.fatalCount _).afterReset
  have h3 : Keeps k r s3 := Keeps.notice h1.same _ _ _ _
  exact ((h3.noticeIf _ _ _ _ _).fatalFall _).settle

theorem execModuleReset_keeps (h : Keeps k r s) : Answers k r (execModuleReset s) := by
  unfold execModuleReset
  split
  exacts [.when (h.resetNow _) h, .next h]

theorem execSoftReset_keeps (h : Keeps k r s) (v : Word) : Answers k r (execSoftReset v s) :=
  .cpRow h (.next (.ite (h.callReset _) h)) _ _

protected theorem Keeps.clockRestart (h : Keeps k r s) : Keeps k r (clockRestart s) := by
  unfold Machine.clockRestart
  split
  exacts [.ite (Keeps.resetNow (h.grpTab (mwf_mtab _ _ _)) _) h, h]

theorem execClockRecovery_keeps (h : Keeps k r s) : Answers k r (execClockRecovery s) := .when (Keeps.clockRestart h.same) h

theorem execSupplyLow_keeps (h : Keeps k r s) (low : Bool) : Answers k r (execSupplyLow low s) :=
  .when (Keeps.fire h.same _ _).settle h

protected theorem Keeps.holdWrite (h : Keeps k r s) (p : NvReq × Bool) : Keeps k r (holdWrite s p) := by
  unfold Machine.holdWrite
  extract_lets src q s1 nv
  have h1 : Keeps k r s1 := h.headAppend _ _
  exact .ite h (Keeps.logSaved h1.same _)

protected theorem Keeps.holdUp (h : Keeps k r s) : Keeps k r (holdUp s) := by
  unfold Machine.holdUp
  extract_lets nv s1 s2 s3
  have h1 : Keeps k r s1 := Keeps.eraseCut h.same
  have h2 : Keeps k r s2 := h1.finishRec.same
  have h3 : Keeps k r s3 := h2.foldl _ _ fun _ _ ha => ha.holdWrite _
  exact .ite h1 h3.same

theorem execSupplyLoss_keeps (h : Keeps k r s) : Answers k r (execSupplyLoss s) := by
  unfold execSupplyLoss
  extract_lets slc sys s1 s2 pair s3
  have h1 : Keeps k r s1 := Keeps.fire (h.ofTables (by
    simp only [tablesOk_iff]; exact fun ⟨a, b, c, _, e⟩ => ⟨a, b, c, rfl, e⟩)) _ _
  have h2 : Keeps k r s2 := .ite (h1.giveUpOp _ _ _) h1
  have h3 : Keeps k r s3 := Keeps.notice h2.silent _ _ _ _
  exact .when h3.panelDischarge.holdUp.settle h

protected theorem Keeps.icSetup (h : Keeps k r s) (named : Nat → Option Word) (oem : List (BitVec 10 × BitVec 4)) :
    Keeps k r (icSetup named oem s) := by
  refine h.foldl _ _ fun a n ha => ?_
  dsimp only
  split
  · exact .ite (.ite (ha.regPut _ _) ha) (Keeps.notice (.ite (ha.regPut _ _) ha) _ _ _ _)
  · exact .ite (ha.regPut _ _) ha

protected theorem Keeps.reportCaptures (h : Keeps k r s) : Keeps k r (reportCaptures s) :=
  ((h.noticeIf s.fcu.first.valid 0x01 s.fcu.first.src.toNat s.fcu.first.reason.toNat (wordOf s.fcu.overflow)).noticeIf
    _ _ _ _ _).same

protected theorem Keeps.settingPut (h : Keeps k r s) (p : Word × Word) : Keeps k r (settingPut s p) := by
  unfold Machine.settingPut
  dsimp only
  split
  exacts [h, h.regPut _ _, h.regStage _ _]

protected theorem Keeps.applySlot (h : Keeps k r s) (i : BitVec 1) (c : CfgSlot) : Keeps k r (applySlot i c s) := by
  unfold Machine.applySlot
  extract_lets d s1 named s2 s3 sram
  have h1 : Keeps k r s1 := h.foldl _ _ fun _ _ ha => ha.settingPut _
  have h3 : Keeps k r s3 := ((h1.icSetup _ _).regPut _ _).regPut _ _
  exact h3.same (by simp only [coreOf, withProgram]; rfl)

/-- Of the state of the system and of the CP, what a start on factory defaults sets is no part of the core. -/
theorem Keeps.withDefaults (h : Keeps k r s) (x : SysSt) : Keeps k r { s with sys := x } := h.same

theorem Keeps.withEth (h : Keeps k r s) (x : EthCfg) : Keeps k r { s with cp := { s.cp with eth := x } } := h.same

protected theorem Keeps.applyDefaults (h : Keeps k r s) : Keeps k r (applyDefaults s) := by
  unfold Machine.applyDefaults
  extract_lets s1 sys s2 cp s3 s4
  have h1 : Keeps k r s1 := h.foldl _ _ fun _ _ ha => ((ha.regStage _ _).regStage _ _).regStage _ _
  have h2 : Keeps k r s2 := Keeps.icSetup (h1.withDefaults { sys with cfgDefaulted := true }) _ _
  clear_value s2
  have h3 : Keeps k r s3 := h2.withEth defaultEth
  have h4 : Keeps k r s4 := h3.notice _ _ _ _
  exact .ite (h4.notice _ _ _ _) h4

protected theorem Keeps.periodStart (h : Keeps k r s) : Keeps k r (periodStart s) := h.same

/-- The configuration that a choice of slots brings. -/
theorem Keeps.chosen (h : Keeps k r s) (o : Option (BitVec 1)) :
    Keeps k r (Machine.periodStart (match o with | some i => applySlot i (slotOf s i) s | none => applyDefaults s)) := by
  refine Keeps.periodStart ?_
  cases o with
  | none => exact h.applyDefaults
  | some i => exact h.applySlot _ _

protected theorem Keeps.configure (h : Keeps k r s) : Keeps k r (configure s) := Keeps.chosen (h.withDefaults _) _

protected theorem Keeps.updStart (h : Keeps k r s) (b : BitVec 1) : Keeps k r (updStart b s) := by
  unfold Machine.updStart
  extract_lets s1 upd s2
  have h1 : Keeps k r s1 := .ite (.ite h.probation (h.updTo _ _)) h
  have h2 : Keeps k r s2 := h1.withUpd _
  split
  exacts [.ite (h2.fallCall _) h2, h2]

protected theorem Keeps.fatalHoldSet (h : Keeps k r s) : Keeps k r (fatalHoldSet s) := Keeps.noticeIf h.same _ _ _ _ _

protected theorem Keeps.leaveInit (h : Keeps false r s) : Keeps false r (leaveInit s) := h.unclaimed

protected theorem Keeps.cpwdStart (h : Keeps k r s) : Keeps k r (cpwdStart s) := h.same

protected theorem Keeps.panelStart (h : Keeps k r s) : Keeps k r (panelStart s) := .ite h (Keeps.panelOn h.same)

protected theorem Keeps.limitNote (h : Keeps k r s) : Keeps k r (limitNote s) := Keeps.gradNotice h.same _ _ _

protected theorem Keeps.bootFrom (h : Keeps false r s) (b : BitVec 1) (seatB : Bool) : Keeps false r (bootFrom b seatB s) := by
  unfold Machine.bootFrom
  extract_lets s0 pair wd s1 s2 s3
  have h1 : Keeps false r s1 := h.cpwdStart.same
  have h2 : Keeps false r s2 := h1.reportCaptures.configure
  have h3 : Keeps false r s3 := (h2.limitNote.freshNonce.updStart b).oemCheck.fatalHoldSet.leaveInit.panelStart
  exact ((h3.fireIf _ _).fireIf _ _).settle

/-! A start changes no TOKEN_OUT. -/

@[simp] theorem gradNotice_pair (c : Bool) (reason : Nat) (d : Word) (s : State) : (gradNotice c reason d s).pair = s.pair := by
  unfold gradNotice
  split <;> simp

@[simp] theorem regPut_pair (s : State) (a : Nat) (v : Word) : (regPut s a v).pair = s.pair := rfl

@[simp] theorem regStage_pair (s : State) (a : Nat) (v : Word) : (regStage s a v).pair = s.pair := rfl

theorem icSetup_pair (named : Nat → Option Word) (oem : List (BitVec 10 × BitVec 4)) (s : State) :
    (icSetup named oem s).pair = s.pair := by
  refine foldl_keeps (fun a : State => a.pair) _ (fun a n => ?_) _ _
  dsimp only
  split <;> simp [apply_ite State.pair]

theorem reportCaptures_pair (s : State) : (reportCaptures s).pair = s.pair := by simp [reportCaptures]

theorem settingPut_pair (s : State) (p : Word × Word) : (settingPut s p).pair = s.pair := by
  unfold settingPut
  dsimp only
  split <;> rfl

theorem applySlot_pair (i : BitVec 1) (c : CfgSlot) (s : State) : (applySlot i c s).pair = s.pair := by
  simp [applySlot, icSetup_pair, foldl_keeps (fun a : State => a.pair) settingPut settingPut_pair]

theorem applyDefaults_pair (s : State) : (applyDefaults s).pair = s.pair := by
  have channels := foldl_keeps (fun a : State => a.pair)
    (fun a n => regStage (regStage (regStage a (aCH n) 2#32) (aCH n + 4) 3000#32) (aCH n + 0xC) 200#32) (fun _ _ => rfl)
  simp [applyDefaults, apply_ite State.pair, icSetup_pair, channels]

theorem periodStart_pair (s : State) : (periodStart s).pair = s.pair := rfl

theorem chosen_pair (s : State) (o : Option (BitVec 1)) :
    (periodStart (match o with | some i => applySlot i (slotOf s i) s | none => applyDefaults s)).pair = s.pair := by
  cases o with
  | none => exact (periodStart_pair _).trans (applyDefaults_pair s)
  | some i => exact (periodStart_pair _).trans (applySlot_pair i _ s)

theorem configure_pair (s : State) : (configure s).pair = s.pair := chosen_pair _ _

theorem updNote_pair (n : Nat) (s : State) : (updNote n s).pair = s.pair := by simp [updNote]

theorem updTo_pair (p : UpdPhase) (n : Nat) (s : State) : (updTo p n s).pair = s.pair := by
  unfold updTo
  split
  · rfl
  · rw [updNote_pair]

theorem fallCall_pair (n : Nat) (s : State) : (fallCall n s).pair = s.pair := by
  unfold fallCall
  split
  · rw [updTo_pair]
  · rfl

theorem updStart_pair (b : BitVec 1) (s : State) : (updStart b s).pair = s.pair := by
  unfold updStart
  extract_lets s1 upd s2
  have h1 : s1.pair = s.pair := by simp only [s1, apply_ite State.pair, probation, updTo_pair, ite_self]
  have h2 : s2.pair = s.pair := h1
  split
  · rw [apply_ite State.pair, fallCall_pair, ite_self, h2]
  · exact h2

theorem panelStart_pair (s : State) : (panelStart s).pair = s.pair := by
  simp [panelStart, panelOn, pnlPhaseTo, apply_ite State.pair]

@[simp] theorem currentReport_tokenOut (s : State) : (currentReport s).pair.tokenOut = s.pair.tokenOut := by
  unfold currentReport
  split <;> simp

@[simp] theorem settle_tokenOut (s : State) : (settle s).pair.tokenOut = s.pair.tokenOut := by simp [settle]

theorem limitNote_pair (s : State) : (limitNote s).pair = s.pair := gradNotice_pair _ _ _ _

theorem oemCheck_pair (s : State) : (oemCheck s).pair = s.pair := noticeIf_pair _ _ _ _ _ _

theorem fatalHoldSet_pair (s : State) : (fatalHoldSet s).pair = s.pair := noticeIf_pair _ _ _ _ _ _

theorem freshNonce_pair (s : State) : (freshNonce s).pair = s.pair := rfl

theorem leaveInit_tokenOut (s : State) : (leaveInit s).pair.tokenOut = s.pair.tokenOut := rfl

theorem bootFrom_tokenOut (b : BitVec 1) (seatB : Bool) (s : State) :
    (bootFrom b seatB s).pair.tokenOut = s.pair.tokenOut := by
  unfold bootFrom
  dsimp only
  rw [settle_tokenOut, fireIf_pair, fireIf_pair, panelStart_pair, leaveInit_tokenOut, fatalHoldSet_pair, oemCheck_pair,
    updStart_pair, freshNonce_pair, limitNote_pair, configure_pair, reportCaptures_pair]
  rfl

protected theorem Keeps.countsReset (h : Keeps k r s) : Keeps k r (countsReset s) :=
  h.ofTables (by simp only [tablesOk_iff]; exact fun ⟨a, _, _, d⟩ => ⟨a, mwf_mtab _ _ _, mwf_mtab _ _ _, d⟩)

/-- The memory and the lanes come up empty. -/
theorem Keeps.emptied (h : Keeps k r s) (hw : t.mem.words = [] := by rfl) (hl : t.mem.lwords = [] := by rfl)
    (ha : t.le.lanes = [] := by rfl)
    (e : { coreOf t with words := s.mem.words, lwords := s.mem.lwords, lanes := s.le.lanes } = coreOf s := by rfl) :
    Keeps k r t := by
  simp only [coreOf, Core.mk.injEq] at e
  obtain ⟨hr, -, -, -, hc, hg, hsg, hb, hn, hu, h0, h1, hto, hm, hro⟩ := e
  refine h.trans ⟨fun _ => by rw [memOk_iff, hw, hl]; exact ⟨rfl, rfl⟩, ?_, ?_, fun _ => ?_⟩
  · simp only [tablesOk_iff, hc, hg, hsg, hb, hn, hu, hr, ha]
    exact fun ⟨_, x⟩ => ⟨rfl, x⟩
  · simp only [queuesOk, h0, h1, imp_self]
  · simp only [tokenOk, hto, hm, hro, imp_self]

protected theorem Keeps.powerReset (h : Keeps k r s) : Keeps k r (powerReset s) := by
  unfold Machine.powerReset
  extract_lets lost s0 sys nv s1
  have h1 : Keeps k r s1 := Keeps.afterReset h.countsReset.same
  clear_value s1
  exact Keeps.noticeIf h1.emptied _ _ _ _ _

theorem powerReset_silent (s : State) : (powerReset s).pair.tokenOut = false := by
  simp [powerReset, afterReset]

/-- The start of the vendor base from the bank that may be started, or RECOVERY. -/
theorem Keeps.boot (h : Keeps false r s) (o : Option (BitVec 1)) (seatB : Bool) :
    Keeps false r (match o with
      | some b => Machine.bootFrom b seatB s
      | none => Machine.cpwdStart { s with sys := { s.sys with recovery := true } }) := by
  cases o with
  | none => exact Keeps.cpwdStart h.same
  | some b => exact h.bootFrom b seatB

theorem boot_tokenOut (s : State) (o : Option (BitVec 1)) (seatB : Bool) :
    (match o with
      | some b => bootFrom b seatB s
      | none => cpwdStart { s with sys := { s.sys with recovery := true } }).pair.tokenOut = s.pair.tokenOut := by
  cases o with
  | none => rfl
  | some b => exact bootFrom_tokenOut b seatB s

/-- Supply good, or the start of the vendor base in INIT: TOKEN_OUT is released. -/
theorem Keeps.powerStart (h : Keeps k r s) (cold seatB : Bool) (hs : cold = true ∨ s.pair.mstate = .init) :
    Keeps k r (powerStart cold seatB s) := by
  unfold Machine.powerStart
  cases cold with
  | true =>
    rw [if_pos rfl]
    exact (h.powerReset.weaken.boot _ _).off ((boot_tokenOut _ _ _).trans (powerReset_silent s))
  | false =>
    have hi : s.pair.mstate = .init := hs.resolve_left (by decide)
    rw [if_neg Bool.false_ne_true]
    exact h.notDriving (by simp [hi]) (h.weaken.boot _ _) (boot_tokenOut _ _ _)

theorem execPowerUp_keeps (h : Keeps k r s) (seatB : Bool) : Answers k r (execPowerUp seatB s) := by
  unfold execPowerUp
  dsimp only
  refine .ite (.next h.same) ?_
  split
  · next hc =>
    simp only [Bool.or_eq_true, Bool.and_eq_true, decide_eq_true_eq] at hc
    exact .next (h.powerStart _ _ (by simpa using hc.imp id fun hi => hi.1.1))
  · exact .next h

theorem execUsbLoader_keeps (h : Keeps k r s) (ok : Bool) : Answers k r (execUsbLoader ok s) :=
  .when (Keeps.bankVerdict (Keeps.bankHeader h.same _ _) _ _ _) h

theorem execTickGo_keeps (h : Keeps k r s) (v : Word) : Answers k r (execTickGo v s) := .cpRow h (.when h.same h) _ _

protected theorem Keeps.leResult (h : Keeps k r s) (n : Nat) : Keeps k r (leResult n s) := h.same

protected theorem Keeps.leRunOp (h : Keeps k r s) (v : Word) : Keeps k r (leRunOp v s) :=
  .ite h.same (.ite h.same (.ite h.same (.ite h.same (.ite h.same (.ite h.budgetRefuse h.same)))))

protected theorem Keeps.leStopOp (h : Keeps k r s) (v : Word) : Keeps k r (leStopOp v s) :=
  .ite h.same (.ite h.same (.ite h.same ((Keeps.slcStartTables h.same).settle.leResult _)))

theorem execLeRun_keeps (h : Keeps k r s) (v : Word) : Answers k r (execLeRun v s) := .svcRow h (.next (h.leRunOp _)) _ _ _

theorem execLeStop_keeps (h : Keeps k r s) (v : Word) : Answers k r (execLeStop v s) := .svcRow h (.next (h.leStopOp _)) _ _ _

theorem execStopComplete_keeps (h : Keeps k r s) : Answers k r (execStopComplete s) := .when h.same h

/-! ### Deep sleep -/

theorem fatalReact_silent (src reason cause : Nat) (s : State) : (fatalReact src reason cause s).pair.tokenOut = false := by
  unfold fatalReact
  dsimp only
  split
  · exact giveUpOp_silent _ _ _ _
  all_goals simp

theorem containedFault_silent {s : State} (hs : s.pair.tokenOut = false) (src reason : Nat) :
    (containedFault src reason s).pair.tokenOut = false := by
  unfold containedFault
  dsimp only
  split
  · simpa using hs
  · exact fatalReact_silent _ _ _ _
  · simpa using hs

theorem freezeMaster_silent {s : State} (hs : s.pair.tokenOut = false) (m : Nat) (a : Word) (wr : Bool) :
    (freezeMaster m a wr s).pair.tokenOut = false := by
  unfold freezeMaster
  dsimp only
  split
  · exact fatalReact_silent _ _ _ _
  · exact containedFault_silent (by simpa using hs) _ _

theorem stopRect_pair (i : Nat) (s : State) : (stopRect i s).pair = s.pair := by
  unfold stopRect
  split <;> rfl

theorem copyRow_silent {s : State} (hs : s.pair.tokenOut = false) (y i : Nat) : (copyRow y s i).pair.tokenOut = false := by
  unfold copyRow
  split
  · exact hs
  · split
    · exact hs
    · split
      · rw [stopRect_pair]; exact hs
      · split
        · rw [stopRect_pair]; exact freezeMaster_silent hs _ _ _
        · exact hs

theorem foldl_silent {β : Type} (f : State → β → State)
    (hf : ∀ a b, a.pair.tokenOut = false → (f a b).pair.tokenOut = false) (l : List β) {s : State}
    (hs : s.pair.tokenOut = false) : (l.foldl f s).pair.tokenOut = false := by
  induction l generalizing s with
  | nil => exact hs
  | cons b l ih => exact ih (hf s b hs)

theorem passRow_silent (s : State) (y : Nat) (hs : s.pair.tokenOut = false) : (passRow s y).pair.tokenOut = false :=
  foldl_silent (copyRow y) (fun _ _ ha => copyRow_silent ha _ _) _ hs

theorem panelRows_silent {s : State} (hs : s.pair.tokenOut = false) : (panelRows s).pair.tokenOut = false := by
  unfold panelRows passRowsDo
  dsimp only
  split
  · split
    · exact hs
    · split
      · exact foldl_silent passRow passRow_silent _ hs
      · rw [settle_tokenOut]; exact foldl_silent passRow passRow_silent _ hs
  · exact hs

theorem panelDischarge_silent {s : State} (hs : s.pair.tokenOut = false) : (panelDischarge s).pair.tokenOut = false := by
  unfold panelDischarge pnlPhaseTo
  split
  · simpa using panelRows_silent hs
  · exact hs

end
end Sys2Proof.Machine

namespace Sys2Proof.Machine

set_option Elab.async false
section
variable {k : Bool} {r s t : State}

protected theorem Keeps.sleepResult (h : Keeps k r s) (n : Nat) : Keeps k r (sleepResult n s) := h.same

protected theorem Keeps.sleepOp (h : Keeps k r s) (v : Word) : Keeps k r (sleepOp v s) :=
  .ite h (.ite h.same (.ite h.same (.ite h.same h.same)))

/-- A module in READY goes to SLEEP: its TOKEN_OUT is released, and the discharge of the panel asserts none. -/
theorem Keeps.enterSleep (h : Keeps k r s) (hs : s.pair.mstate = .ready) : Keeps k r (enterSleep s) := by
  have g : Keeps false r (Machine.enterSleep s) := Keeps.settle (Keeps.unclaimed h.weaken.editCancel.panelDischarge)
  refine { g with token := fun hk hr => ?_ }
  have hq : s.pair.tokenOut = false := by simpa [tokenOk, hs] using h.token hk hr
  have ht : (panelDischarge (editCancel s)).pair.tokenOut = false := panelDischarge_silent (by simpa using hq)
  simp [tokenOk, Machine.enterSleep, ht]

protected theorem Keeps.sleepStep (h : Keeps k r s) : Keeps k r (sleepStep s) := by
  unfold Machine.sleepStep
  refine .ite h ?_
  split
  · exact h.same
  · next hc =>
    have hs : s.pair.mstate = .ready := by
      simp only [maySleep, Bool.not_eq_true', Bool.not_eq_false, Bool.and_eq_true, decide_eq_true_eq] at hc
      exact hc.1.1
    have h1 : Keeps k r { s with sys := { s.sys with sleepPend := false } } := h.same
    exact .ite (.ite (Keeps.roundStart h.same) h) (.ite h (h1.enterSleep hs))

theorem execSleep_keeps (h : Keeps k r s) (v : Word) : Answers k r (execSleep v s) := .cpRow h (.next (h.sleepOp _)) _ _

theorem execWake_keeps (h : Keeps k r s) (x : WakeSrc) : Answers k r (execWake x s) := .when (Keeps.callReset h.same _) h

/-! ### Register writes -/

theorem resFault_keeps (a : Nat) : Answers k r (resFault a) := .fault _

theorem writeLeCtrl_keeps (h : Keeps k r s) (v : Word) : Answers k r (writeLeCtrl v s) := by
  unfold writeLeCtrl
  split
  exacts [execLeRun_keeps h _, execLeStop_keeps h _, resFault_keeps _]

theorem writeEditCmd_keeps (h : Keeps k r s) (v : Word) : Answers k r (writeEditCmd v s) := by
  unfold writeEditCmd
  split
  exacts [execEditOpen_keeps h, execEditClose_keeps h, execEditStage_keeps h, execEditCommit_keeps h, execEditAccept_keeps h,
    execEditUndo_keeps h, execEditDiscard_keeps h, resFault_keeps _]

theorem writePairCmd_keeps (h : Keeps k r s) (v : Word) : Answers k r (writePairCmd v s) := by
  unfold writePairCmd
  split
  exacts [execHandover_keeps h _, execPull_keeps h _, execResync_keeps h _, resFault_keeps _]

theorem writeTimeCmd_keeps (h : Keeps k r s) (v : Word) : Answers k r (writeTimeCmd v s) := by
  unfold writeTimeCmd
  split
  exacts [execTimeSet_keeps h _, execSlew_keeps h _, execSlewStop_keeps h _, resFault_keeps _]

theorem writeUpdCmd_keeps (h : Keeps k r s) (v : Word) : Answers k r (writeUpdCmd v s) := by
  unfold writeUpdCmd
  split
  exacts [execUpdCancel_keeps h _, execUpdConfirm_keeps h _, execUpdFallback_keeps h _, execUpdDiscard_keeps h _, .next h]

theorem writeSysCmd_keeps (h : Keeps k r s) (v : Word) : Answers k r (writeSysCmd v s) := by
  unfold writeSysCmd
  split
  exacts [execSoftReset_keeps h _, execTickGo_keeps h _, .next h]

theorem writeNvCmd_keeps (h : Keeps k r s) (v : Word) : Answers k r (writeNvCmd v s) := by
  unfold writeNvCmd
  split
  exacts [execNvWrite_keeps h, execNvRead_keeps h, resFault_keeps _]

theorem writeFlCmd_keeps (h : Keeps k r s) (v : Word) : Answers k r (writeFlCmd v s) := by
  unfold writeFlCmd
  split
  exacts [execFlProgram_keeps h _ _, execFlErase_keeps h _ _, resFault_keeps _]

protected theorem Keeps.writeMonCmd (h : Keeps k r s) (v : Word) : Keeps k r (writeMonCmd v s) := h.same

protected theorem Keeps.writePnlCtrl (h : Keeps k r s) (v : Word) : Keeps k r (writePnlCtrl v s) :=
  have h1 := Keeps.ite (c := fbit v 1 = true) h.panelFlush h
  .ite h1.panelOn h1.panelOff

protected theorem Keeps.writeSleep (h : Keeps k r s) (v : Word) : Keeps k r (writeSleep v s) := (h.regPut _ _).sleepOp _

theorem writeBtnCtrl_keeps (h : Keeps k r s) (v : Word) : Answers k r (writeBtnCtrl v s) := execPersist_keeps (h.regPut _ _) _

protected theorem Keeps.clearBits (h : Keeps k r s) (a : Nat) (v : Word) : Keeps k r (clearBits a v s) :=
  .ite h.same <| .ite h.same <| .ite h.same <| .ite h.same <| .ite h.same <| .ite h.same <| .ite h.same <| .ite h.same <|
  .ite h.same <| .ite h.same <| .ite h.same <| .ite h.same <| .ite h.same <| .ite h.same <| .ite h.same <| .ite h.same <|
  .ite h.same <| .ite h.same h

/-- Where a register is the command's own, what its command does keeps the invariants. -/
def AnswersSome (k : Bool) (r : State) (o : Option Out) : Prop := ∀ x, o = some x → Answers k r x

theorem AnswersSome.some {o : Out} (ho : Answers k r o) : AnswersSome k r (some o) := fun _ e => by injection e with e; exact e ▸ ho

theorem AnswersSome.none : AnswersSome k r none := fun _ e => by injection e

protected theorem AnswersSome.ite {c : Prop} [Decidable c] {o p : Option Out} (ho : AnswersSome k r o) (hp : AnswersSome k r p) :
    AnswersSome k r (if c then o else p) := by
  split
  exacts [ho, hp]

theorem writeChan_keeps (h : Keeps k r s) (n o : Nat) (v : Word) : AnswersSome k r (writeChan n o v s) :=
  .ite (.some (.ite (execCalReq_keeps h _) (.next h))) (.ite (.some (.ite (execChFaultRearm_keeps h _) (.next h))) .none)

theorem writeGrp_keeps (h : Keeps k r s) (g o : Nat) (v : Word) : AnswersSome k r (writeGrp g o v s) :=
  .ite (.some (.next (h.grPut _ _))) .none

theorem writeTxCtrl_keeps (h : Keeps k r s) (b e : Nat) (v : Word) : Answers k r (writeTxCtrl b e v s) := by
  unfold writeTxCtrl
  extract_lets x s1
  have h1 : Keeps k r s1 := (h.txPut _ _ _).regPut _ _
  exact .ite (execTxAbort_keeps h1 _ _) (.ite (execTxReq_keeps h1 _ _) (.next h1))

theorem writeCan_keeps (h : Keeps k r s) (b o : Nat) (v : Word) : AnswersSome k r (writeCan b o v s) :=
  .ite (.some (.next ((h.regPut _ _).fireIf _ _))) (.ite (.some (.next (h.buPut _ _))) (.ite (.some (execCanRxPop_keeps h _ _))
    (.ite (.some (writeTxCtrl_keeps h _ _ _)) .none)))

theorem writeUart_keeps (h : Keeps k r s) (u o : Nat) (v : Word) : AnswersSome k r (writeUart u o v s) :=
  .ite (.some (.next (h.uaPut _ _))) (.ite (.some (execUartDataWrite_keeps h _ _))
    (.ite (.some (.next ((h.regPut _ _).uartStart _))) (.ite (.some (.next ((h.regPut _ _).uaPut _ _))) .none)))

theorem writeIc_keeps (h : Keeps k r s) (o : Nat) (v : Word) : AnswersSome k r (writeIc o v s) :=
  .ite (.some (execIcComplete_keeps h _)) (.ite (.some (execEqPop_keeps h _ _)) (.ite (.some (execEqPop_keeps h _ _))
    (.ite (.some (.next h.same)) (.ite (.some (.next h.same)) (.ite (.some (.next h)) .none)))))

protected theorem Keeps.writeForce (h : Keeps k r s) (a : Nat) (v : Word) : Keeps k r (writeForce a v s) := by
  unfold Machine.writeForce
  extract_lets f s1 c
  have h1 : Keeps k r s1 := (h.regStage _ _).notice _ _ _ _
  exact .ite h (.ite h1.same h1)

protected theorem Keeps.writeRate (h : Keeps k r s) (v : Word) : Keeps k r (writeRate v s) := .ite h.same h

protected theorem Keeps.writePanel (h : Keeps k r s) (a : Nat) (v : Word) : Keeps k r (writePanel a v s) :=
  (h.regPut a (v &&& (regInfo a).mask)).same

protected theorem Keeps.writeReact (h : Keeps k r s) (a : Nat) (v : Word) : Keeps k r (writeReact a v s) :=
  (h.regStage a v).same

protected theorem Keeps.cfgWrite (h : Keeps k r s) (a : Nat) (v : Word) : Keeps k r (cfgWrite a v s) := by
  unfold Machine.cfgWrite
  extract_lets i x
  split
  · exact h
  · exact .ite (h.writeRate _) (.ite (h.writePanel _ _) (h.regPut _ _))
  · exact .ite (h.writeForce _ _) (.ite (h.regStage _ _) (h.regStage _ _))
  · exact .ite h (.ite (h.writeReact _ _) (.ite (h.regStage a x).same (h.regStage _ _)))

protected theorem Keeps.disarm (h : Keeps k r s) (a : Nat) : Keeps k r (disarm a s) := .ite h.same h

theorem writeCmd_keeps (h : Keeps k r s) (a : Nat) (v : Word) : AnswersSome k r (writeCmd a v s) :=
  .ite (.some (writeLeCtrl_keeps h _)) <| .ite (.some (execScanHistClr_keeps h _)) <| .ite (.some (writeEditCmd_keeps h _)) <|
  .ite (.some (.next (h.writeMonCmd _))) <| .ite (.some (writePairCmd_keeps h _)) <| .ite (.some (writeTimeCmd_keeps h _)) <|
  .ite (.some (.next (h.writeSleep _))) <| .ite (.some (writeSysCmd_keeps h _)) <| .ite (.some (writeUpdCmd_keeps h _)) <|
  .ite (.some (execNvTest_keeps h _)) <| .ite (.some (writeNvCmd_keeps h _)) <| .ite (.some (writeFlCmd_keeps h _)) <|
  .ite (.some (writeBtnCtrl_keeps h _)) <| .ite (.some (execBtnClear_keeps h _)) <| .ite (.some (execCpwdService_keeps h _)) <|
  .ite (.some (execSlcKey_keeps h _)) <| .ite (.some (execSlcStart_keeps h _)) <| .ite (.some (execSlcRelease_keeps h _)) <|
  .ite (.some (execFreezeClr_keeps h _)) <| .ite (.some (execRfxLatch_keeps h _ _)) <| .ite (.some (execRfxLatch_keeps h _ _)) <|
  .ite (.some (execRfxSoft_keeps h _)) <| .ite (.some (.next (h.writePnlCtrl _))) <| .ite (.some (execRectSubmit_keeps h _)) <|
  .ite (writeChan_keeps h _ _ _) <| .ite (writeGrp_keeps h _ _ _) <| .ite (writeCan_keeps h _ _ _) <|
  .ite (writeUart_keeps h _ _ _) <| .ite (writeIc_keeps h _ _) .none

theorem blockWrite_keeps (h : Keeps k r s) (a : Nat) (v : Word) : Answers k r (blockWrite a v s) := by
  unfold blockWrite
  split
  · next o ho => exact writeCmd_keeps h a v o ho
  · exact .next (((h.disarm _).clearBits _ _).cfgWrite _ _).settle

theorem spaceWrite_keeps (h : Keeps k r s) (a : Nat) (v : Word) : Answers k r (spaceWrite a v s) :=
  .ite (.next h.same) <| .ite (.next (h.progWinWrite _ _ _)) <| .ite (.next (h.poolWinWrite _ _ _)) <| .ite (.next h.same) <|
  .ite (.ite (execDataWindowLowWrite_keeps h _ _) (execDataWindowHighWrite_keeps h _ _)) <|
  .ite (.ite (resFault_keeps _) (.ite (.next (h.disarm _)) (blockWrite_keeps h _ _))) (.next h)

theorem cpWrite_keeps (h : Keeps k r s) (n : Nat) (v : Word) : Answers k r (cpWrite n v s) :=
  .ite (.next h.same) (.ite (.next h) (.ite (.next (h.freezeMaster _ _ _).settle) (spaceWrite_keeps h _ _)))

theorem oemWrite_keeps (h : Keeps k r s) (n : Nat) (v : Word) : Answers k r (oemWrite n v s) :=
  .ite (.next h) (.ite (execOemViolation_keeps h) (cpWrite_keeps h _ _))

theorem oemStoreCall_keeps (h : Keeps k r s) (n : Nat) (v : Word) : Answers k r (oemStoreCall n v s) :=
  .ite (.next (h.nvCode _)) (.ite (cpWrite_keeps h _ _) (.next h))

theorem execRegisterWrite_keeps (h : Keeps k r s) (a : CpAccess) (v : Word) : Answers k r (execRegisterWrite a v s) := by
  unfold execRegisterWrite
  refine .ite (.next h) ?_
  split
  · exact .ite (cpWrite_keeps h _ _) (.next h)
  · exact oemWrite_keeps h _ _
  · exact .ite (cpWrite_keeps h _ _) (.next h)
  · exact .ite (cpWrite_keeps h _ _) (.next h)
  · exact .ite (oemStoreCall_keeps h _ _) (.next h)
  · exact .next (h.noticeIf _ _ _ _ _)

end
end Sys2Proof.Machine

namespace Sys2Proof.Machine

set_option Elab.async false
section
variable {k : Bool} {r s t : State}

/-! ### What the module does while no command waits -/

protected theorem Keeps.nvGovern (h : Keeps k r s) : Keeps k r (nvGovern s) := h.same

protected theorem Keeps.uartShift (h : Keeps k r s) (u : Nat) : Keeps k r (uartShift s u) := .ite (h.charStart _ _) h

protected theorem Keeps.uartBudget (h : Keeps k r s) (u : Nat) : Keeps k r (uartBudget s u) := .ite (h.uaPut _ _) h

protected theorem Keeps.readySend (h : Keeps k r s) : Keeps k r (readySend s) := .ite (h.cpSend _) h

protected theorem Keeps.ptpSend (h : Keeps k r s) : Keeps k r (ptpSend s) :=
  .ite (h.foldl _ _ fun _ _ ha => Keeps.fire ha.same _ _) h

protected theorem Keeps.supplyEnd (h : Keeps k r s) : Keeps k r (supplyEnd s) :=
  .ite (h.powerStart _ _ (.inl rfl)) (.ite h.same h)

protected theorem Keeps.clearUpset (h : Keeps k r s) (p : Nat → Bool) : Keeps k r (clearUpset p s) := h.same

protected theorem Keeps.sramWatch (h : Keeps k r s) : Keeps k r (sramWatch s) := by
  unfold Machine.sramWatch
  split
  · exact .ite h (.ite ((h.clearUpset _).corrected.sramCount _) (((h.clearUpset _).containedFault _ _).cpReset _))
  · exact h

protected theorem Keeps.cycle (h : Keeps k r s) : Keeps k r (cycle s) :=
  ((h.advance.nvGovern.foldl uartShift _ fun _ _ ha => ha.uartShift _).foldl uartBudget _ fun _ _ ha =>
    ha.uartBudget _).readySend.ptpSend.sramWatch.supplyEnd

protected theorem Keeps.fetchTrap (h : Keeps k r s) : Keeps k r (fetchTrap s) := (h.recordTraps _).abortScan.settle

protected theorem Keeps.fetch (h : Keeps k r s) : Keeps k r (fetch s) := by
  unfold Machine.fetch
  extract_lets go s1
  have hgo : ∀ {a}, Keeps k r a → Keeps k r (go a) := fun ha => ha.same
  have h1 : Keeps k r s1 := h.recordReadFaults _
  exact .ite h.fetchTrap (.ite (hgo h) (.ite (Keeps.settle h1.same) (hgo h1).settle))

/-- Each state that the event may lead to keeps the invariants. -/
def Safe (e : Event) : Prop := ∀ (k : Bool) (r s : State), Keeps k r s → Answers k r (e s)

theorem Keeps.occur (h : Keeps k r s) {e : Event} (he : Safe e) : Keeps k r (occur s e) := by
  unfold Machine.occur
  split
  · next t ht => exact he k r s h t ht
  · exact h

theorem Keeps.occurs (h : Keeps k r s) {l : List Event} (hl : ∀ e ∈ l, Safe e) : Keeps k r (l.foldl Machine.occur s) := by
  induction l generalizing s with
  | nil => exact h
  | cons e l ih =>
    exact ih (h.occur (hl e List.mem_cons_self)) fun e he => hl e (List.mem_cons_of_mem _ he)

theorem slcEvents_safe (g : Nat) : ∀ e ∈ slcEvents g, Safe e := by
  simp only [slcEvents, List.forall_mem_cons, List.not_mem_nil, false_imp_iff, implies_true, and_true]
  exact ⟨fun _ _ _ h => execPulseEnd_keeps h _, fun _ _ _ h => execWaitEnd_keeps h _, fun _ _ _ h => execWaitinSatisfied_keeps h _,
    fun _ _ _ h => execWaitinTimeout_keeps h _, fun _ _ _ h => execSetch_keeps h _, fun _ _ _ h => execClrch_keeps h _,
    fun _ _ _ h => execSlcHold_keeps h _, fun _ _ _ h => execPulse_keeps h _, fun _ _ _ h => execSlcWait_keeps h _,
    fun _ _ _ h => execWaitin_keeps h _, fun _ _ _ h => execSlcEnd_keeps h _⟩

theorem chanEvents_safe (n : Nat) : ∀ e ∈ chanEvents n, Safe e := by
  simp only [chanEvents, List.forall_mem_cons, List.not_mem_nil, false_imp_iff, implies_true, and_true]
  exact ⟨fun _ _ _ h => execDebouncedEdge_keeps h _, fun _ _ _ h => execSettlingEnd_keeps h _, fun _ _ _ h => execCalDue_keeps h _,
    fun _ _ _ h => execCalOverdue_keeps h _, fun _ _ _ h => execCalWindow_keeps h _⟩

theorem busEvents_safe (b : Nat) : ∀ e ∈ busEvents b, Safe e := by
  simp only [busEvents, List.forall_mem_cons, List.not_mem_nil, false_imp_iff, implies_true, and_true]
  exact ⟨fun _ _ _ h => execReferenceFrame_keeps h _ _, fun _ _ _ h => execFreeWindow_keeps h _, fun _ _ _ h => .next (h.busServe _),
    fun _ _ _ h => .next (h.txRefuse _)⟩

theorem uartEvents_safe (u : Nat) : ∀ e ∈ uartEvents u, Safe e := by
  simp only [uartEvents, List.forall_mem_cons, List.not_mem_nil, false_imp_iff, implies_true, and_true]
  exact ⟨fun _ _ _ h => execGovHold_keeps h _, fun _ _ _ h => execUartTxComplete_keeps h _, fun _ _ _ h => execTailEnd_keeps h _,
    fun _ _ _ h => execGovResume_keeps h _, fun _ _ _ h => execLeadEnd_keeps h _, fun _ _ _ h => execIdleGap_keeps h _⟩

theorem ifaceEvents_safe (i : Nat) : ∀ e ∈ ifaceEvents i, Safe e := by
  simp only [ifaceEvents, List.forall_mem_cons, List.not_mem_nil, false_imp_iff, implies_true, and_true]
  exact ⟨fun _ _ _ h => execSessionExpiry_keeps h _, fun _ _ _ h => execTokenLockEnd_keeps h _⟩

theorem rateEvents_safe (s : State) : ∀ e ∈ rateEvents s, Safe e := by
  have heart : ∀ l, Safe (execHeartbeatSend l) := fun l _ _ _ h => execHeartbeatSend_keeps h l
  intro e he
  rcases List.mem_append.1 he with he | he
  · split at he
    · rcases List.mem_pair.1 he with rfl | rfl <;> exact heart _
    · exact absurd he List.not_mem_nil
  · split at he
    · obtain ⟨b, -, rfl⟩ := List.mem_map.1 he
      exact fun _ _ _ h => execScrub_keeps h _
    · exact absurd he List.not_mem_nil

/-- All events of a list that a family of lists gives are safe where those of each of its lists are. -/
theorem flatMap_safe {f : Nat → List Event} (hf : ∀ n, ∀ e ∈ f n, Safe e) (l : List Nat) : ∀ e ∈ l.flatMap f, Safe e := by
  intro e he
  obtain ⟨n, -, hn⟩ := List.mem_flatMap.1 he
  exact hf n e hn

theorem linkResends_safe (l : List LinkFrame) : ∀ e ∈ l.map (fun f => execLinkResend f.hdr.seq), Safe e := by
  intro e he
  obtain ⟨f, -, rfl⟩ := List.mem_map.1 he
  exact fun _ _ _ h => execLinkResend_keeps h _

theorem twdExpiries_safe : ∀ e ∈ (List.range 8).map (fun k => execTwdExpired (BitVec.ofNat 3 k)), Safe e := by
  intro e he
  obtain ⟨n, -, rfl⟩ := List.mem_map.1 he
  exact fun _ _ _ h => execTwdExpired_keeps h _

theorem clockwork_safe (s : State) : ∀ e ∈ clockwork s, Safe e := by
  simp only [clockwork, List.forall_mem_append, List.forall_mem_cons, List.not_mem_nil, false_imp_iff, implies_true, and_true]
  refine ⟨⟨⟨⟨⟨⟨⟨⟨⟨⟨⟨⟨⟨?_, ?_⟩, ?_⟩, ?_⟩, ?_⟩, ?_⟩, ?_⟩, ?_⟩, ?_⟩, ?_⟩, ?_⟩, ?_⟩, ?_⟩, ?_⟩
  · exact ⟨fun _ _ _ h => execModuleReset_keeps h, fun _ _ _ h => .next h.slotStep, fun _ _ _ h => .next h.clockRestart,
    fun _ _ _ h => .next h.sleepStep, fun _ _ _ h => execBackupWdg_keeps h, fun _ _ _ h => execBwdHalfTimeout_keeps h,
    fun _ _ _ h => execCpWdg_keeps h, fun _ _ _ h => execSlewComplete_keeps h, fun _ _ _ h => execPpsOut_keeps h,
    fun _ _ _ h => execPpsHoldover_keeps h, fun _ _ _ h => execTakeover_keeps h,
    fun _ _ _ h => execStopComplete_keeps h, fun _ _ _ h => execFallback_keeps h, fun _ _ _ h => execActivation_keeps h⟩
  · exact flatMap_safe chanEvents_safe _
  · exact ⟨fun _ _ _ h => execTickBoundary_keeps h, fun _ _ _ h => execEditSwap_keeps h,
    fun _ _ _ h => execSelfTestPassStart_keeps h, fun _ _ _ h => execOutputCommit_keeps h,
    fun _ _ _ h => execRefreshTimeout_keeps h, fun _ _ _ h => execScanStart_keeps h,
    fun _ _ _ h => execLockstepSelfTest_keeps h _, fun _ _ _ h => execGiveupExpired_keeps h,
    fun _ _ _ h => execOverrun_keeps h, fun _ _ _ h => execEvaluationPoint_keeps h,
    fun _ _ _ h => execListenEnd_keeps h, fun _ _ _ h => execHandoverFail_keeps h⟩
  · exact flatMap_safe busEvents_safe _
  · exact twdExpiries_safe
  · exact ⟨fun _ _ _ h => execLaneDown_keeps h _, fun _ _ _ h => execLaneDown_keeps h _⟩
  · exact linkResends_safe _
  · exact ⟨fun _ _ _ h => .next h.linkServe, fun _ _ _ h => execEpochShipped_keeps h, fun _ _ _ h => .next h.hardOffAll⟩
  · exact ⟨fun _ _ _ h => execActivateArm_keeps h, fun _ _ _ h => execDecision_keeps h, fun _ _ _ h => execConfirm_keeps h,
    fun _ _ _ h => execConfirmTimeout_keeps h, fun _ _ _ h => execSnapshot_keeps h,
    fun _ _ _ h => execWriteList_keeps h, fun _ _ _ h => execMigrationApply_keeps h, fun _ _ _ h => .next h.updMigrate⟩
  · exact flatMap_safe slcEvents_safe _
  · exact flatMap_safe uartEvents_safe _
  · exact flatMap_safe ifaceEvents_safe _
  · exact ⟨fun _ _ _ h => execOemRestart_keeps h, fun _ _ _ h => execStartupEnd_keeps h,
    fun _ _ _ h => execRecoveryEnd_keeps h, fun _ _ _ h => .next h.nvCarry, fun _ _ _ h => execNvDrain_keeps h,
    fun _ _ _ h => .next h.nvKeep, fun _ _ _ h => execPersistRound_keeps h, fun _ _ _ h => execOperatingMinute_keeps h,
    fun _ _ _ h => execBitternRound_keeps h, fun _ _ _ h => execGrdEvaluation_keeps h,
    fun _ _ _ h => execMonthRecord_keeps h, fun _ _ _ h => execDischargeDone_keeps h,
    fun _ _ _ h => .next h.startSubmit, fun _ _ _ h => .next h.panelRows, fun _ _ _ h => execFullRefresh_keeps h,
    fun _ _ _ h => execRowScrub_keeps h, fun _ _ _ h => execBlinkPhase_keeps h, fun _ _ _ h => execPassEnd_keeps h,
    fun _ _ _ h => execPassStart_keeps h⟩
  · exact rateEvents_safe s

end

set_option maxRecDepth 2000 in
/-- Every command keeps the invariants. -/
theorem exec_keeps {k : Bool} {r s : State} (hk : Keeps k r s) (i : Instr) : Answers k r (exec i s) := by
  cases i with
  | tickBoundary => exact execTickBoundary_keeps hk
  | outputCommit => exact execOutputCommit_keeps hk
  | scanStart => exact execScanStart_keeps hk
  | overrun => exact execOverrun_keeps hk
  | refreshTimeout => exact execRefreshTimeout_keeps hk
  | evaluationPoint => exact execEvaluationPoint_keeps hk
  | scanHistClr v => exact execScanHistClr_keeps hk v
  | lockstepMismatch => exact execLockstepMismatch_keeps hk
  | lockstepSelfTest pass => exact execLockstepSelfTest_keeps hk pass
  | selfTestPassStart => exact execSelfTestPassStart_keeps hk
  | dbProg => exact execDbProg_keeps hk
  | editOpen => exact execEditOpen_keeps hk
  | editClose => exact execEditClose_keeps hk
  | editStage => exact execEditStage_keeps hk
  | editCommit => exact execEditCommit_keeps hk
  | editAccept => exact execEditAccept_keeps hk
  | editUndo => exact execEditUndo_keeps hk
  | editDiscard => exact execEditDiscard_keeps hk
  | editSwap => exact execEditSwap_keeps hk
  | migrationApply => exact execMigrationApply_keeps hk
  | monSnap => exact execMonSnap_keeps hk
  | monWrite => exact execMonWrite_keeps hk
  | snapshot => exact execSnapshot_keeps hk
  | writeList => exact execWriteList_keeps hk
  | dataWindowLowWrite a v => exact execDataWindowLowWrite_keeps hk a v
  | dataWindowHighWrite a v => exact execDataWindowHighWrite_keeps hk a v
  | dataWindowLowRead a => exact execDataWindowLowRead_keeps hk a
  | rfxLatch hi v => exact execRfxLatch_keeps hk hi v
  | rfxSoft v => exact execRfxSoft_keeps hk v
  | rfxLastTime => exact execRfxLastTime_keeps hk
  | rawEdge n x => exact execRawEdge_keeps hk n x
  | debouncedEdge n => exact execDebouncedEdge_keeps hk n
  | wettingSample n level => exact execWettingSample_keeps hk n level
  | wettingConfirm n level => exact execWettingConfirm_keeps hk n level
  | wettingAdapt n settle => exact execWettingAdapt_keeps hk n settle
  | wirebreak n ua us => exact execWirebreak_keeps hk n ua us
  | wirebreakClear n ua us => exact execWirebreakClear_keeps hk n ua us
  | wbLearn n ua => exact execWbLearn_keeps hk n ua
  | short n us => exact execShort_keeps hk n us
  | overcurrent n ma us => exact execOvercurrent_keeps hk n ma us
  | thermal n => exact execThermal_keeps hk n
  | groupShed g ma us => exact execGroupShed_keeps hk g ma us
  | chFaultRearm n => exact execChFaultRearm_keeps hk n
  | mismatch n us => exact execMismatch_keeps hk n us
  | driveSense n on => exact execDriveSense_keeps hk n on
  | settlingEnd n => exact execSettlingEnd_keeps hk n
  | calDue n => exact execCalDue_keeps hk n
  | calWindow n => exact execCalWindow_keeps hk n
  | calResult n thr ilim terminal => exact execCalResult_keeps hk n thr ilim terminal
  | abortEdge n => exact execAbortEdge_keeps hk n
  | calOverdue n => exact execCalOverdue_keeps hk n
  | calReq n => exact execCalReq_keeps hk n
  | fieldSupplyLost g => exact execFieldSupplyLost_keeps hk g
  | fieldSupplyReturn g => exact execFieldSupplyReturn_keeps hk g
  | low g mv => exact execLow_keeps hk g mv
  | surge g uj => exact execSurge_keeps hk g uj
  | slcKey v => exact execSlcKey_keeps hk v
  | slcStart v => exact execSlcStart_keeps hk v
  | slcRelease v => exact execSlcRelease_keeps hk v
  | setch g => exact execSetch_keeps hk g
  | clrch g => exact execClrch_keeps hk g
  | slcHold g => exact execSlcHold_keeps hk g
  | pulse g => exact execPulse_keeps hk g
  | pulseEnd g => exact execPulseEnd_keeps hk g
  | slcWait g => exact execSlcWait_keeps hk g
  | waitEnd g => exact execWaitEnd_keeps hk g
  | waitin g => exact execWaitin_keeps hk g
  | waitinSatisfied g => exact execWaitinSatisfied_keeps hk g
  | waitinTimeout g => exact execWaitinTimeout_keeps hk g
  | slcEnd g => exact execSlcEnd_keeps hk g
  | hardOff g => exact execHardOff_keeps hk g
  | supplyLoss => exact execSupplyLoss_keeps hk
  | supplyLow low => exact execSupplyLow_keeps hk low
  | heartbeatSend lane => exact execHeartbeatSend_keeps hk lane
  | heartbeat h p => exact execHeartbeat_keeps hk h p
  | laneDown lane => exact execLaneDown_keeps hk lane
  | linkResend seq => exact execLinkResend_keeps hk seq
  | giveUp h p => exact execGiveUp_keeps hk h p
  | takeover => exact execTakeover_keeps hk
  | taken h tick => exact execTaken_keeps hk h tick
  | giveupExpired => exact execGiveupExpired_keeps hk
  | tokenIn on => exact execTokenIn_keeps hk on
  | epochBegin h p => exact execEpochBegin_keeps hk h p
  | block h sweep a ws => exact execBlock_keeps hk h sweep a ws
  | edit h p => exact execEdit_keeps hk h p
  | force h p => exact execForce_keeps hk h p
  | epochEnd h seq crcOk => exact execEpochEnd_keeps hk h seq crcOk
  | epochLost h seq => exact execEpochLost_keeps hk h seq
  | epochShipped => exact execEpochShipped_keeps hk
  | program h bundle ws => exact execProgram_keeps hk h bundle ws
  | rangeAck h base pool => exact execRangeAck_keeps hk h base pool
  | blockTable h live prev => exact execBlockTable_keeps hk h live prev
  | cfgReq h => exact execCfgReq_keeps hk h
  | cfgData h slot => exact execCfgData_keeps hk h slot
  | cfgEnd h => exact execCfgEnd_keeps hk h
  | cpMsg h p => exact execCpMsg_keeps hk h p
  | handover key => exact execHandover_keeps hk key
  | handoverFail => exact execHandoverFail_keeps hk
  | pull key => exact execPull_keeps hk key
  | resync key => exact execResync_keeps hk key
  | listenEnd => exact execListenEnd_keeps hk
  | pairLastTime => exact execPairLastTime_keeps hk
  | pairEpochTick => exact execPairEpochTick_keeps hk
  | timeSet key => exact execTimeSet_keeps hk key
  | slew key => exact execSlew_keeps hk key
  | slewStop key => exact execSlewStop_keeps hk key
  | ppsIn => exact execPpsIn_keeps hk
  | ppsHoldover => exact execPpsHoldover_keeps hk
  | timeOfDay u utc ageMs => exact execTimeOfDay_keeps hk u utc ageMs
  | ppsOut => exact execPpsOut_keeps hk
  | timeLo => exact execTimeLo_keeps hk
  | countLo => exact execCountLo_keeps hk
  | referenceFrame b delay => exact execReferenceFrame_keeps hk b delay
  | referenceFrameHeard b id byte0 => exact execReferenceFrameHeard_keeps hk b id byte0
  | freeWindow b => exact execFreeWindow_keeps hk b
  | activateArm => exact execActivateArm_keeps hk
  | nodeInputFrame k sof eof busy data => exact execNodeInputFrame_keeps hk k sof eof busy data
  | rxFrame b f => exact execRxFrame_keeps hk b f
  | canRxPop b v => exact execCanRxPop_keeps hk b v
  | txReq b e => exact execTxReq_keeps hk b e
  | txAbort b e => exact execTxAbort_keeps hk b e
  | txDone b e stamp esi => exact execTxDone_keeps hk b e stamp esi
  | busError b tec rec => exact execBusError_keeps hk b tec rec
  | errorStateChange b tec rec st => exact execErrorStateChange_keeps hk b tec rec st
  | busOffRecovery b => exact execBusOffRecovery_keeps hk b
  | icClaim => exact execIcClaim_keeps hk
  | icComplete src => exact execIcComplete_keeps hk src
  | eqPop q v => exact execEqPop_keeps hk q v
  | cpWdg => exact execCpWdg_keeps hk
  | cpwdService v => exact execCpwdService_keeps hk v
  | cpLockstep => exact execCpLockstep_keeps hk
  | dbCpSram => exact execDbCpSram_keeps hk
  | cpResetRequest => exact execCpResetRequest_keeps hk
  | cpRestart => exact execCpRestart_keeps hk
  | oemViolation => exact execOemViolation_keeps hk
  | oemRestart => exact execOemRestart_keeps hk
  | uartDataWrite u v => exact execUartDataWrite_keeps hk u v
  | uartDataRead u => exact execUartDataRead_keeps hk u
  | leadEnd u => exact execLeadEnd_keeps hk u
  | tailEnd u => exact execTailEnd_keeps hk u
  | govHold u => exact execGovHold_keeps hk u
  | govResume u => exact execGovResume_keeps hk u
  | uartRxByte u v perr ferr => exact execUartRxByte_keeps hk u v perr ferr
  | idleGap u => exact execIdleGap_keeps hk u
  | uartTxComplete u => exact execUartTxComplete_keeps hk u
  | modemLineChange u lines => exact execModemLineChange_keeps hk u lines
  | ethernetFrame e len tagged fcsOk => exact execEthernetFrame_keeps hk e len tagged fcsOk
  | ethernetLink e up => exact execEthernetLink_keeps hk e up
  | sessionOpen ix => exact execSessionOpen_keeps hk ix
  | token ix t => exact execToken_keeps hk ix t
  | tokenLockEnd ix => exact execTokenLockEnd_keeps hk ix
  | sessionExpiry ix => exact execSessionExpiry_keeps hk ix
  | scrub bank => exact execScrub_keeps hk bank
  | protectionViolation m addr write => exact execProtectionViolation_keeps hk m addr write
  | freezeClr v => exact execFreezeClr_keeps hk v
  | twdExpired k => exact execTwdExpired_keeps hk k
  | backupWdg => exact execBackupWdg_keeps hk
  | clockFail dev => exact execClockFail_keeps hk dev
  | clockRecovery => exact execClockRecovery_keeps hk
  | backupClock bad => exact execBackupClock_keeps hk bad
  | fcuParity w => exact execFcuParity_keeps hk w
  | fcuFirstTimeLo => exact execFcuFirstTimeLo_keeps hk
  | fcuFatalTimeLo => exact execFcuFatalTimeLo_keeps hk
  | nvWrite => exact execNvWrite_keeps hk
  | nvRead => exact execNvRead_keeps hk
  | nvDrain => exact execNvDrain_keeps hk
  | nvProgramDone ok => exact execNvProgramDone_keeps hk ok
  | nvEraseDone blank => exact execNvEraseDone_keeps hk blank
  | mountDone => exact execMountDone_keeps hk
  | startupEnd => exact execStartupEnd_keeps hk
  | recoveryEnd => exact execRecoveryEnd_keeps hk
  | nvTest v => exact execNvTest_keeps hk v
  | persistRound => exact execPersistRound_keeps hk
  | flProgram v from_ => exact execFlProgram_keeps hk v from_
  | flErase v from_ => exact execFlErase_keeps hk v from_
  | flDone ok => exact execFlDone_keeps hk ok
  | bitternRound => exact execBitternRound_keeps hk
  | persist v => exact execPersist_keeps hk v
  | logSample mv temp die field => exact execLogSample_keeps hk mv temp die field
  | operatingMinute => exact execOperatingMinute_keeps hk
  | readout => exact execReadout_keeps hk
  | noticeRead r => exact execNoticeRead_keeps hk r
  | clearRequest ix r => exact execClearRequest_keeps hk ix r
  | btnClear v => exact execBtnClear_keeps hk v
  | powerUp seatB => exact execPowerUp_keeps hk seatB
  | tickGo v => exact execTickGo_keeps hk v
  | softReset v => exact execSoftReset_keeps hk v
  | moduleReset => exact execModuleReset_keeps hk
  | leRun v => exact execLeRun_keeps hk v
  | leStop v => exact execLeStop_keeps hk v
  | stopComplete => exact execStopComplete_keeps hk
  | sleep v => exact execSleep_keeps hk v
  | wake src => exact execWake_keeps hk src
  | configSlotWrite slot => exact execConfigSlotWrite_keeps hk slot
  | manifest m => exact execManifest_keeps hk m
  | chunk type c len crcOk hashOk img => exact execChunk_keeps hk type c len crcOk hashOk img
  | decision => exact execDecision_keeps hk
  | activation => exact execActivation_keeps hk
  | confirm => exact execConfirm_keeps hk
  | oemConfirm => exact execOemConfirm_keeps hk
  | confirmTimeout => exact execConfirmTimeout_keeps hk
  | fallback => exact execFallback_keeps hk
  | updCancel key => exact execUpdCancel_keeps hk key
  | updConfirm key => exact execUpdConfirm_keeps hk key
  | updFallback key => exact execUpdFallback_keeps hk key
  | updDiscard key => exact execUpdDiscard_keeps hk key
  | grdEvaluation => exact execGrdEvaluation_keeps hk
  | canaryUrgent slack canary => exact execCanaryUrgent_keeps hk slack canary
  | monthRecord => exact execMonthRecord_keeps hk
  | derate temp => exact execDerate_keeps hk temp
  | refDrift n mv => exact execRefDrift_keeps hk n mv
  | flashMarginRead weak => exact execFlashMarginRead_keeps hk weak
  | cellTest mv => exact execCellTest_keeps hk mv
  | overtemp t => exact execOvertemp_keeps hk t
  | pwrOn => exact execPwrOn_keeps hk
  | pwrOff => exact execPwrOff_keeps hk
  | dischargeDone => exact execDischargeDone_keeps hk
  | flush => exact execFlush_keeps hk
  | rectSubmit v => exact execRectSubmit_keeps hk v
  | passStart => exact execPassStart_keeps hk
  | passEnd => exact execPassEnd_keeps hk
  | fullRefresh => exact execFullRefresh_keeps hk
  | rowScrub => exact execRowScrub_keeps hk
  | blinkPhase => exact execBlinkPhase_keeps hk
  | panelSupplyFault => exact execPanelSupplyFault_keeps hk
  | registerWrite a v => exact execRegisterWrite_keeps hk a v
  | lowClear g mv => exact execLowClear_keeps hk g mv
  | slewComplete => exact execSlewComplete_keeps hk
  | bwdHalfTimeout => exact execBwdHalfTimeout_keeps hk
  | usbVbus on => exact execUsbVbus_keeps hk on
  | usbLoader sigOk => exact execUsbLoader_keeps hk sigOk
  | roMeasure degr => exact execRoMeasure_keeps hk degr
  | tcxoDailyMean ppb => exact execTcxoDailyMean_keeps hk ppb
  | _ => exact .next (hk.leIssue _ _)

section
variable {k : Bool} {r s : State}

protected theorem Keeps.sleepIdle (h : Keeps k r s) : Keeps k r (sleepIdle s) := by
  refine Keeps.settle (Keeps.occurs (Keeps.supplyEnd h.same) ?_)
  simp only [List.forall_mem_cons, List.not_mem_nil, false_imp_iff, implies_true, and_true]
  exact ⟨fun _ _ _ h => execModuleReset_keeps h, fun _ _ _ h => execBackupWdg_keeps h, fun _ _ _ h => execDischargeDone_keeps h⟩

protected theorem Keeps.idle (h : Keeps k r s) : Keeps k r (idle s) :=
  .ite h (.ite h.sleepIdle (.ite h.fetch (h.cycle.occurs (clockwork_safe _)).settle))

end

/-- Every step keeps the invariants. -/
theorem step_keeps (k : Bool) (s : State) : Answers k s (step s) := by
  unfold step
  split
  · exact exec_keeps (Keeps.same (.refl k s)) _
  · exact .next (Keeps.idle (.refl k s))

end Sys2Proof.Machine

namespace Sys2Proof.Machine

/-- Settles O2: every operation of the model keeps the relation `Keeps`, of which the form of the data memory is a part. -/
theorem memoryFormKept : Obligations.MemoryFormKept := by
  unfold Obligations.MemoryFormKept
  exact fun s t hs h => (step_keeps false s t h).mem hs

/-- Settles O3: every operation of the model keeps the relation `Keeps`, of which the form of the tables is a part. -/
theorem tableFormKept : Obligations.TableFormKept := by
  unfold Obligations.TableFormKept
  exact fun s t hs h => (step_keeps false s t h).tables hs

/-- Settles O4: every operation of the model keeps the relation `Keeps`, of which the bound of the event queues is a part. -/
theorem eventQueuesBounded : Obligations.EventQueuesBounded := by
  unfold Obligations.EventQueuesBounded
  exact fun s t hs h => (step_keeps false s t h).queues hs

/-- Settles O5: every operation of the model keeps the relation `Keeps`, here with its part about TOKEN_OUT. -/
theorem tokenOnlyActiveInRun : Obligations.TokenOnlyActiveInRun := by
  unfold Obligations.TokenOnlyActiveInRun
  exact fun s t hs h => (step_keeps true s t h).token rfl hs

end Sys2Proof.Machine

/-! ## LE instructions alone in their bundle that read an operand -/

namespace Sys2Proof.Machine

/-! ### What an operand reads -/

/-- A read without a violation or a fault delivers the word. -/
theorem leRead_quiet {s : State} {a : Nat} (h : quietRead s a = true) :
    leRead s a = readWord s a ∧ readViol s a = [] ∧ leReadFaults s a = [] := by
  simp only [quietRead, Bool.and_eq_true, List.isEmpty_iff] at h
  obtain ⟨hwin, hfault⟩ := h
  simp only [leRead, readViol, leReadFaults, hwin, hfault, if_true, and_self]

/-- Loading an operand does not branch. -/
theorem opdLoad_ctrl (s : State) (c : At) (m : BitVec 2) (w : BitVec 21) : (opdLoad s c m w).ctrl = none := by
  have hb : (opdBase s c m w).ctrl = none := by unfold opdBase; split <;> rfl
  unfold opdLoad
  dsimp only
  split <;> split <;> exact hb

/-- The lane of an instruction that loads its operand. -/
theorem opdLoad_lane (s : State) (c : At) (m : BitVec 2) (w : BitVec 21) : (opdLoad s c m w).lane = c.lane := by
  have hb : (opdBase s c m w).lane = c.lane := by unfold opdBase; split <;> rfl
  unfold opdLoad
  dsimp only
  split <;> split <;> exact hb

/-- Settles O12: each operand form is one branch of the operand's place. -/
theorem leOperandForms : Obligations.LeOperandForms := by
  unfold Obligations.LeOperandForms
  intro s c w x p
  refine ⟨rfl, rfl, fun hp => ?good, fun hp => ?bad, rfl, fun a ha => if_pos ha, fun a ha => ?refused⟩
  case good =>
    have hplace : opdPlace s c 2 w = .mem (p.val.toNat % 2097152) := if_neg (Nat.not_le.mpr hp)
    rw [opdVal, hplace]
  case bad =>
    have hplace : opdPlace s c 2 w = .refused p.tag := if_pos hp
    exact ⟨by rw [opdVal, hplace], by rw [opdLoad, hplace]⟩
  case refused => exact if_neg (by simp [ha])

/-! ### Results in a lane -/

section
variable {c : At} {s : State} {m : BitVec 2} {w : BitVec 21}

/-- An instruction that reads its operand without trap, violation and fault retires to the state with its results. -/
theorem retiresTo_wLoad (h : aloneIn c s = true) (hq : quietOpd s c m w = true) (n : Nat) (f : LaneSt → DWord → List LeWrite)
    {r : State} (hsys : ∀ i v, LeWrite.sys i v ∉ f (lane s c.lane.toNat) (opdVal s c m w))
    (hw : ∀ k e, (f (lane s c.lane.toNat) (opdVal s c m w)).foldl (applyWrite k) (openB s e) = openB r e)
    (hr : r.le.running = true) : retiresTo (.next (leIssue c (wLoad s c m w n f) s)) r := by
  simp only [quietOpd, Bool.and_eq_true, List.isEmpty_iff, Bool.not_eq_true'] at hq
  obtain ⟨⟨⟨hlegal, ht⟩, hv⟩, hf⟩ := hq
  have he : wLoad s c m w n f = { opdLoad s c m w with
      cycles := n, writes := f (lane s c.lane.toNat) (opdVal s c m w) } := if_neg (by simp [hlegal])
  rw [he]
  refine retiresTo_of h ?_ ?_ ?_ ?_ ?_ (fun k => ?_) hr
  exacts [ht, hv, hf, opdLoad_ctrl s c m w, hsys, hw k _]

/-- An instruction that gives the accumulator a word over its operand. -/
theorem retiresTo_wLoad_acc (h : aloneIn c s = true) (hq : quietOpd s c m w = true) (n : Nat) (a : BitVec 3)
    (f : LaneSt → DWord → DWord) {d : DWord} (hd : f (lane s c.lane.toNat) (opdVal s c m w) = d) :
    retiresTo (.next (leIssue c (wLoad s c m w n (fun x v => [wrAcc c a (f x v)])) s)) (accResult s c a d.val d.tag 0) :=
  retiresTo_wLoad h hq n _ (by simp [wrAcc])
    (fun _ e => by subst hd; exact congrArg (openB · e) (lanePut_accWrite s c a _ _ _ _ (write_all_bits _ _)))
    (running_of (s := s) h)

/-- Flags that are only set (R72). -/
theorem flags_set (x g : FlagSet) : (x &&& ~~~0) ||| g = x ||| g := by
  rw [show (~~~0 : FlagSet) = BitVec.allOnes 5 from rfl, BitVec.and_allOnes]

/-- A W-group operation gives A its result with the tag, and sets its flags (R68). -/
theorem retiresTo_wArith (h : aloneIn c s = true) (hq : quietOpd s c m w = true) (a : BitVec 3) (n : Nat)
    (tg : Tag → Tag → Tag) (f : Word → Word → Word × FlagSet) {v : Word} {g : FlagSet}
    (hf : f (accA s c a).val (opdVal s c m w).val = (v, g)) :
    retiresTo (.next (leIssue c (wArith s c a m w n tg f) s))
      (accResult s c a v (tg (accA s c a).tag (opdVal s c m w).tag) g) := by
  refine retiresTo_wLoad h hq n _ (by simp [wrAcc, wrFlags]) (fun k e => ?_) (running_of (s := s) h)
  change f (accOf (lane s c.lane.toNat) a.toNat).val (opdVal s c m w).val = (v, g) at hf
  simp only [wrAcc, wrFlags, List.foldl, applyWrite, lane_openB, lanePut_openB, hf, lane_lanePut (lanesWf h),
    lanePut_lanePut (lanesWf h), accWrite, write_all_bits, flags_set]
  rfl

/-- A compare gives RLO the relation with the tag of both, and sets its flags (R69). -/
theorem retiresTo_wCmp (h : aloneIn c s = true) (hq : quietOpd s c m w = true) (a : BitVec 3)
    (f : Word → Word → Bool × FlagSet) {r : Bool × FlagSet} (hf : f (accA s c a).val (opdVal s c m w).val = r) :
    retiresTo (.next (leIssue c (wCmp s c a m w f) s)) (lanePut s c.lane.toNat { lane s c.lane.toNat with
      rlo := ⟨r.1, tag2 (accA s c a).tag (opdVal s c m w).tag⟩, flags := (lane s c.lane.toNat).flags ||| r.2 }) := by
  refine retiresTo_wLoad h hq 1 _ (by simp [wrRlo, wrFlags]) (fun k e => ?_) (running_of (s := s) h)
  change f (accOf (lane s c.lane.toNat) a.toNat).val (opdVal s c m w).val = r at hf
  simp only [wrRlo, wrFlags, List.foldl, applyWrite, lane_openB, lanePut_openB, hf, lane_lanePut (lanesWf h),
    lanePut_lanePut (lanesWf h), flags_set]
  rfl

/-- A test of the operand gives RLO its result with tag GOOD (R74). -/
theorem retiresTo_wLoad_rlo (h : aloneIn c s = true) (hq : quietOpd s c m w = true) (f : LaneSt → DWord → Bool) {b : Bool}
    (hb : f (lane s c.lane.toNat) (opdVal s c m w) = b) :
    retiresTo (.next (leIssue c (wLoad s c m w 1 (fun x v => [wrRlo c (f x v) tagGOOD])) s)) (rloResult s c b 0) :=
  retiresTo_wLoad h hq 1 _ (by simp [wrRlo]) (fun _ _ => by subst hb; rfl) (running_of (s := s) h)

end

/-! ### Integer operations (R68, R70) -/

theorem iSub_fst (x y : Word) : (iSub x y).1 = x - y := by
  rw [← BitVec.toInt_inj, iSub, wrap, BitVec.toInt_ofInt, BitVec.toInt_sub]

/-- The unsigned quotient and remainder by a divisor that is not zero. -/
theorem iDivu_eq {x y : Word} (hy : y ≠ 0) : iDivu x y = (x / y, 0) := by
  rw [iDivu, if_neg hy]
  congr 1
  rw [← BitVec.toNat_udiv, BitVec.ofNat_toNat, BitVec.setWidth_eq]

theorem iModu_eq {x y : Word} (hy : y ≠ 0) : iModu x y = (x % y, 0) := by
  rw [iModu, if_neg hy]
  congr 1
  rw [← BitVec.toNat_umod, BitVec.ofNat_toNat, BitVec.setWidth_eq]

/-- What a saturating operation leaves in A (R70). -/
theorem accResult_sat32 (s : State) (c : At) (a : BitVec 3) (z : Int) (t : Tag) :
    accResult s c a (sat32 z).1 t (sat32 z).2 =
      if 2147483647 < z then accResult s c a 0x7FFFFFFF t 1
      else if z < -2147483648 then accResult s c a 0x80000000 t 1
      else accResult s c a (BitVec.ofInt 32 z) t 0 := by
  unfold sat32
  split
  · rfl
  · split <;> rfl

/-- A saturating operation whose exact result is `z`. -/
theorem retiresTo_sat32 {c : At} {s : State} {m : BitVec 2} {w : BitVec 21} (h : aloneIn c s = true)
    (hq : quietOpd s c m w = true) (a : BitVec 3) (tg : Tag → Tag → Tag) (f : Word → Word → Word × FlagSet) (z : Int)
    (hf : f (accA s c a).val (opdVal s c m w).val = sat32 z) :
    let t := tg (accA s c a).tag (opdVal s c m w).tag
    retiresTo (.next (leIssue c (wArith s c a m w 1 tg f) s))
      (if 2147483647 < z then accResult s c a 0x7FFFFFFF t 1
       else if z < -2147483648 then accResult s c a 0x80000000 t 1
       else accResult s c a (BitVec.ofInt 32 z) t 0) := by
  intro t
  rw [← accResult_sat32]
  exact retiresTo_wArith h hq a 1 tg f hf

/-- Settles O15: each operation through the rule of the W group, with its word and its flags. -/
theorem leInteger : Obligations.LeInteger := by
  unfold Obligations.LeInteger
  refine ⟨fun s c a m w h hq => ?arith, fun s c a m w h hq => ?division⟩
  case arith =>
    refine ⟨?add, ?sub, ?rsb, ?mul, ?mulh, ?min, ?max, ?adds, ?subs, ?abs, ?neg⟩
    case add => exact retiresTo_wArith h hq a 1 tag2 iAdd (Prod.ext (iAdd_fst _ _) rfl)
    case sub => exact retiresTo_wArith h hq a 1 tag2 iSub (Prod.ext (iSub_fst _ _) rfl)
    case rsb => exact retiresTo_wArith h hq a 1 tag2 iRsb (Prod.ext (iSub_fst _ _) rfl)
    case mul => exact retiresTo_wArith h hq a 2 tag2 iMul (Prod.ext (iMul_fst _ _) rfl)
    case mulh => exact retiresTo_wArith h hq a 2 tag2 iMulh rfl
    case min => exact retiresTo_wArith h hq a 1 tag2 iMin (Prod.ext (iMin_fst _ _) rfl)
    case max => exact retiresTo_wArith h hq a 1 tag2 iMax (Prod.ext (iMax_fst _ _) rfl)
    case adds => exact retiresTo_sat32 h hq a tag2 iAdds _ rfl
    case subs => exact retiresTo_sat32 h hq a tag2 iSubs _ rfl
    case abs =>
      refine retiresTo_sat32 h hq a tagOp _ _ (congrArg sat32 ?_)
      split <;> omega
    case neg => exact retiresTo_sat32 h hq a tagOp _ _ rfl
  case division =>
    refine ⟨fun h0 => ?zero, fun hA hv => ?overflow, fun h0 hno => ?signed, fun h0 => ?unsigned⟩
    case zero =>
      exact ⟨retiresTo_wArith h hq a 12 tag2 iDiv (if_pos h0), retiresTo_wArith h hq a 12 tag2 iMod (if_pos h0),
        retiresTo_wArith h hq a 12 tag2 iDivu (if_pos h0), retiresTo_wArith h hq a 12 tag2 iModu (if_pos h0)⟩
    case overflow =>
      have h0 : (opdVal s c m w).val ≠ 0 := by rw [hv]; decide
      exact ⟨retiresTo_wArith h hq a 12 tag2 iDiv ((if_neg h0).trans (if_pos ⟨hA, hv⟩)),
        retiresTo_wArith h hq a 12 tag2 iMod ((if_neg h0).trans (if_pos ⟨hA, hv⟩))⟩
    case signed =>
      exact ⟨retiresTo_wArith h hq a 12 tag2 iDiv ((if_neg h0).trans (if_neg hno)),
        retiresTo_wArith h hq a 12 tag2 iMod ((if_neg h0).trans (if_neg hno))⟩
    case unsigned =>
      exact ⟨retiresTo_wArith h hq a 12 tag2 iDivu (iDivu_eq h0), retiresTo_wArith h hq a 12 tag2 iModu (iModu_eq h0)⟩

/-! ### Logic, shifts and conversions (R68, R70) -/

theorem zx8_eq (v : Word) : zx8 v = (v.truncate 8).zeroExtend 32 := by
  apply BitVec.eq_of_toNat_eq
  have hmask : (0xFF : Word).toNat = 2 ^ 8 - 1 := rfl
  rw [zx8, BitVec.toNat_and, hmask, Nat.and_two_pow_sub_one_eq_mod]
  simp only [BitVec.truncate_eq_setWidth, BitVec.toNat_setWidth]
  omega

theorem zx16_eq (v : Word) : zx16 v = (v.truncate 16).zeroExtend 32 := by
  apply BitVec.eq_of_toNat_eq
  have hmask : (0xFFFF : Word).toNat = 2 ^ 16 - 1 := rfl
  rw [zx16, BitVec.toNat_and, hmask, Nat.and_two_pow_sub_one_eq_mod]
  simp only [BitVec.truncate_eq_setWidth, BitVec.toNat_setWidth]
  omega

theorem bswap_eq (v : Word) :
    bswap v = v.extractLsb' 0 8 ++ v.extractLsb' 8 8 ++ v.extractLsb' 16 8 ++ v.extractLsb' 24 8 := by
  have hv := v.isLt
  have hjoin : ∀ {k : Nat} (x : BitVec k) (y : BitVec 8), (x ++ y).toNat = x.toNat * 256 + y.toNat := fun x y => by
    rw [BitVec.toNat_append, ← Nat.shiftLeft_add_eq_or_of_lt y.isLt, Nat.shiftLeft_eq]
  apply BitVec.eq_of_toNat_eq
  simp only [bswap, hjoin, BitVec.extractLsb'_toNat, BitVec.toNat_ofNat, Nat.shiftRight_eq_div_pow,
    Nat.reducePow, Nat.div_one]
  rw [Nat.mod_eq_of_lt (by omega)]
  omega

/-- A sum over eight digits. -/
theorem foldl_range_eight (f : Nat → Nat) : (List.range 8).foldl (fun n i => n + f i) 0 =
    0 + f 0 + f 1 + f 2 + f 3 + f 4 + f 5 + f 6 + f 7 := rfl

/-- The number that eight decimal digits spell. -/
theorem bcdi_digits {v : Word} (h : ∀ k < 8, v.toNat / 16 ^ k % 16 ≤ 9) :
    bcdi v = (BitVec.ofNat 32 (v.toNat / 16 ^ 0 % 16 + 10 * (v.toNat / 16 ^ 1 % 16) + 100 * (v.toNat / 16 ^ 2 % 16) +
      1000 * (v.toNat / 16 ^ 3 % 16) + 10000 * (v.toNat / 16 ^ 4 % 16) + 100000 * (v.toNat / 16 ^ 5 % 16) +
      1000000 * (v.toNat / 16 ^ 6 % 16) + 10000000 * (v.toNat / 16 ^ 7 % 16)), 0) := by
  have hall : (List.range 8).all (fun i => decide (nibble v i ≤ 9)) = true :=
    List.all_eq_true.mpr fun k hk => decide_eq_true (h k (List.mem_range.mp hk))
  rw [bcdi, if_pos hall, foldl_range_eight (fun i => nibble v i * 10 ^ i)]
  refine Prod.ext (congrArg (BitVec.ofNat 32) ?_) rfl
  simp only [nibble]
  omega

theorem bcdi_no_digit {v : Word} (h : ∃ k < 8, 9 < v.toNat / 16 ^ k % 16) : bcdi v = (0, 1) := by
  obtain ⟨k, hk, hd⟩ := h
  refine if_neg fun hall => ?_
  have hle := of_decide_eq_true (List.all_eq_true.mp hall k (List.mem_range.mpr hk))
  exact Nat.not_le.mpr hd hle

/-- Eight decimal digits, four bits each, read back. -/
theorem digits_of_nibbles (d : Nat → Nat) (hd : ∀ k, d k < 10) {k : Nat} (hk : k < 8) :
    (BitVec.ofNat 32 ((List.range 8).foldl (fun n i => n + d i * 16 ^ i) 0)).toNat / 16 ^ k % 16 = d k := by
  have h0 := hd 0; have h1 := hd 1; have h2 := hd 2; have h3 := hd 3
  have h4 := hd 4; have h5 := hd 5; have h6 := hd 6; have h7 := hd 7
  rw [foldl_range_eight (fun i => d i * 16 ^ i), BitVec.toNat_ofNat]
  interval_cases k <;> omega

/-- A number of at most eight decimal digits, its digits in four bits each. -/
theorem ibcd_digits {v : Word} (h0 : 0 ≤ v.toInt) (h9 : v.toInt ≤ 99999999) :
    ∃ r : Word, ibcd v = (r, 0) ∧ ∀ k < 8, r.toNat / 16 ^ k % 16 = v.toNat / 10 ^ k % 10 :=
  ⟨_, (if_neg (Int.not_lt.mpr h0)).trans (if_neg (Int.not_lt.mpr h9)),
    fun _ hk => digits_of_nibbles (fun i => v.toNat / 10 ^ i % 10) (fun _ => Nat.mod_lt _ (by decide)) hk⟩

/-- Settles O16: each operation through the rule of the W group, with its word and its flags. -/
theorem leLogicAndConversions : Obligations.LeLogicAndConversions := by
  unfold Obligations.LeLogicAndConversions
  intro s c a m w h hq
  refine ⟨?and, ?or, ?xor, ?andn, ?shl, ?shr, ?sar, ?rol, ?ror, ?not, ?sx8, ?sx16, ?zx8, ?zx16, ?bswap, fun hd => ?bcdiBad,
    fun hd => ?bcdi, fun hneg => ?ibcdNeg, fun hbig => ?ibcdBig, fun h0 h9 => ?ibcd⟩
  case and => exact retiresTo_wArith h hq a 1 tag2 _ rfl
  case or => exact retiresTo_wArith h hq a 1 tag2 _ rfl
  case xor => exact retiresTo_wArith h hq a 1 tag2 _ rfl
  case andn => exact retiresTo_wArith h hq a 1 tag2 _ rfl
  case shl => exact retiresTo_wArith h hq a 1 tag2 _ rfl
  case shr => exact retiresTo_wArith h hq a 1 tag2 _ rfl
  case sar => exact retiresTo_wArith h hq a 1 tag2 _ rfl
  case rol => exact retiresTo_wArith h hq a 1 tag2 _ rfl
  case ror => exact retiresTo_wArith h hq a 1 tag2 _ rfl
  case not => exact retiresTo_wArith h hq a 1 tagOp _ rfl
  case sx8 => exact retiresTo_wArith h hq a 1 tagOp _ rfl
  case sx16 => exact retiresTo_wArith h hq a 1 tagOp _ rfl
  case zx8 => exact retiresTo_wArith h hq a 1 tagOp _ (Prod.ext (zx8_eq _) rfl)
  case zx16 => exact retiresTo_wArith h hq a 1 tagOp _ (Prod.ext (zx16_eq _) rfl)
  case bswap => exact retiresTo_wArith h hq a 1 tagOp _ (Prod.ext (bswap_eq _) rfl)
  case bcdiBad => exact retiresTo_wArith h hq a 1 tagOp _ (bcdi_no_digit hd)
  case bcdi => exact retiresTo_wArith h hq a 1 tagOp _ (bcdi_digits hd)
  case ibcdNeg => exact retiresTo_wArith h hq a 1 tagOp _ (if_pos hneg)
  case ibcdBig => exact retiresTo_wArith h hq a 1 tagOp _ ((if_neg (by omega)).trans (if_pos hbig))
  case ibcd =>
    obtain ⟨r, hr, hdigits⟩ := ibcd_digits h0 h9
    exact ⟨r, retiresTo_wArith h hq a 1 tagOp _ hr, hdigits⟩

/-! ### Compares and tests (R69, R74) -/

theorem tagClass_eq_iff (t : Tag) (k : Nat) : tagClass t = k ↔ 4 * k ≤ t.toNat ∧ t.toNat < 4 * k + 4 := by
  unfold tagClass; omega

/-- Settles O18: each compare and test through its rule. -/
theorem leComparesAndTests : Obligations.LeComparesAndTests := by
  unfold Obligations.LeComparesAndTests
  refine ⟨fun s c a m w h hq => ?compares, fun s c a m w h hq => ?tests⟩
  case compares =>
    refine ⟨?eq, ?ne, ?lt, ?le, ?gt, ?ge, ?ltu, ?geu, ?feq, ?fne, ?flt, ?fle, ?fgt, ?fge, ?unord⟩
    case eq => exact retiresTo_wCmp h hq a _ (Prod.ext (decide_eq_decide.mpr BitVec.toInt_inj.symm) rfl)
    case ne => exact retiresTo_wCmp h hq a _ (Prod.ext (decide_eq_decide.mpr BitVec.toInt_inj.symm.not) rfl)
    case lt => exact retiresTo_wCmp h hq a _ rfl
    case le => exact retiresTo_wCmp h hq a _ rfl
    case gt => exact retiresTo_wCmp h hq a _ rfl
    case ge => exact retiresTo_wCmp h hq a _ rfl
    case ltu => exact retiresTo_wCmp h hq a _ rfl
    case geu => exact retiresTo_wCmp h hq a _ rfl
    case feq => exact retiresTo_wCmp h hq a _ rfl
    case fne => exact retiresTo_wCmp h hq a _ rfl
    case flt => exact retiresTo_wCmp h hq a _ rfl
    case fle => exact retiresTo_wCmp h hq a _ rfl
    case fgt => exact retiresTo_wCmp h hq a _ rfl
    case fge => exact retiresTo_wCmp h hq a _ rfl
    case unord => exact retiresTo_wCmp h hq a _ rfl
  case tests =>
    refine ⟨?good, ?use, ?bad, ?np, ?teq⟩
    case good => exact retiresTo_wLoad_rlo h hq _ (decide_eq_decide.mpr (by unfold tagClass; omega))
    case use => exact retiresTo_wLoad_rlo h hq _ (decide_eq_decide.mpr (by unfold tagClass; omega))
    case bad => exact retiresTo_wLoad_rlo h hq _ (decide_eq_decide.mpr (by unfold tagClass; omega))
    case np => exact retiresTo_wLoad_rlo h hq _ (decide_eq_decide.mpr (by unfold tagClass; omega))
    case teq =>
      refine retiresTo_wLoad_rlo h hq _ (decide_eq_decide.mpr ?_)
      rw [← BitVec.toNat_inj, BitVec.truncate_eq_setWidth, BitVec.toNat_setWidth]
      rfl

end Sys2Proof.Machine

/-! ## Traps of an LE instruction alone in its bundle -/

namespace Sys2Proof.Machine

/-! ### Traps that end the scan -/

/-- A pop from an empty rung stack traps with RUNG_STACK (R62). -/
theorem trapsWith_popEff {c : At} {s : State} (h : aloneIn c s = true) (hst : (lane s c.lane.toNat).stack = [])
    (f : Rlo → Rlo → Rlo) : trapsWith (.next (leIssue c (popEff s c f) s)) s c 5 := by
  have he : popEff s c f = { effNop c with traps := [5] } := by simp only [popEff, hst]
  rw [he]
  exact leIssue_traps h _ 5 rfl rfl rfl rfl rfl

/-- A push onto a full rung stack traps with RUNG_STACK (R62). -/
theorem trapsWith_pushEff {c : At} {s : State} (h : aloneIn c s = true) (hst : (lane s c.lane.toNat).stack.length = 8) :
    trapsWith (.next (leIssue c (pushEff s c) s)) s c 5 := by
  have he : pushEff s c = { effNop c with traps := [5] } := if_pos (by omega)
  rw [he]
  exact leIssue_traps h _ 5 rfl rfl rfl rfl rfl

/-- A control instruction that finds no entry of the call stack to take traps with CALL_STACK (R82). -/
theorem trapsWith_callStack {c : At} {s : State} (h : aloneIn c s = true) {e : LaneEff} {a : BitVec 3}
    (he : e = { effNop c with ctrl := some .next, traps := [6] }) :
    trapsWith (.next (leIssue c (effCtl (ctrlEff s c 0 a e)) s)) s c 6 := by
  rw [ctrlEff_taken rfl, he]
  exact leIssue_traps h _ 6 rfl rfl rfl rfl rfl

/-- An illegal effect ends the scan with reason ILLEGAL. -/
theorem trapsWith_illegal_eff {c : At} {s : State} (h : aloneIn c s = true) {e : LaneEff} (he : e = effIllegal c) :
    trapsWith (.next (leIssue c e s)) s c 4 := trapsWith_illegal h (.inl he)

/-- In register mode address bits above the lane and the number are illegal (R66). -/
theorem opdIllegal_reg {w : BitVec 21} (hw : 32 ≤ w.toNat) : opdIllegal 3 w = true := decide_eq_true ⟨rfl, hw⟩

/-- Settles O8: each trap through the effect of its instruction. -/
theorem leTrapsEndScan : Obligations.LeTrapsEndScan := by
  unfold Obligations.LeTrapsEndScan
  refine ⟨fun s c i h hi => ?rung, fun s c a w k h => ?others⟩
  case rung =>
    simp only [List.mem_cons, List.not_mem_nil, or_false] at hi
    rcases hi with ⟨hfull, rfl⟩ | ⟨hempty, rfl | rfl | rfl | rfl⟩
    · exact trapsWith_pushEff h hfull
    · exact trapsWith_popEff h hempty _
    · exact trapsWith_popEff h hempty _
    · exact trapsWith_popEff h hempty _
    · exact trapsWith_popEff h hempty _
  case others =>
    refine ⟨trapsWith_illegal_eff h rfl, fun hw i hi => ?forms, fun b hb n st => ?load, fun b hb n st => ?store,
      fun hk => trapsWith_ldih h a hk, fun hk => ⟨?sysrd, ?syswr⟩, fun hk => ⟨?raise, ?shli⟩, fun t slot => ?loop,
      fun hfull t slot => ?call, fun hempty => ?ret⟩
    case forms =>
      have hform := opdIllegal_reg hw
      have hload : ∀ n f, wLoad s c 3 w n f = effIllegal c := fun n f => if_pos hform
      have hstore : ∀ mask v t, wStore s c 3 w mask v t = effIllegal c := fun mask v t => if_pos hform
      have hstag : stagEff s c a 3 w = effIllegal c := by
        simp only [stagEff, hform, hstore, Bool.not_true, Bool.and_false, Bool.false_eq_true, if_false]
      simp only [List.mem_cons, List.not_mem_nil, or_false] at hi
      rcases hi with rfl | rfl | rfl | rfl | rfl
      · exact trapsWith_illegal_eff h (hload _ _)
      · exact trapsWith_illegal_eff h (hstore _ _ _)
      · exact trapsWith_illegal_eff h (hload _ _)
      · exact trapsWith_illegal_eff h (hload _ _)
      · exact trapsWith_illegal_eff h hstag
    case load => exact trapsWith_illegal_eff h (if_pos hb)
    case store => exact trapsWith_illegal_eff h (if_pos hb)
    case sysrd => exact trapsWith_illegal_eff h (if_pos hk)
    case syswr => exact trapsWith_illegal_eff h (if_pos hk)
    case raise => exact trapsWith_illegal_eff h (if_pos (.inl hk))
    case shli => exact trapsWith_illegal_eff h (if_pos hk)
    case loop => exact trapsWith_illegal h (.inr rfl)
    case call => exact trapsWith_callStack h (if_pos (by omega))
    case ret => exact trapsWith_callStack h (if_pos (by simp [hempty]))

/-! ### Contained traps -/

/-- A contained fault that does not escalate leaves the logic engine alone (R287). -/
theorem containedFault_le {src reason : Nat} {s : State} (h : fcuReact s src ≠ 2) : (containedFault src reason s).le = s.le := by
  unfold containedFault
  dsimp only
  split
  · simp
  · next h2 => exact absurd h2 h
  · simp

/-- LE_TRAP takes a bundle's only trap where it is free (R88). -/
def trapLe (x : BitVec 2 × BitVec 6) (s : State) : LeSt :=
  let take := !s.le.trapValid
  { s.le with
    trapBundle := if take then s.le.pc else s.le.trapBundle
    trapLane := if take then x.1 else s.le.trapLane
    trapReason := if take then x.2.truncate 4 else s.le.trapReason
    trapTick := if take then BitVec.ofNat 32 s.tick.num else s.le.trapTick
    trapOvf := s.le.trapOvf || !take
    trapValid := true, trapFired := true }

/-- The capture of a bundle's only trap, where it does not escalate. -/
theorem recordTraps_le {s : State} (x : BitVec 2 × BitVec 6) (h : fcuReact s 477 ≠ 2) :
    (recordTraps [x] s).le = trapLe x s := by
  simp only [recordTraps, firstTrap, List.foldl]
  rw [containedFault_le (by simpa [fcuReact, force] using h)]
  simp [trapLe]

theorem recordTraps_mem (s : State) (x : BitVec 2 × BitVec 6) : (recordTraps [x] s).mem = s.mem :=
  (recordTraps_single s x.1 x.2).1

/-- The logic engine after a bundle with one contained trap has retired to new lanes. -/
def trappedLe (s : State) (x : BitVec 2 × BitVec 6) (lanes : SMap LaneSt) (n k : Nat) : LeSt :=
  { trapLe x s with
    running := true, lanes := lanes, pc := s.le.pc + 1, slot := 0, bundle := [], issued := false, scanCyc := n, stalls := k }

/-- An instruction alone in its bundle that captures a contained trap and writes only its lane, where the trap does not
escalate (R86-R88). -/
theorem leIssue_contained {c : At} {s : State} (h : aloneIn c s = true) {e : LaneEff} {r : BitVec 6} (hl : e.lane = c.lane)
    (ht : e.traps = [r]) (hr : trapAborts r = false) (hv : e.viols = []) (hf : e.memFaults = []) (hc : e.ctrl = none)
    (hsys : ∀ i v, LeWrite.sys i v ∉ e.writes) (hre : fcuReact s 477 ≠ 2) {lanes : SMap LaneSt}
    (hw : ∀ k u, u.le.lanes = s.le.lanes → e.writes.foldl (applyWrite k) u = { u with le := { u.le with lanes := lanes } }) :
    (leIssue c e s).mem = s.mem ∧ ∃ n k, (leIssue c e s).le = trappedLe s (c.lane, r) lanes n k := by
  have hle : (recordTraps [(c.lane, r)] (openB s e)).le = trapLe (c.lane, r) (openB s e) := recordTraps_le _ hre
  have hmem : (recordTraps [(c.lane, r)] (openB s e)).mem = s.mem := recordTraps_mem _ _
  have hrun : (trapLe (c.lane, r) (openB s e)).running = true := running_of (s := s) h
  rw [leIssue_alone e h]
  unfold retire
  simp only [bundle_openB _ h, byLane_single, bundleTraps_single, ht, hl, hr, hv, hf, List.map_cons, List.map_nil,
    List.any_cons, List.any_nil, Bool.or_false, Bool.false_eq_true, if_false, List.flatMap_cons, List.flatMap_nil,
    List.append_nil, List.filter_nil, recordReadFaults, List.foldl_nil, applySys_none _ _ hsys]
  rw [hw _ _ (by rw [hle]; rfl)]
  generalize recordTraps [(c.lane, r)] (openB s e) = u at hle hmem
  simp only [hle, hrun, Bool.not_true, Bool.false_eq_true, if_false, List.isEmpty_nil, Bool.or_false, List.find?, hc,
    Option.isSome, Option.getD]
  exact ⟨hmem, _, _, by simp only [applyCtrl]; rfl⟩

/-- An instruction that only captures a contained trap. -/
theorem leIssue_contained_nothing {c : At} {s : State} (h : aloneIn c s = true) {e : LaneEff} {r : BitVec 6}
    (hl : e.lane = c.lane) (ht : e.traps = [r]) (hr : trapAborts r = false) (hv : e.viols = []) (hf : e.memFaults = [])
    (hc : e.ctrl = none) (hws : e.writes = []) (hre : fcuReact s 477 ≠ 2) :
    (leIssue c e s).mem = s.mem ∧ ∃ n k, (leIssue c e s).le = trappedLe s (c.lane, r) s.le.lanes n k :=
  leIssue_contained h hl ht hr hv hf hc (by simp [hws]) hre (fun k u hu => by rw [hws, ← hu]; rfl)

/-- An instruction that captures a contained trap and writes RLO. -/
theorem leIssue_contained_rlo {c : At} {s : State} (h : aloneIn c s = true) {e : LaneEff} {r : BitVec 6}
    (hl : e.lane = c.lane) (ht : e.traps = [r]) (hr : trapAborts r = false) (hv : e.viols = []) (hf : e.memFaults = [])
    (hc : e.ctrl = none) {x : Rlo} (hws : e.writes = [.rlo c.lane x]) (hre : fcuReact s 477 ≠ 2) :
    (leIssue c e s).mem = s.mem ∧
      ∃ n k, (leIssue c e s).le = trappedLe s (c.lane, r) (rloResult s c x.bit x.tag).le.lanes n k :=
  leIssue_contained h hl ht hr hv hf hc (by simp [hws]) hre (fun k u hu => by
    rw [hws]
    simp only [List.foldl, applyWrite, rloResult, lanePut, lane, hu])

/-! ### Bit loads (R56, R57, R60) -/

section
variable {c : At} {s : State} {w : BitVec 21} {b : BitVec 6}

/-- A bit load without a strict trap combines RLO with the addressed bit. -/
theorem retiresTo_bitLoad (h : aloneIn c s = true) (hq : quietRead s w.toNat = true) (hb : b.toNat < 36) (n : Bool) {st : Bool}
    (f : Rlo → Bool → Tag → Rlo) {v : Bool} {g : Tag} (hbit : bitOf (readWord s w.toNat) b.toNat = (v, g))
    (hst : st = true → tagClass g = 0) {r : Rlo} (hr : f (lane s c.lane.toNat).rlo (v != n) g = r) :
    retiresTo (.next (leIssue c (bitLoad s c n st w b f) s)) (rloResult s c r.bit r.tag) := by
  obtain ⟨hread, hviol, hfault⟩ := leRead_quiet hq
  have hstrict : (st && decide (tagClass g ≠ 0)) = false := by
    cases st
    · rfl
    · simp [hst rfl]
  have he : bitLoad s c n st w b f = { effNop c with reads := [w.toNat], writes := [.rlo c.lane r] } := by
    rw [bitLoad, if_neg (by omega)]
    simp only [hread, hviol, hfault, hbit, hstrict, hr, Bool.false_eq_true, if_false, effNop]
  rw [he]
  exact retiresTo_of h rfl rfl rfl rfl (by simp) (fun _ => rfl) (running_of (s := s) h)

/-- A strict load of a word whose tag is not of class good captures STRICT, and its bit counts as 0 with tag GOOD. -/
theorem bitLoad_strict (h : aloneIn c s = true) (hq : quietRead s w.toNat = true) (hb : b.toNat < 32)
    (htag : tagClass (readWord s w.toNat).tag ≠ 0) (hre : fcuReact s 477 ≠ 2) (n : Bool) (f : Rlo → Bool → Tag → Rlo)
    {x : Rlo} (hx : f (lane s c.lane.toNat).rlo false 0 = x) :
    ∃ t, (.next (leIssue c (bitLoad s c n true w b f) s) : Out) = .next t ∧ (lane t c.lane.toNat).rlo = x ∧
      t.le.running = true ∧ t.le.pc = s.le.pc + 1 ∧ t.le.trapValid = true ∧
      (s.le.trapValid = false → t.le.trapReason = 1) ∧ t.mem = s.mem := by
  obtain ⟨hread, hviol, hfault⟩ := leRead_quiet hq
  have he : bitLoad s c n true w b f = { effNop c with reads := [w.toNat], traps := [1], writes := [.rlo c.lane x] } := by
    rw [bitLoad, if_neg (by omega)]
    have hbit : bitOf (readWord s w.toNat) b.toNat = ((readWord s w.toNat).val.getLsbD b.toNat, (readWord s w.toNat).tag) :=
      if_pos hb
    simp only [hread, hviol, hfault, hbit, Bool.true_and, htag, ne_eq, not_false_eq_true, decide_true, if_true, effNop]
    rw [← hx]
    rfl
  obtain ⟨hmem, k, m, hle⟩ := leIssue_contained_rlo (e := { effNop c with
    reads := [w.toNat], traps := [1], writes := [.rlo c.lane x] }) h rfl rfl rfl rfl rfl rfl rfl hre
  rw [he]
  refine ⟨_, rfl, ?_, ?_, ?_, ?_, fun hfree => ?_, hmem⟩
  · rw [lane, hle]
    exact congrArg LaneSt.rlo (mget_mput_same _ (lanesWf h))
  · rw [hle]; rfl
  · rw [hle]; rfl
  · rw [hle]; rfl
  · rw [hle]; simp [trappedLe, trapLe, hfree]

/-- Settles O9: each load through the rule of bit loads. -/
theorem leBitLoads : Obligations.LeBitLoads := by
  unfold Obligations.LeBitLoads
  refine ⟨fun s c n st w b h hq hb => ?loads, fun s c n w b h hq hb htag hre => ?strict⟩
  case loads =>
    intro d v g r hst
    have hbit : bitOf d b.toNat = (if b.toNat < 32 then d.val.getLsbD b.toNat else d.tag.getLsbD (b.toNat - 32), g) := by
      simp only [bitOf, g]
      split <;> rfl
    exact ⟨retiresTo_bitLoad h hq hb n _ hbit hst rfl, retiresTo_bitLoad h hq hb n _ hbit hst rfl,
      retiresTo_bitLoad h hq hb n _ hbit hst rfl, retiresTo_bitLoad h hq hb n _ hbit hst rfl⟩
  case strict =>
    exact ⟨bitLoad_strict h hq hb htag hre n _ rfl,
      bitLoad_strict h hq hb htag hre n (fun r v t => ⟨r.bit && v, tag2 r.tag t⟩) (by simp),
      bitLoad_strict h hq hb htag hre n (fun r v t => ⟨r.bit || v, tag2 r.tag t⟩) (by simp),
      bitLoad_strict h hq hb htag hre n (fun r v t => ⟨r.bit != v, tag2 r.tag t⟩) (by simp)⟩

end

end Sys2Proof.Machine

/-! ## What an LE instruction stores -/

namespace Sys2Proof.Machine

/-! ### What a store changes -/

/-- Beside the words of the data memory a store changes only Harvest's marks, with the resync that they may start. -/
def StoreFrame (s u : State) : Prop :=
  ∃ p e b ws ls us, u = { s with
    pair := p, edit := e, btn := b, mem := { s.mem with words := ws, lwords := ls, upset := us } } ∧
    p.mstate = s.pair.mstate ∧ p.role = s.pair.role ∧ p.tokenOut = s.pair.tokenOut

protected theorem StoreFrame.refl (s : State) : StoreFrame s s := ⟨_, _, _, _, _, _, rfl, rfl, rfl, rfl⟩

protected theorem StoreFrame.trans {s t u : State} (h : StoreFrame s t) (k : StoreFrame t u) : StoreFrame s u := by
  obtain ⟨p, e, b, ws, ls, us, rfl, hm, hr, ht⟩ := h
  obtain ⟨p2, e2, b2, ws2, ls2, us2, rfl, hm2, hr2, ht2⟩ := k
  exact ⟨p2, e2, b2, ws2, ls2, us2, rfl, hm2.trans hm, hr2.trans hr, ht2.trans ht⟩

theorem StoreFrame.foldl {β : Type} (f : State → β → State) (hf : ∀ a b, StoreFrame a (f a b)) (l : List β) (s : State) :
    StoreFrame s (l.foldl f s) := by
  induction l generalizing s with
  | nil => exact .refl s
  | cons b l ih => exact (hf s b).trans (ih _)

theorem storeFrame_harvestMark (a : Nat) (old : DWord) (s : State) : StoreFrame s (harvestMark a old s) := by
  unfold harvestMark
  dsimp only
  split
  · exact ⟨_, _, _, _, _, _, rfl, rfl, rfl, rfl⟩
  · exact ⟨_, _, _, _, _, _, rfl, rfl, rfl, rfl⟩

theorem storeFrame_putPlain (a : Nat) (mask v : Word) (t : Tag) (s : State) : StoreFrame s (putPlain a mask v t s) := by
  unfold putPlain
  dsimp only
  split
  · obtain ⟨p, e, b, ws, ls, us, hu, hm, hr, ht⟩ := storeFrame_harvestMark a (plainWord s a) s
    rw [hu]
    exact ⟨p, e, b, _, ls, _, rfl, hm, hr, ht⟩
  · split
    · exact ⟨_, _, _, _, _, _, rfl, rfl, rfl, rfl⟩
    · exact .refl s

theorem storeFrame_writeBits (a : Nat) (mask v : Word) (t : Tag) (s : State) : StoreFrame s (writeBits a mask v t s) := by
  unfold writeBits
  split
  · refine .foldl _ (fun u j => ?_) _ _
    split
    · exact storeFrame_putPlain _ _ _ _ _
    · exact .refl u
  · exact storeFrame_putPlain _ _ _ _ _

theorem storeFrame_writeTag (a : Nat) (t : Tag) (s : State) : StoreFrame s (writeTag a t s) := by
  unfold writeTag
  split
  · exact .foldl _ (fun u j => storeFrame_putPlain _ _ _ _ _) _ _
  · exact storeFrame_putPlain _ _ _ _ _

theorem StoreFrame.le {s u : State} (h : StoreFrame s u) : u.le = s.le := by
  obtain ⟨p, e, b, ws, ls, us, rfl, -⟩ := h; rfl

/-! ### A store does not read the logic engine's state -/

/-- The state with another logic engine. -/
def withLe (x : LeSt) (s : State) : State := { s with le := x }

theorem harvestMark_withLe (a : Nat) (old : DWord) (x : LeSt) (s : State) :
    harvestMark a old (withLe x s) = withLe x (harvestMark a old s) := by
  unfold harvestMark
  dsimp only
  rw [apply_ite (withLe x)]
  rfl

theorem putPlain_withLe (a : Nat) (mask v : Word) (t : Tag) (x : LeSt) (s : State) :
    putPlain a mask v t (withLe x s) = withLe x (putPlain a mask v t s) := by
  unfold putPlain
  dsimp only
  rw [show plainWord (withLe x s) a = plainWord s a from rfl, harvestMark_withLe, apply_ite (withLe x), apply_ite (withLe x)]
  rfl

theorem foldl_withLe {β : Type} (x : LeSt) (f : State → β → State) (hf : ∀ s b, f (withLe x s) b = withLe x (f s b))
    (l : List β) (s : State) : l.foldl f (withLe x s) = withLe x (l.foldl f s) := by
  induction l generalizing s with
  | nil => rfl
  | cons b l ih => rw [List.foldl_cons, hf, ih, List.foldl_cons]

theorem writeBits_withLe (a : Nat) (mask v : Word) (t : Tag) (x : LeSt) (s : State) :
    writeBits a mask v t (withLe x s) = withLe x (writeBits a mask v t s) := by
  unfold writeBits
  split
  · refine foldl_withLe x _ (fun u j => ?_) _ _
    split
    · exact putPlain_withLe _ _ _ _ _ _
    · rfl
  · exact putPlain_withLe _ _ _ _ _ _

theorem writeTag_withLe (a : Nat) (t : Tag) (x : LeSt) (s : State) : writeTag a t (withLe x s) = withLe x (writeTag a t s) := by
  unfold writeTag
  split
  · exact foldl_withLe x _ (fun u j => putPlain_withLe _ _ _ _ _ _) _ _
  · exact putPlain_withLe _ _ _ _ _ _

/-- Opening a bundle changes the logic engine only. -/
theorem openB_withLe (s : State) (e : LaneEff) : openB s e = withLe { s.le with bundle := s.le.bundle ++ [e] } s := rfl

theorem writeBits_openB (a : Nat) (mask v : Word) (t : Tag) (s : State) (e : LaneEff) :
    writeBits a mask v t (openB s e) = openB (writeBits a mask v t s) e := by
  rw [openB_withLe, openB_withLe, writeBits_withLe, (storeFrame_writeBits a mask v t s).le]

theorem writeTag_openB (a : Nat) (t : Tag) (s : State) (e : LaneEff) : writeTag a t (openB s e) = openB (writeTag a t s) e := by
  rw [openB_withLe, openB_withLe, writeTag_withLe, (storeFrame_writeTag a t s).le]

/-! ### What a word reads as after a store -/

theorem memOk_lwords {s : State} (h : memOk s = true) : mwf (fun _ => none) s.mem.lwords = true := ((memOk_iff s).mp h).2

theorem memOk_words {s : State} (h : memOk s = true) : mwf (fun _ => goodZero) s.mem.words = true := ((memOk_iff s).mp h).1

/-- The areas of stored words lie apart from the local words of the engine. -/
theorem keptWord_of_inL {a : Nat} (h : inL a = true) : keptWord a = false := by
  simp only [inL, decide_eq_true_eq] at h
  simp [keptWord, qWord, inM, inT]
  omega

/-- A word with storage of its own takes the bits under the mask and the tag, and every other word stands. -/
theorem plainWord_putPlain {s : State} (h : memOk s = true) (a : Nat) (mask v : Word) (t : Tag) (b : Nat) :
    plainWord (putPlain a mask v t s) b =
      if b = a ∧ (keptWord a || inL a) = true then ⟨((plainWord s a).val &&& ~~~mask) ||| (v &&& mask), t⟩
      else plainWord s b := by
  by_cases hk : keptWord a = true
  · by_cases hb : b = a
    · rw [hb, if_pos ⟨rfl, by simp [hk]⟩]
      exact plainWord_putPlain_same hk mask v t (memOk_words h)
    · rw [if_neg (fun hc => hb hc.1)]
      by_cases hkb : keptWord b = true
      · exact plainWord_putPlain_other hb mask v t hkb
      · have himg : (putPlain a mask v t s).img = s.img ∧ (putPlain a mask v t s).mem.lwords = s.mem.lwords ∧
            (putPlain a mask v t s).mem.lgen = s.mem.lgen := by
          obtain ⟨p, e, x, ws, ls, us, hu, -⟩ := storeFrame_harvestMark a (plainWord s a) s
          have hm := harvestMark_mem a (plainWord s a) s
          simp only [putPlain, hk, if_true]
          rw [hm]
          exact ⟨by rw [hu], rfl, rfl⟩
        obtain ⟨hi, hl, hg⟩ := himg
        simp only [plainWord, hkb, hi, hl, hg, Bool.false_eq_true, if_false]
  · rw [Bool.not_eq_true] at hk
    by_cases hl : inL a = true
    · have hput : putPlain a mask v t s = { s with mem := { s.mem with
          lwords := mput (fun _ => none) s.mem.lwords a (some ⟨((plainWord s a).val &&& ~~~mask) ||| (v &&& mask), t⟩)
          upset := mput (fun _ => 0) s.mem.upset a 0 } } := by
        simp only [putPlain, hk, hl, Bool.false_eq_true, if_false, if_true]
      rw [hput]
      by_cases hb : b = a
      · rw [hb, if_pos ⟨rfl, by simp [hl]⟩]
        simp only [plainWord, hk, hl, Bool.false_eq_true, if_false, if_true]
        rw [mget_mput_same _ (memOk_lwords h)]
        rfl
      · rw [if_neg (fun hc => hb hc.1)]
        simp only [plainWord]
        rw [mget_mput_other _ hb]
    · rw [Bool.not_eq_true] at hl
      have hput : putPlain a mask v t s = s := by simp only [putPlain, hk, hl, Bool.false_eq_true, if_false]
      rw [hput, if_neg (by simp [hk, hl])]

theorem memOk_putPlain {s : State} (h : memOk s = true) (a : Nat) (mask v : Word) (t : Tag) :
    memOk (putPlain a mask v t s) = true :=
  ((Keeps.refl false s).putPlain a mask v t).mem h

theorem memOk_writeBits {s : State} (h : memOk s = true) (a : Nat) (mask v : Word) (t : Tag) :
    memOk (writeBits a mask v t s) = true :=
  ((Keeps.refl false s).writeBits a mask v t).mem h

/-- A write to a word that is not packed. -/
theorem plainWord_writeBits {s : State} (h : memOk s = true) {a : Nat} (hp : qPacked a = false) (mask v : Word) (t : Tag)
    (b : Nat) : plainWord (writeBits a mask v t s) b =
      if b = a ∧ (keptWord a || inL a) = true then ⟨((plainWord s a).val &&& ~~~mask) ||| (v &&& mask), t⟩
      else plainWord s b := by
  rw [writeBits, hp]
  exact plainWord_putPlain h a mask v t b

/-- A bit of a packed word is bit 0 of its channel word (R35). -/
theorem writeBits_packed_bit {a j : Nat} (hp : qPacked a = true) (hj : j < 32) (v : Word) (t : Tag) (s : State) :
    writeBits a (1#32 <<< j) v t s = putPlain (packedBase a + j) 1 (if v.getLsbD j then 1 else 0) t s := by
  have hbit : ∀ i < 32, (1#32 <<< j).getLsbD i = decide (i = j) := fun i hi => by
    rw [BitVec.getLsbD_shiftLeft, BitVec.getLsbD_one]
    simp only [hi, decide_true, Bool.true_and]
    by_cases hij : i = j
    · simp [hij]
    · have : ¬ (¬ i < j ∧ i - j = 0) := by omega
      by_cases hlt : i < j
      · simp [hlt, hij]
      · simp [hlt, hij, show i - j ≠ 0 by omega]
  have hfold : ∀ (l : List Nat) (u : State), (∀ i ∈ l, i < 32) → l.Nodup → l.foldl (fun u i => if (1#32 <<< j).getLsbD i then
      putPlain (packedBase a + i) 1 (if v.getLsbD i then 1 else 0) t u else u) u =
      if j ∈ l then putPlain (packedBase a + j) 1 (if v.getLsbD j then 1 else 0) t u else u := by
    intro l
    induction l with
    | nil => exact fun u _ _ => rfl
    | cons i l ih =>
      intro u hl hnd
      rw [List.nodup_cons] at hnd
      rw [List.foldl_cons, ih _ (fun x hx => hl x (List.mem_cons_of_mem _ hx)) hnd.2, hbit i (hl i List.mem_cons_self)]
      by_cases hij : i = j
      · subst hij
        simp [hnd.1]
      · simp [hij, Ne.symm hij]
  rw [writeBits, if_pos hp, hfold _ _ (fun i hi => List.mem_range.mp hi) List.nodup_range, if_pos (List.mem_range.mpr hj)]

/-- The channel words of a packed word have storage of their own. -/
theorem keptWord_packedBase {a j : Nat} (hp : qPacked a = true) (hj : j < 32) : keptWord (packedBase a + j) = true := by
  simp only [qPacked, decide_eq_true_eq] at hp
  simp [keptWord, qWord, packedBase, show ¬ a < 0x2000 by omega]
  omega

/-- A packed word has no storage of its own. -/
theorem not_kept_of_packed {a : Nat} (hp : qPacked a = true) : (keptWord a || inL a) = false := by
  simp only [qPacked, decide_eq_true_eq] at hp
  simp [keptWord, qWord, inM, inT, inL]
  omega

/-- A bit store: the word, or the channel word of a packed word, takes the bit and the tag. -/
theorem plainWord_bitWrite {s : State} (h : memOk s = true) (a : Nat) {j : Nat} (hj : j < 32) (x : Bool) (t : Tag) (b : Nat) :
    plainWord (writeBits a (1#32 <<< j) (if x then 1#32 <<< j else 0) t s) b =
      if b = a ∧ (keptWord b || inL b) = true then
        ⟨((plainWord s b).val &&& ~~~(1#32 <<< j)) ||| (if x then 1#32 <<< j else 0), t⟩
      else if qPacked a = true ∧ b = packedBase a + j then
        ⟨((plainWord s b).val &&& 0xFFFFFFFE) ||| (if x then 1 else 0), t⟩
      else plainWord s b := by
  by_cases hp : qPacked a = true
  · have hself := not_kept_of_packed hp
    have hbit : ∀ x : Bool, ((if x then 1#32 <<< j else 0) : Word).getLsbD j = x := fun x => by
      cases x
      · simp
      · simp [hj]
    rw [writeBits_packed_bit hp hj, plainWord_putPlain h, hbit, keptWord_packedBase hp hj]
    have hno : ¬ (b = a ∧ (keptWord b || inL b) = true) := by
      rintro ⟨rfl, hk⟩
      rw [hself] at hk
      exact Bool.false_ne_true hk
    rw [if_neg hno]
    simp only [hp, Bool.true_or, and_true, true_and]
    by_cases hb : b = packedBase a + j
    · rw [if_pos hb, if_pos hb, hb]
      cases x <;> rfl
    · rw [if_neg hb, if_neg hb]
  · rw [Bool.not_eq_true] at hp
    have hmask : ∀ x : Bool, (if x then 1#32 <<< j else 0) &&& (1#32 <<< j) = if x then 1#32 <<< j else 0 := fun x => by
      cases x
      · exact BitVec.zero_and
      · exact BitVec.and_self
    rw [plainWord_writeBits h hp, hmask]
    by_cases hb : b = a
    · subst hb
      simp [hp]
    · simp [hb, hp]

end Sys2Proof.Machine

/-! ## Bit stores, moves, and the system instructions -/

namespace Sys2Proof.Machine

/-! ### A bundle of one store -/

/-- The lanes `L` are those of `s` with `y` in the lane of the instruction. -/
def LaneTakes (s : State) (c : At) (L : SMap LaneSt) (y : LaneSt) : Prop :=
  ∀ l, mget (fun _ => ({} : LaneSt)) L l = if l = c.lane.toNat then y else lane s l

theorem laneTakes_self (s : State) (c : At) : LaneTakes s c s.le.lanes (lane s c.lane.toNat) := fun l => by
  split
  · next h => rw [h]; rfl
  · rfl

theorem laneTakes_put {c : At} {s : State} (h : aloneIn c s = true) (y : LaneSt) :
    LaneTakes s c (mput (fun _ => {}) s.le.lanes c.lane.toNat y) y := fun l => by
  split
  · next hl => rw [hl]; exact mget_mput_same _ (lanesWf h)
  · next hl => exact mget_mput_other _ hl

/-- An instruction alone in its bundle that stores (`u` is the state with what it stores) and gives its lane `y`. -/
theorem bundleEnds_of {c : At} {s : State} (h : aloneIn c s = true) {e e' : LaneEff} (he : e = e') (ht : e'.traps = [])
    (hv : e'.viols = []) (hf : e'.memFaults = []) (hc : e'.ctrl = none) {ws : List LeWrite} (hws : e'.writes = ws)
    (hsys : ∀ i v, LeWrite.sys i v ∉ ws) {u : State} {L : SMap LaneSt} {y : LaneSt}
    (hw : ∀ k x, ws.foldl (applyWrite k) (openB s x) = openB (withLe { s.le with lanes := L } u) x)
    (hu : StoreFrame s u) (hL : LaneTakes s c L y) :
    ∃ t, (.next (leIssue c e s) : Out) = .next t ∧ bundleEnds s t c y ∧ (∀ a, plainWord t a = plainWord u a) ∧ t.mem = u.mem := by
  subst he hws
  have hret := retire_alone c s e h ht hv hf hc hsys (by rw [hw]; exact running_of (s := s) h)
  rw [hw, advanced_openB] at hret
  refine ⟨_, congrArg _ hret, ⟨rfl, hL, ?_, ?_⟩, fun _ => rfl, rfl⟩
  · obtain ⟨p, x, b, ws, ls, us, rfl, -⟩ := hu
    rfl
  · obtain ⟨p, x, b, ws, ls, us, rfl, hm, hr, hto⟩ := hu
    exact ⟨hm, hr, hto⟩

/-- The write of a word that the LE may write, beside the open bundle. -/
theorem storeWrite_openB {s : State} {w : BitVec 21} (hq : quietWrite s w.toNat = true) {mask : Word} (hmask : mask ≠ 0)
    (v : Word) (t : Tag) (k : Nat) (u : State) (e : LaneEff) :
    (storeWrite s (.mem w.toNat) mask v t).foldl (applyWrite k) (openB u e) = openB (writeBits w.toNat mask v t u) e := by
  have hv : writeViol s w.toNat = [] := List.isEmpty_iff.mp hq
  have hw : (BitVec.ofNat 21 w.toNat).toNat = w.toNat := by simp
  simp only [storeWrite, hv, if_true, List.foldl, applyWrite, hmask, if_false, hw, writeBits_openB]

theorem oneBit_ne_zero {j : Nat} (hj : j < 32) : (1#32 <<< j : Word) ≠ 0 := fun h => by
  have := congrArg (·.getLsbD j) h
  simp [hj] at this

/-! ### Bit stores and triggers (R57, R59, R61) -/

section
variable {c : At} {s : State} {w : BitVec 21} {b : BitVec 6}

/-- A store keeps the logic engine. -/
theorem withLe_writeBits (a : Nat) (mask v : Word) (t : Tag) (s : State) :
    withLe s.le (writeBits a mask v t s) = writeBits a mask v t s := by
  rw [← writeBits_withLe]; rfl

/-- A store that is carried out. -/
theorem bitStore_go (h : aloneIn c s = true) (hq : quietWrite s w.toNat = true) (hb : b.toNat < 32) {st : Bool}
    (hst : st = true → tagClass (lane s c.lane.toNat).rlo.tag = 0) (v : Bool) :
    ∃ t, (.next (leIssue c (bitStore s c st true v w b) s) : Out) = .next t ∧ bundleEnds s t c (lane s c.lane.toNat) ∧
      ∀ a, plainWord t a = plainWord (writeBits w.toNat (1#32 <<< b.toNat) (if v then 1#32 <<< b.toNat else 0)
        (lane s c.lane.toNat).rlo.tag s) a := by
  have hstrict : (st && decide (tagClass (lane s c.lane.toNat).rlo.tag ≠ 0)) = false := by
    cases st
    · rfl
    · simp [hst rfl]
  have hv : writeViol s w.toNat = [] := List.isEmpty_iff.mp hq
  have he : bitStore s c st true v w b = { effNop c with
      stores := [w.toNat], writes := storeWrite s (.mem w.toNat) (1#32 <<< b.toNat) (if v then 1#32 <<< b.toNat else 0)
        (lane s c.lane.toNat).rlo.tag } := by
    rw [bitStore, if_neg (by omega)]
    simp only [hstrict, hv, Bool.not_false, Bool.and_true, if_true, Bool.false_eq_true, if_false, effNop]
  have hsys : ∀ (i : BitVec 6) (x : Word), LeWrite.sys i x ∉ storeWrite s (.mem w.toNat) (1#32 <<< b.toNat)
      (if v then 1#32 <<< b.toNat else 0) (lane s c.lane.toNat).rlo.tag := by
    intro i x
    simp only [storeWrite, hv, if_true, List.mem_singleton, reduceCtorEq, not_false_eq_true]
  obtain ⟨t, ht, hend, hword, -⟩ := bundleEnds_of (L := s.le.lanes) h he rfl rfl rfl rfl rfl hsys (fun k x => by
      rw [storeWrite_openB hq (oneBit_ne_zero hb)]
      exact congrArg (openB · _) (withLe_writeBits _ _ _ _ s).symm)
    (storeFrame_writeBits _ _ _ _ _) (laneTakes_self s c)
  exact ⟨t, ht, hend, hword⟩

/-- A store whose condition does not hold writes nothing. -/
theorem bitStore_skip (h : aloneIn c s = true) (hb : b.toNat < 32) {st : Bool}
    (hst : st = true → tagClass (lane s c.lane.toNat).rlo.tag = 0) (v : Bool) :
    ∃ t, (.next (leIssue c (bitStore s c st false v w b) s) : Out) = .next t ∧ bundleEnds s t c (lane s c.lane.toNat) ∧
      t.mem = s.mem := by
  have hstrict : (st && decide (tagClass (lane s c.lane.toNat).rlo.tag ≠ 0)) = false := by
    cases st
    · rfl
    · simp [hst rfl]
  have he : bitStore s c st false v w b = { effNop c with stores := [w.toNat] } := by
    rw [bitStore, if_neg (by omega)]
    simp only [hstrict, Bool.false_and, Bool.false_eq_true, if_false, effNop]
  obtain ⟨t, ht, hend, -, hmem⟩ := bundleEnds_of (ws := []) (L := s.le.lanes) h he rfl rfl rfl rfl rfl (by simp)
    (fun _ _ => rfl) (.refl s) (laneTakes_self s c)
  exact ⟨t, ht, hend, hmem⟩

/-- SET and RST write only where RLO is 1. -/
theorem bitStore_if (h : aloneIn c s = true) (hq : quietWrite s w.toNat = true) (hb : b.toNat < 32) {st : Bool}
    (hst : st = true → tagClass (lane s c.lane.toNat).rlo.tag = 0) (v : Bool) :
    let r := (lane s c.lane.toNat).rlo
    ∃ t, (.next (leIssue c (bitStore s c st r.bit v w b) s) : Out) = .next t ∧ bundleEnds s t c (lane s c.lane.toNat) ∧
      (r.bit = true → ∀ a, plainWord t a =
        plainWord (writeBits w.toNat (1#32 <<< b.toNat) (if v then 1#32 <<< b.toNat else 0) r.tag s) a) ∧
      (r.bit = false → t.mem = s.mem) := by
  intro r
  cases hr : r.bit
  case true =>
    obtain ⟨t, ht, hend, hword⟩ := bitStore_go h hq hb hst v
    exact ⟨t, ht, hend, fun _ => hword, nofun⟩
  case false =>
    obtain ⟨t, ht, hend, hmem⟩ := bitStore_skip (w := w) h hb hst v
    exact ⟨t, ht, hend, nofun, fun _ => hmem⟩

/-- A trigger that is carried out: the history bit takes the input, and RLO the trigger's result. -/
theorem bitTrigger_go (h : aloneIn c s = true) (hq : quietWrite s w.toNat = true) (hr : quietRead s w.toNat = true)
    (hb : b.toNat < 32) {st : Bool} (hst : st = true → tagClass (lane s c.lane.toNat).rlo.tag = 0) (rising : Bool) :
    let x := lane s c.lane.toNat
    let d := readWord s w.toNat
    ∃ t, (.next (leIssue c (bitTrigger s c st rising w b) s) : Out) = .next t ∧
      (∀ a, plainWord t a = plainWord (writeBits w.toNat (1#32 <<< b.toNat) (if x.rlo.bit then 1#32 <<< b.toNat else 0)
        x.rlo.tag s) a) ∧
      bundleEnds s t c { x with rlo :=
        ⟨if rising then x.rlo.bit && !d.val.getLsbD b.toNat else !x.rlo.bit && d.val.getLsbD b.toNat, tag2 x.rlo.tag d.tag⟩ } := by
  intro x d
  obtain ⟨hread, hviol, hfault⟩ := leRead_quiet hr
  have hstrict : (st && decide (tagClass x.rlo.tag ≠ 0)) = false := by
    cases st
    · rfl
    · simp [x, hst rfl]
  have hv : writeViol s w.toNat = [] := List.isEmpty_iff.mp hq
  generalize hy : (if rising then x.rlo.bit && !d.val.getLsbD b.toNat else !x.rlo.bit && d.val.getLsbD b.toNat) = y
  have he : bitTrigger s c st rising w b = { effNop c with
      reads := [w.toNat], stores := [w.toNat]
      writes := storeWrite s (.mem w.toNat) (1#32 <<< b.toNat) (if x.rlo.bit then 1#32 <<< b.toNat else 0) x.rlo.tag ++
        [.rlo c.lane ⟨y, tag2 x.rlo.tag d.tag⟩] } := by
    rw [bitTrigger, if_neg (by omega)]
    simp only [hread, hviol, hfault, hv, x, d, hstrict, Bool.false_eq_true, if_false, List.append_nil, effNop] at hy ⊢
    rw [hy]
  have hsys : ∀ (i : BitVec 6) (z : Word), LeWrite.sys i z ∉ storeWrite s (.mem w.toNat) (1#32 <<< b.toNat)
      (if x.rlo.bit then 1#32 <<< b.toNat else 0) x.rlo.tag ++ [.rlo c.lane ⟨y, tag2 x.rlo.tag d.tag⟩] := by
    intro i z
    simp only [storeWrite, hv, if_true, List.mem_append, List.mem_singleton, reduceCtorEq, or_self, not_false_eq_true]
  obtain ⟨t, ht, hend, hword, -⟩ := bundleEnds_of h he rfl rfl rfl rfl rfl hsys (fun k z => by
      rw [List.foldl_append, storeWrite_openB hq (oneBit_ne_zero hb)]
      have hle := (storeFrame_writeBits w.toNat (1#32 <<< b.toNat) (if x.rlo.bit then 1#32 <<< b.toNat else 0) x.rlo.tag s).le
      simp only [List.foldl, applyWrite, lane_openB, lanePut_openB]
      simp only [lanePut, lane, hle]
      rfl)
    (storeFrame_writeBits _ _ _ _ _) (laneTakes_put h _)
  exact ⟨t, ht, hword, hend⟩

/-- A strict store of a tag that is not of class good writes nothing and captures STRICT. -/
theorem bitStore_strict (h : aloneIn c s = true) (hb : b.toNat < 32) (htag : tagClass (lane s c.lane.toNat).rlo.tag ≠ 0)
    (hre : fcuReact s 477 ≠ 2) (doit v : Bool) :
    ∃ t, (.next (leIssue c (bitStore s c true doit v w b) s) : Out) = .next t ∧ t.mem = s.mem ∧ t.le.lanes = s.le.lanes ∧
      t.le.pc = s.le.pc + 1 ∧ t.le.trapValid = true ∧ (s.le.trapValid = false → t.le.trapReason = 1) := by
  have he : bitStore s c true doit v w b = { effNop c with stores := [w.toNat], traps := [1] } := by
    rw [bitStore, if_neg (by omega)]
    simp only [Bool.true_and, htag, ne_eq, not_false_eq_true, decide_true, Bool.not_true, Bool.and_false, Bool.false_eq_true,
      if_false, if_true, effNop]
  rw [he]
  obtain ⟨hmem, n, k, hle⟩ := leIssue_contained_nothing (e := { effNop c with stores := [w.toNat], traps := [1] }) h
    rfl rfl rfl rfl rfl rfl rfl hre
  refine ⟨_, rfl, hmem, ?_, ?_, ?_, fun hfree => ?_⟩
  · rw [hle]; rfl
  · rw [hle]; rfl
  · rw [hle]; rfl
  · rw [hle]; simp [trappedLe, trapLe, hfree]

/-- A strict trigger of such a tag leaves RLO 0 with tag GOOD. -/
theorem bitTrigger_strict (h : aloneIn c s = true) (hr : quietRead s w.toNat = true) (hb : b.toNat < 32)
    (htag : tagClass (lane s c.lane.toNat).rlo.tag ≠ 0) (hre : fcuReact s 477 ≠ 2) (rising : Bool) :
    ∃ t, (.next (leIssue c (bitTrigger s c true rising w b) s) : Out) = .next t ∧ t.mem = s.mem ∧
      lane t c.lane.toNat = { lane s c.lane.toNat with rlo := ⟨false, 0⟩ } ∧ t.le.pc = s.le.pc + 1 ∧
      t.le.trapValid = true ∧ (s.le.trapValid = false → t.le.trapReason = 1) := by
  obtain ⟨hread, hviol, hfault⟩ := leRead_quiet hr
  have he : bitTrigger s c true rising w b = { effNop c with
      reads := [w.toNat], stores := [w.toNat], traps := [1], writes := [.rlo c.lane ⟨false, 0⟩] } := by
    rw [bitTrigger, if_neg (by omega)]
    simp only [hviol, hfault, Bool.true_and, htag, ne_eq, not_false_eq_true, decide_true, if_true, List.append_nil, effNop]
    rfl
  rw [he]
  obtain ⟨hmem, n, k, hle⟩ := leIssue_contained_rlo (e := { effNop c with
    reads := [w.toNat], stores := [w.toNat], traps := [1], writes := [.rlo c.lane ⟨false, 0⟩] }) h rfl rfl rfl rfl rfl rfl rfl hre
  refine ⟨_, rfl, hmem, ?_, ?_, ?_, fun hfree => ?_⟩
  · rw [lane, hle]; exact mget_mput_same _ (lanesWf h)
  · rw [hle]; rfl
  · rw [hle]; rfl
  · rw [hle]; simp [trappedLe, trapLe, hfree]

end

/-- Settles O10: each store and trigger through the rule of its effect, and what the write of one bit leaves. -/
theorem leBitStoresAndTriggers : Obligations.LeBitStoresAndTriggers := by
  unfold Obligations.LeBitStoresAndTriggers
  intro s c w b h hm hq hb x r wrote
  have hwrote : ∀ {t : State} {v : Bool}, (∀ a, plainWord t a = plainWord (writeBits w.toNat (1#32 <<< b.toNat)
      (if v then 1#32 <<< b.toNat else 0) r.tag s) a) → wrote t v := fun hword a => by
    rw [hword, plainWord_bitWrite hm _ hb]
  refine ⟨fun st hst => ⟨fun n => ?st, ?set, ?rst, fun hr => ⟨?trgr, ?trgf⟩⟩, fun htag hre => ⟨fun n i hi => ?strict, fun hr i hi => ?strictTrigger⟩⟩
  case st =>
    obtain ⟨t, ht, hend, hword⟩ := bitStore_go h hq hb hst (r.bit != n)
    exact ⟨t, ht, hend, hwrote hword⟩
  case set =>
    obtain ⟨t, ht, hend, hgo, hskip⟩ := bitStore_if h hq hb hst true
    exact ⟨t, ht, hend, fun hr => hwrote (hgo hr), hskip⟩
  case rst =>
    obtain ⟨t, ht, hend, hgo, hskip⟩ := bitStore_if h hq hb hst false
    exact ⟨t, ht, hend, fun hr => hwrote (hgo hr), hskip⟩
  case trgr =>
    obtain ⟨t, ht, hword, hend⟩ := bitTrigger_go h hq hr hb hst true
    exact ⟨t, ht, hwrote hword, hend⟩
  case trgf =>
    obtain ⟨t, ht, hword, hend⟩ := bitTrigger_go h hq hr hb hst false
    exact ⟨t, ht, hwrote hword, hend⟩
  case strict =>
    simp only [List.mem_cons, List.not_mem_nil, or_false] at hi
    rcases hi with rfl | rfl | rfl <;> exact bitStore_strict h hb htag hre _ _
  case strictTrigger =>
    simp only [List.mem_cons, List.not_mem_nil, or_false] at hi
    rcases hi with rfl | rfl <;> exact bitTrigger_strict h hr hb htag hre _

end Sys2Proof.Machine

/-! ## What the shared operations leave unchanged -/

namespace Sys2Proof.Machine

/-! ### Events, notices and records of the store -/

/-- Only the event queues, the Bittern log and the NV controller may change. -/
def Reports (s t : State) : Prop :=
  ∃ b n e i, t = { s with btn := b, nv := n, ev := e, img := { s.img with fired := i } }

protected theorem Reports.refl (s : State) : Reports s s := ⟨_, _, _, _, rfl⟩

protected theorem Reports.trans {s t u : State} (h : Reports s t) (k : Reports t u) : Reports s u := by
  obtain ⟨b, n, e, i, rfl⟩ := h
  obtain ⟨b2, n2, e2, i2, rfl⟩ := k
  exact ⟨b2, n2, e2, i2, rfl⟩

theorem reports_fire (src st : Nat) (s : State) : Reports s (fire src st s) := by
  unfold fire
  exact ⟨_, _, _, _, rfl⟩

theorem reports_fireIf (c : Bool) (src : Nat) (s : State) : Reports s (fireIf c src s) := by
  unfold fireIf
  split
  · exact reports_fire _ _ s
  · exact .refl s

theorem reports_nvEnqueue (r : NvReq) (s : State) : Reports s (nvEnqueue r s) := by
  unfold nvEnqueue
  dsimp only
  split
  · exact .refl s
  · split
    · exact ⟨_, _, _, _, rfl⟩
    · split
      · exact ⟨_, _, _, _, rfl⟩
      · split
        · exact .refl s
        · exact ⟨_, _, _, _, rfl⟩

theorem reports_ringPut (n : Notice) (s : State) : Reports s (ringPut n s) := by
  unfold ringPut
  refine .trans ?_ (reports_fireIf _ _ _)
  split
  · exact .trans ⟨_, _, _, _, rfl⟩ (reports_nvEnqueue _ _)
  · exact ⟨_, _, _, _, rfl⟩

theorem reports_notice (kind src reason : Nat) (d : Word) (s : State) : Reports s (notice kind src reason d s) := by
  unfold notice
  dsimp only
  split
  · exact reports_ringPut _ s
  · exact ⟨_, _, _, _, rfl⟩

theorem reports_noticeIf (c : Bool) (kind src reason : Nat) (d : Word) (s : State) :
    Reports s (noticeIf c kind src reason d s) := by
  unfold noticeIf
  split
  · exact reports_notice _ _ _ _ s
  · exact .refl s

theorem reports_gradNotice (c : Bool) (reason : Nat) (d : Word) (s : State) : Reports s (gradNotice c reason d s) := by
  unfold gradNotice
  split
  · exact (reports_notice _ _ _ _ s).trans (reports_fire _ _ _)
  · exact .refl s

@[simp] theorem fireIf_edit (c : Bool) (src : Nat) (s : State) : (fireIf c src s).edit = s.edit := by
  obtain ⟨_, _, _, _, h⟩ := reports_fireIf c src s; rw [h]
@[simp] theorem fireIf_mon (c : Bool) (src : Nat) (s : State) : (fireIf c src s).mon = s.mon := by
  obtain ⟨_, _, _, _, h⟩ := reports_fireIf c src s; rw [h]
@[simp] theorem fireIf_rfx (c : Bool) (src : Nat) (s : State) : (fireIf c src s).rfx = s.rfx := by
  obtain ⟨_, _, _, _, h⟩ := reports_fireIf c src s; rw [h]
@[simp] theorem fireIf_chan (c : Bool) (src : Nat) (s : State) : (fireIf c src s).chan = s.chan := by
  obtain ⟨_, _, _, _, h⟩ := reports_fireIf c src s; rw [h]
@[simp] theorem fireIf_grp (c : Bool) (src : Nat) (s : State) : (fireIf c src s).grp = s.grp := by
  obtain ⟨_, _, _, _, h⟩ := reports_fireIf c src s; rw [h]
@[simp] theorem fireIf_slc (c : Bool) (src : Nat) (s : State) : (fireIf c src s).slc = s.slc := by
  obtain ⟨_, _, _, _, h⟩ := reports_fireIf c src s; rw [h]
@[simp] theorem fireIf_bus (c : Bool) (src : Nat) (s : State) : (fireIf c src s).bus = s.bus := by
  obtain ⟨_, _, _, _, h⟩ := reports_fireIf c src s; rw [h]
@[simp] theorem fireIf_node (c : Bool) (src : Nat) (s : State) : (fireIf c src s).node = s.node := by
  obtain ⟨_, _, _, _, h⟩ := reports_fireIf c src s; rw [h]
@[simp] theorem fireIf_cp (c : Bool) (src : Nat) (s : State) : (fireIf c src s).cp = s.cp := by
  obtain ⟨_, _, _, _, h⟩ := reports_fireIf c src s; rw [h]
@[simp] theorem fireIf_fcu (c : Bool) (src : Nat) (s : State) : (fireIf c src s).fcu = s.fcu := by
  obtain ⟨_, _, _, _, h⟩ := reports_fireIf c src s; rw [h]
@[simp] theorem fireIf_prot (c : Bool) (src : Nat) (s : State) : (fireIf c src s).prot = s.prot := by
  obtain ⟨_, _, _, _, h⟩ := reports_fireIf c src s; rw [h]
@[simp] theorem fireIf_wd (c : Bool) (src : Nat) (s : State) : (fireIf c src s).wd = s.wd := by
  obtain ⟨_, _, _, _, h⟩ := reports_fireIf c src s; rw [h]
@[simp] theorem fireIf_upd (c : Bool) (src : Nat) (s : State) : (fireIf c src s).upd = s.upd := by
  obtain ⟨_, _, _, _, h⟩ := reports_fireIf c src s; rw [h]
@[simp] theorem fireIf_grd (c : Bool) (src : Nat) (s : State) : (fireIf c src s).grd = s.grd := by
  obtain ⟨_, _, _, _, h⟩ := reports_fireIf c src s; rw [h]
@[simp] theorem fireIf_pnl (c : Bool) (src : Nat) (s : State) : (fireIf c src s).pnl = s.pnl := by
  obtain ⟨_, _, _, _, h⟩ := reports_fireIf c src s; rw [h]

@[simp] theorem notice_edit (kind src reason : Nat) (d : Word) (s : State) : (notice kind src reason d s).edit = s.edit := by
  obtain ⟨_, _, _, _, h⟩ := reports_notice kind src reason d s; rw [h]
@[simp] theorem notice_mon (kind src reason : Nat) (d : Word) (s : State) : (notice kind src reason d s).mon = s.mon := by
  obtain ⟨_, _, _, _, h⟩ := reports_notice kind src reason d s; rw [h]
@[simp] theorem notice_rfx (kind src reason : Nat) (d : Word) (s : State) : (notice kind src reason d s).rfx = s.rfx := by
  obtain ⟨_, _, _, _, h⟩ := reports_notice kind src reason d s; rw [h]
@[simp] theorem notice_chan (kind src reason : Nat) (d : Word) (s : State) : (notice kind src reason d s).chan = s.chan := by
  obtain ⟨_, _, _, _, h⟩ := reports_notice kind src reason d s; rw [h]
@[simp] theorem notice_grp (kind src reason : Nat) (d : Word) (s : State) : (notice kind src reason d s).grp = s.grp := by
  obtain ⟨_, _, _, _, h⟩ := reports_notice kind src reason d s; rw [h]
@[simp] theorem notice_slc (kind src reason : Nat) (d : Word) (s : State) : (notice kind src reason d s).slc = s.slc := by
  obtain ⟨_, _, _, _, h⟩ := reports_notice kind src reason d s; rw [h]
@[simp] theorem notice_bus (kind src reason : Nat) (d : Word) (s : State) : (notice kind src reason d s).bus = s.bus := by
  obtain ⟨_, _, _, _, h⟩ := reports_notice kind src reason d s; rw [h]
@[simp] theorem notice_node (kind src reason : Nat) (d : Word) (s : State) : (notice kind src reason d s).node = s.node := by
  obtain ⟨_, _, _, _, h⟩ := reports_notice kind src reason d s; rw [h]
@[simp] theorem notice_cp (kind src reason : Nat) (d : Word) (s : State) : (notice kind src reason d s).cp = s.cp := by
  obtain ⟨_, _, _, _, h⟩ := reports_notice kind src reason d s; rw [h]
@[simp] theorem notice_fcu (kind src reason : Nat) (d : Word) (s : State) : (notice kind src reason d s).fcu = s.fcu := by
  obtain ⟨_, _, _, _, h⟩ := reports_notice kind src reason d s; rw [h]
@[simp] theorem notice_prot (kind src reason : Nat) (d : Word) (s : State) : (notice kind src reason d s).prot = s.prot := by
  obtain ⟨_, _, _, _, h⟩ := reports_notice kind src reason d s; rw [h]
@[simp] theorem notice_wd (kind src reason : Nat) (d : Word) (s : State) : (notice kind src reason d s).wd = s.wd := by
  obtain ⟨_, _, _, _, h⟩ := reports_notice kind src reason d s; rw [h]
@[simp] theorem notice_upd (kind src reason : Nat) (d : Word) (s : State) : (notice kind src reason d s).upd = s.upd := by
  obtain ⟨_, _, _, _, h⟩ := reports_notice kind src reason d s; rw [h]
@[simp] theorem notice_grd (kind src reason : Nat) (d : Word) (s : State) : (notice kind src reason d s).grd = s.grd := by
  obtain ⟨_, _, _, _, h⟩ := reports_notice kind src reason d s; rw [h]
@[simp] theorem notice_pnl (kind src reason : Nat) (d : Word) (s : State) : (notice kind src reason d s).pnl = s.pnl := by
  obtain ⟨_, _, _, _, h⟩ := reports_notice kind src reason d s; rw [h]

@[simp] theorem noticeIf_edit (c : Bool) (kind src reason : Nat) (d : Word) (s : State) : (noticeIf c kind src reason d s).edit = s.edit := by
  obtain ⟨_, _, _, _, h⟩ := reports_noticeIf c kind src reason d s; rw [h]
@[simp] theorem noticeIf_mon (c : Bool) (kind src reason : Nat) (d : Word) (s : State) : (noticeIf c kind src reason d s).mon = s.mon := by
  obtain ⟨_, _, _, _, h⟩ := reports_noticeIf c kind src reason d s; rw [h]
@[simp] theorem noticeIf_rfx (c : Bool) (kind src reason : Nat) (d : Word) (s : State) : (noticeIf c kind src reason d s).rfx = s.rfx := by
  obtain ⟨_, _, _, _, h⟩ := reports_noticeIf c kind src reason d s; rw [h]
@[simp] theorem noticeIf_chan (c : Bool) (kind src reason : Nat) (d : Word) (s : State) : (noticeIf c kind src reason d s).chan = s.chan := by
  obtain ⟨_, _, _, _, h⟩ := reports_noticeIf c kind src reason d s; rw [h]
@[simp] theorem noticeIf_grp (c : Bool) (kind src reason : Nat) (d : Word) (s : State) : (noticeIf c kind src reason d s).grp = s.grp := by
  obtain ⟨_, _, _, _, h⟩ := reports_noticeIf c kind src reason d s; rw [h]
@[simp] theorem noticeIf_slc (c : Bool) (kind src reason : Nat) (d : Word) (s : State) : (noticeIf c kind src reason d s).slc = s.slc := by
  obtain ⟨_, _, _, _, h⟩ := reports_noticeIf c kind src reason d s; rw [h]
@[simp] theorem noticeIf_bus (c : Bool) (kind src reason : Nat) (d : Word) (s : State) : (noticeIf c kind src reason d s).bus = s.bus := by
  obtain ⟨_, _, _, _, h⟩ := reports_noticeIf c kind src reason d s; rw [h]
@[simp] theorem noticeIf_node (c : Bool) (kind src reason : Nat) (d : Word) (s : State) : (noticeIf c kind src reason d s).node = s.node := by
  obtain ⟨_, _, _, _, h⟩ := reports_noticeIf c kind src reason d s; rw [h]
@[simp] theorem noticeIf_cp (c : Bool) (kind src reason : Nat) (d : Word) (s : State) : (noticeIf c kind src reason d s).cp = s.cp := by
  obtain ⟨_, _, _, _, h⟩ := reports_noticeIf c kind src reason d s; rw [h]
@[simp] theorem noticeIf_fcu (c : Bool) (kind src reason : Nat) (d : Word) (s : State) : (noticeIf c kind src reason d s).fcu = s.fcu := by
  obtain ⟨_, _, _, _, h⟩ := reports_noticeIf c kind src reason d s; rw [h]
@[simp] theorem noticeIf_prot (c : Bool) (kind src reason : Nat) (d : Word) (s : State) : (noticeIf c kind src reason d s).prot = s.prot := by
  obtain ⟨_, _, _, _, h⟩ := reports_noticeIf c kind src reason d s; rw [h]
@[simp] theorem noticeIf_wd (c : Bool) (kind src reason : Nat) (d : Word) (s : State) : (noticeIf c kind src reason d s).wd = s.wd := by
  obtain ⟨_, _, _, _, h⟩ := reports_noticeIf c kind src reason d s; rw [h]
@[simp] theorem noticeIf_upd (c : Bool) (kind src reason : Nat) (d : Word) (s : State) : (noticeIf c kind src reason d s).upd = s.upd := by
  obtain ⟨_, _, _, _, h⟩ := reports_noticeIf c kind src reason d s; rw [h]
@[simp] theorem noticeIf_grd (c : Bool) (kind src reason : Nat) (d : Word) (s : State) : (noticeIf c kind src reason d s).grd = s.grd := by
  obtain ⟨_, _, _, _, h⟩ := reports_noticeIf c kind src reason d s; rw [h]
@[simp] theorem noticeIf_pnl (c : Bool) (kind src reason : Nat) (d : Word) (s : State) : (noticeIf c kind src reason d s).pnl = s.pnl := by
  obtain ⟨_, _, _, _, h⟩ := reports_noticeIf c kind src reason d s; rw [h]

@[simp] theorem gradNotice_pending (c : Bool) (reason : Nat) (d : Word) (s : State) : (gradNotice c reason d s).pending = s.pending := by
  obtain ⟨_, _, _, _, h⟩ := reports_gradNotice c reason d s; rw [h]
@[simp] theorem gradNotice_fixed (c : Bool) (reason : Nat) (d : Word) (s : State) : (gradNotice c reason d s).fixed = s.fixed := by
  obtain ⟨_, _, _, _, h⟩ := reports_gradNotice c reason d s; rw [h]
@[simp] theorem gradNotice_regs (c : Bool) (reason : Nat) (d : Word) (s : State) : (gradNotice c reason d s).regs = s.regs := by
  obtain ⟨_, _, _, _, h⟩ := reports_gradNotice c reason d s; rw [h]
@[simp] theorem gradNotice_le (c : Bool) (reason : Nat) (d : Word) (s : State) : (gradNotice c reason d s).le = s.le := by
  obtain ⟨_, _, _, _, h⟩ := reports_gradNotice c reason d s; rw [h]
@[simp] theorem gradNotice_mem (c : Bool) (reason : Nat) (d : Word) (s : State) : (gradNotice c reason d s).mem = s.mem := by
  obtain ⟨_, _, _, _, h⟩ := reports_gradNotice c reason d s; rw [h]
@[simp] theorem gradNotice_tick (c : Bool) (reason : Nat) (d : Word) (s : State) : (gradNotice c reason d s).tick = s.tick := by
  obtain ⟨_, _, _, _, h⟩ := reports_gradNotice c reason d s; rw [h]
@[simp] theorem gradNotice_time (c : Bool) (reason : Nat) (d : Word) (s : State) : (gradNotice c reason d s).time = s.time := by
  obtain ⟨_, _, _, _, h⟩ := reports_gradNotice c reason d s; rw [h]
@[simp] theorem gradNotice_sys (c : Bool) (reason : Nat) (d : Word) (s : State) : (gradNotice c reason d s).sys = s.sys := by
  obtain ⟨_, _, _, _, h⟩ := reports_gradNotice c reason d s; rw [h]
@[simp] theorem gradNotice_edit (c : Bool) (reason : Nat) (d : Word) (s : State) : (gradNotice c reason d s).edit = s.edit := by
  obtain ⟨_, _, _, _, h⟩ := reports_gradNotice c reason d s; rw [h]
@[simp] theorem gradNotice_mon (c : Bool) (reason : Nat) (d : Word) (s : State) : (gradNotice c reason d s).mon = s.mon := by
  obtain ⟨_, _, _, _, h⟩ := reports_gradNotice c reason d s; rw [h]
@[simp] theorem gradNotice_rfx (c : Bool) (reason : Nat) (d : Word) (s : State) : (gradNotice c reason d s).rfx = s.rfx := by
  obtain ⟨_, _, _, _, h⟩ := reports_gradNotice c reason d s; rw [h]
@[simp] theorem gradNotice_chan (c : Bool) (reason : Nat) (d : Word) (s : State) : (gradNotice c reason d s).chan = s.chan := by
  obtain ⟨_, _, _, _, h⟩ := reports_gradNotice c reason d s; rw [h]
@[simp] theorem gradNotice_grp (c : Bool) (reason : Nat) (d : Word) (s : State) : (gradNotice c reason d s).grp = s.grp := by
  obtain ⟨_, _, _, _, h⟩ := reports_gradNotice c reason d s; rw [h]
@[simp] theorem gradNotice_slc (c : Bool) (reason : Nat) (d : Word) (s : State) : (gradNotice c reason d s).slc = s.slc := by
  obtain ⟨_, _, _, _, h⟩ := reports_gradNotice c reason d s; rw [h]
@[simp] theorem gradNotice_bus (c : Bool) (reason : Nat) (d : Word) (s : State) : (gradNotice c reason d s).bus = s.bus := by
  obtain ⟨_, _, _, _, h⟩ := reports_gradNotice c reason d s; rw [h]
@[simp] theorem gradNotice_node (c : Bool) (reason : Nat) (d : Word) (s : State) : (gradNotice c reason d s).node = s.node := by
  obtain ⟨_, _, _, _, h⟩ := reports_gradNotice c reason d s; rw [h]
@[simp] theorem gradNotice_cp (c : Bool) (reason : Nat) (d : Word) (s : State) : (gradNotice c reason d s).cp = s.cp := by
  obtain ⟨_, _, _, _, h⟩ := reports_gradNotice c reason d s; rw [h]
@[simp] theorem gradNotice_fcu (c : Bool) (reason : Nat) (d : Word) (s : State) : (gradNotice c reason d s).fcu = s.fcu := by
  obtain ⟨_, _, _, _, h⟩ := reports_gradNotice c reason d s; rw [h]
@[simp] theorem gradNotice_prot (c : Bool) (reason : Nat) (d : Word) (s : State) : (gradNotice c reason d s).prot = s.prot := by
  obtain ⟨_, _, _, _, h⟩ := reports_gradNotice c reason d s; rw [h]
@[simp] theorem gradNotice_wd (c : Bool) (reason : Nat) (d : Word) (s : State) : (gradNotice c reason d s).wd = s.wd := by
  obtain ⟨_, _, _, _, h⟩ := reports_gradNotice c reason d s; rw [h]
@[simp] theorem gradNotice_upd (c : Bool) (reason : Nat) (d : Word) (s : State) : (gradNotice c reason d s).upd = s.upd := by
  obtain ⟨_, _, _, _, h⟩ := reports_gradNotice c reason d s; rw [h]
@[simp] theorem gradNotice_grd (c : Bool) (reason : Nat) (d : Word) (s : State) : (gradNotice c reason d s).grd = s.grd := by
  obtain ⟨_, _, _, _, h⟩ := reports_gradNotice c reason d s; rw [h]
@[simp] theorem gradNotice_pnl (c : Bool) (reason : Nat) (d : Word) (s : State) : (gradNotice c reason d s).pnl = s.pnl := by
  obtain ⟨_, _, _, _, h⟩ := reports_gradNotice c reason d s; rw [h]

/-! ### The pass of the reflex unit and the output commands -/

/-- What the pass may change. -/
def Settles (s t : State) : Prop :=
  ∃ r c b n e i x, t = { s with
    rfx := r, chan := c, btn := b, nv := n, ev := e, img := { s.img with fired := i }, pair := { s.pair with curShown := x } }

protected theorem Settles.refl (s : State) : Settles s s := ⟨_, _, _, _, _, _, _, rfl⟩

protected theorem Settles.trans {s t u : State} (h : Settles s t) (k : Settles t u) : Settles s u := by
  obtain ⟨r, c, b, n, e, i, x, rfl⟩ := h
  obtain ⟨r2, c2, b2, n2, e2, i2, x2, rfl⟩ := k
  exact ⟨r2, c2, b2, n2, e2, i2, x2, rfl⟩

theorem Reports.settles {s t : State} (h : Reports s t) : Settles s t := by
  obtain ⟨b, n, e, i, rfl⟩ := h
  exact ⟨_, _, b, n, e, i, _, rfl⟩

theorem Settles.ite {s a b : State} {p : Prop} [Decidable p] (ha : Settles s a) (hb : Settles s b) :
    Settles s (if p then a else b) := by
  split
  exacts [ha, hb]

theorem Settles.foldl {β : Type} (f : State → β → State) (hf : ∀ a b, Settles a (f a b)) (l : List β) (s : State) :
    Settles s (l.foldl f s) := by
  induction l generalizing s with
  | nil => exact .refl s
  | cons b l ih => exact (hf s b).trans (ih _)

theorem settles_chPut (s : State) (n : Nat) (c : ChanSt) : Settles s (chPut s n c) :=
  ⟨s.rfx, (chPut s n c).chan, s.btn, s.nv, s.ev, s.img.fired, s.pair.curShown, rfl⟩

theorem settles_rfxReport (s : State) (e : Nat) : Settles s (rfxReport s e) := by
  refine .trans (t := fireIf _ _ _) (.trans ⟨_, _, _, _, _, _, _, rfl⟩ (reports_fireIf _ _ _).settles) (reports_noticeIf _ _ _ _ _ _).settles

theorem settles_rfxEval (s : State) : Settles s (rfxEval s) :=
  .trans ⟨_, _, _, _, _, _, _, rfl⟩ (.foldl _ settles_rfxReport _ _)

theorem settles_chEdge (n : Nat) (rising : Bool) (ts : Nat) (s : State) : Settles s (chEdge n rising ts s) :=
  .ite ((settles_chPut _ _ _).trans (reports_fire _ _ _).settles) (settles_chPut _ _ _)

theorem settles_driveCh (s : State) (n : Nat) (v : Bool) : Settles s (driveCh s n v) := by
  unfold driveCh
  dsimp only
  have h2 : ∀ c b src, Settles s (fireIf b src (chPut s n c)) := fun c b src =>
    (settles_chPut _ _ _).trans (reports_fireIf _ _ _).settles
  split
  · exact (h2 _ _ _).trans (settles_chEdge _ _ _ _)
  · exact h2 _ _ _

theorem settles_driveAll (s : State) : Settles s (driveAll s) := by
  refine .foldl _ (fun a n => ?_) _ _
  dsimp only
  have hb : ∀ c, Settles a (if inhHeld s (standing s 3) n = (ch s n).held then a else chPut a n c) := fun c => by
    split
    · exact .refl a
    · exact settles_chPut _ _ _
  split
  · exact hb _
  · exact (hb _).trans (settles_driveCh _ _ _)

theorem settles_currentReport (s : State) : Settles s (currentReport s) := by
  unfold currentReport
  split
  · exact .refl s
  · exact .trans (t := { s with pair := { s.pair with curShown := pairCurrent s } }) ⟨_, _, _, _, _, _, _, rfl⟩
      (reports_fire _ _ _).settles

theorem settles_settle (s : State) : Settles s (settle s) :=
  (settles_rfxEval s).trans ((settles_driveAll _).trans (settles_currentReport _))

@[simp] theorem settle_edit (s : State) : (settle s).edit = s.edit := by
  obtain ⟨_, _, _, _, _, _, _, h⟩ := settles_settle s; rw [h]
@[simp] theorem settle_mon (s : State) : (settle s).mon = s.mon := by
  obtain ⟨_, _, _, _, _, _, _, h⟩ := settles_settle s; rw [h]
@[simp] theorem settle_grp (s : State) : (settle s).grp = s.grp := by
  obtain ⟨_, _, _, _, _, _, _, h⟩ := settles_settle s; rw [h]
@[simp] theorem settle_slc (s : State) : (settle s).slc = s.slc := by
  obtain ⟨_, _, _, _, _, _, _, h⟩ := settles_settle s; rw [h]
@[simp] theorem settle_bus (s : State) : (settle s).bus = s.bus := by
  obtain ⟨_, _, _, _, _, _, _, h⟩ := settles_settle s; rw [h]
@[simp] theorem settle_node (s : State) : (settle s).node = s.node := by
  obtain ⟨_, _, _, _, _, _, _, h⟩ := settles_settle s; rw [h]
@[simp] theorem settle_cp (s : State) : (settle s).cp = s.cp := by
  obtain ⟨_, _, _, _, _, _, _, h⟩ := settles_settle s; rw [h]
@[simp] theorem settle_fcu (s : State) : (settle s).fcu = s.fcu := by
  obtain ⟨_, _, _, _, _, _, _, h⟩ := settles_settle s; rw [h]
@[simp] theorem settle_prot (s : State) : (settle s).prot = s.prot := by
  obtain ⟨_, _, _, _, _, _, _, h⟩ := settles_settle s; rw [h]
@[simp] theorem settle_wd (s : State) : (settle s).wd = s.wd := by
  obtain ⟨_, _, _, _, _, _, _, h⟩ := settles_settle s; rw [h]
@[simp] theorem settle_upd (s : State) : (settle s).upd = s.upd := by
  obtain ⟨_, _, _, _, _, _, _, h⟩ := settles_settle s; rw [h]
@[simp] theorem settle_grd (s : State) : (settle s).grd = s.grd := by
  obtain ⟨_, _, _, _, _, _, _, h⟩ := settles_settle s; rw [h]
@[simp] theorem settle_pnl (s : State) : (settle s).pnl = s.pnl := by
  obtain ⟨_, _, _, _, _, _, _, h⟩ := settles_settle s; rw [h]

theorem settle_pair (s : State) : (settle s).pair = { s.pair with curShown := (settle s).pair.curShown } := by
  obtain ⟨_, _, _, _, _, _, _, h⟩ := settles_settle s; rw [h]

/-! ### The record of a fault -/

/-- What the record of a fault may change. -/
def Records (s t : State) : Prop :=
  ∃ f u b n e i, t = { s with fcu := f, upd := u, btn := b, nv := n, ev := e, img := { s.img with fired := i } }

protected theorem Records.refl (s : State) : Records s s := ⟨_, _, _, _, _, _, rfl⟩

protected theorem Records.trans {s t u : State} (h : Records s t) (k : Records t u) : Records s u := by
  obtain ⟨f, x, b, n, e, i, rfl⟩ := h
  obtain ⟨f2, x2, b2, n2, e2, i2, rfl⟩ := k
  exact ⟨f2, x2, b2, n2, e2, i2, rfl⟩

theorem Reports.records {s t : State} (h : Reports s t) : Records s t := by
  obtain ⟨b, n, e, i, rfl⟩ := h
  exact ⟨_, _, b, n, e, i, rfl⟩

theorem records_fcuRecord (src reason cls : Nat) (s : State) : Records s (fcuRecord src reason cls s) := by
  unfold fcuRecord
  exact .trans (.trans ⟨_, _, _, _, _, _, rfl⟩ (reports_fire _ _ _).records) (reports_fireIf _ _ _).records

/-- A contained fault that does not escalate (R287). -/
theorem records_containedFault {src : Nat} (reason : Nat) {s : State} (h : fcuReact s src ≠ 2) :
    Records s (containedFault src reason s) := by
  unfold containedFault
  dsimp only
  split
  · exact (records_fcuRecord _ _ _ s).trans (reports_notice _ _ _ _ _).records
  · next h2 => exact absurd h2 h
  · exact records_fcuRecord _ _ _ s

/-! ### The reaction to a fault -/

/-- What the reaction to a fault may change: it stops the scan and may start sequences, give up or call for a reset (R285). -/
def Reacts (s t : State) : Prop :=
  ∃ l ed tw td p e i tm n b sy sl f u, t = { s with
    le := l, edit := ed, wd := { s.wd with twd := tw, twdDue := td }, pair := p, ev := e
    img := { s.img with fired := i }, time := tm, nv := n
    btn := b
    sys := sy, slc := sl, fcu := f, upd := u }

protected theorem Reacts.refl (s : State) : Reacts s s := ⟨_, _, _, _, _, _, _, _, _, _, _, _, _, _, rfl⟩

protected theorem Reacts.trans {s t u : State} (h : Reacts s t) (k : Reacts t u) : Reacts s u := by
  obtain ⟨l, ed, tw, td, p, e, i, tm, n, b, sy, sl, f, x, rfl⟩ := h
  obtain ⟨l2, ed2, tw2, td2, p2, e2, i2, tm2, n2, b2, sy2, sl2, f2, x2, rfl⟩ := k
  exact ⟨l2, ed2, tw2, td2, p2, e2, i2, tm2, n2, b2, sy2, sl2, f2, x2, rfl⟩

theorem Records.reacts {s t : State} (h : Records s t) : Reacts s t := by
  obtain ⟨f, x, b, n, e, i, rfl⟩ := h
  exact ⟨_, _, _, _, _, e, i, _, n, b, _, _, f, x, rfl⟩

theorem Reports.reacts {s t : State} (h : Reports s t) : Reacts s t := h.records.reacts

theorem Reacts.foldl {β : Type} (f : State → β → State) (hf : ∀ a b, Reacts a (f a b)) (l : List β) (s : State) :
    Reacts s (l.foldl f s) := by
  induction l generalizing s with
  | nil => exact .refl s
  | cons b l ih => exact (hf s b).trans (ih _)

theorem reacts_editCancel (s : State) : Reacts s (editCancel s) := by
  unfold editCancel
  exact .trans ⟨_, _, _, _, _, _, _, _, _, _, _, _, _, _, rfl⟩ (reports_fireIf _ _ _).reacts

theorem reacts_stopScan (s : State) : Reacts s (stopScan s) := by
  unfold stopScan
  exact .trans ⟨_, _, _, _, _, _, _, _, _, _, _, _, _, _, rfl⟩ (reacts_editCancel _)

theorem reacts_laneUse (l : Bool) (p : LinkPayload) (s : State) : Reacts s (laneUse l p s) := by
  unfold laneUse lanePutL
  exact ⟨_, _, _, _, _, _, _, _, _, _, _, _, _, _, rfl⟩

theorem reacts_sendOn (ls : List Bool) (p : LinkPayload) (s : State) : Reacts s (sendOn ls p s) := by
  unfold sendOn
  exact .trans ⟨_, _, _, _, _, _, _, _, _, _, _, _, _, _, rfl⟩ (.foldl _ (fun a l => reacts_laneUse l p a) _ _)

theorem reacts_setRole (r : Role) (cause : Nat) (s : State) : Reacts s (setRole r cause s) := by
  unfold setRole
  split
  · exact .refl s
  · exact .trans ⟨_, _, _, _, _, _, _, _, _, _, _, _, _, _, rfl⟩ (reports_fire _ _ _).reacts

theorem reacts_enterShadow (cause : Nat) (s : State) : Reacts s (enterShadow cause s) := by
  unfold enterShadow
  exact .trans (.trans ((reacts_editCancel s).trans (reacts_setRole _ _ _)) ⟨_, _, _, _, _, _, _, _, _, _, _, _, _, _, rfl⟩)
    (reports_notice _ _ _ _ _).reacts

theorem reacts_releaseCheck (s : State) : Reacts s (releaseCheck s) := by
  unfold releaseCheck
  dsimp only
  split
  · split
    · exact reacts_enterShadow 7 s
    · exact ⟨_, _, _, _, _, _, _, _, _, _, _, _, _, _, rfl⟩
  · exact .refl s

theorem reacts_giveUpOp (kind src reason : Nat) (s : State) : Reacts s (giveUpOp kind src reason s) := by
  unfold giveUpOp
  refine .trans ?_ (reacts_releaseCheck _)
  refine .trans ?_ (reports_fire _ _ _).reacts
  exact .trans ((reacts_stopScan s).trans (reacts_sendOn _ _ _)) ⟨_, _, _, _, _, _, _, _, _, _, _, _, _, _, rfl⟩

theorem reacts_slcStartGrp (cause : Nat) (u : Bool) (s : State) (g : Nat) : Reacts s (slcStartGrp cause u s g) := by
  unfold slcStartGrp sgPut
  dsimp only
  split
  · exact .trans ⟨_, _, _, _, _, _, _, _, _, _, _, _, _, _, rfl⟩ (reports_fireIf _ _ _).reacts
  · exact .refl s

theorem reacts_slcTriggerAll (cause : Nat) (s : State) : Reacts s (slcTriggerAll cause s) := by
  unfold slcTriggerAll slcRecord
  exact .trans ⟨_, _, _, _, _, _, _, _, _, _, _, _, _, _, rfl⟩ (.foldl _ (fun a g => reacts_slcStartGrp _ _ a g) _ _)

theorem reacts_fatalReact (src reason cause : Nat) (s : State) : Reacts s (fatalReact src reason cause s) := by
  unfold fatalReact
  dsimp only
  generalize hs0 : ({ s with pair := _, fcu := _ } : State) = s0
  have h0 : Reacts s s0 := by subst hs0; exact ⟨_, _, _, _, _, _, _, _, _, _, _, _, _, _, rfl⟩
  have solo : Reacts s (slcTriggerAll cause (stopScan s0)) := (h0.trans (reacts_stopScan s0)).trans (reacts_slcTriggerAll _ _)
  split
  · exact h0.trans (reacts_giveUpOp ..)
  · exact solo.trans ⟨_, _, _, _, _, _, _, _, _, _, _, _, _, _, rfl⟩
  · exact solo.trans ⟨_, _, _, _, _, _, _, _, _, _, _, _, _, _, rfl⟩
  · exact ⟨_, _, _, _, _, _, _, _, _, _, _, _, _, _, rfl⟩
  · exact ⟨_, _, _, _, _, _, _, _, _, _, _, _, _, _, rfl⟩
  · exact h0

theorem reacts_fatalFault (src reason : Nat) (s : State) : Reacts s (fatalFault src reason s) :=
  (records_fcuRecord _ _ _ s).reacts.trans (reacts_fatalReact ..)

theorem reacts_containedFault (src reason : Nat) (s : State) : Reacts s (containedFault src reason s) := by
  have hrec := (records_fcuRecord src reason 1 s).reacts
  unfold containedFault
  dsimp only
  split
  · exact hrec.trans (reports_notice _ _ _ _ _).reacts
  · exact hrec.trans (reacts_fatalReact ..)
  · exact hrec

end Sys2Proof.Machine

/-! ## Moves and tags, and the system instructions -/

namespace Sys2Proof.Machine

/-! ### Stores to an operand (R66, R68, R74) -/

/-- The place of an operand is a word of the data memory, or one of the eight accumulators of a lane. -/
theorem opdPlace_range {s : State} {c : At} {m : BitVec 2} {w : BitVec 21} :
    (∀ a, opdPlace s c m w = .mem a → a < 2097152) ∧ (∀ l i, opdPlace s c m w = .acc l i → l < 4 ∧ i < 8) := by
  have hmod : ∀ n, n % 2097152 < 2097152 := fun n => Nat.mod_lt _ (by decide)
  unfold opdPlace ptrTarget
  split
  · exact ⟨fun a h => by injection h with h; exact h ▸ w.isLt, fun l i h => by injection h⟩
  · exact ⟨fun a h => by injection h with h; exact h ▸ hmod _, fun l i h => by injection h⟩
  · dsimp only
    split
    · exact ⟨fun a h => by injection h, fun l i h => by injection h⟩
    · exact ⟨fun a h => by injection h with h; exact h ▸ hmod _, fun l i h => by injection h⟩
  · refine ⟨fun a h => by injection h, fun l i h => ?_⟩
    injection h with hl hi
    exact ⟨hl ▸ Nat.mod_lt _ (by decide), hi ▸ Nat.mod_lt _ (by decide)⟩

section
variable {c : At} {s : State} {m : BitVec 2} {w : BitVec 21}

theorem opdBase_quiet_fields (s : State) (c : At) (m : BitVec 2) (w : BitVec 21) :
    (opdBase s c m w).lane = c.lane ∧ (opdBase s c m w).ctrl = none := by
  unfold opdBase
  split <;> exact ⟨rfl, rfl⟩

/-- The parts of a destination that may be written. -/
theorem quietDest_parts (h : quietDest s c m w = true) :
    opdIllegal m w = false ∧ (opdBase s c m w).viols = [] ∧ (opdBase s c m w).memFaults = [] ∧
      ((∃ a, opdPlace s c m w = .mem a ∧ writeViol s a = [] ∧ a < 2097152) ∨
        ∃ l i, opdPlace s c m w = .acc l i ∧ l < 4 ∧ i < 8) := by
  simp only [quietDest, Bool.and_eq_true, Bool.not_eq_true', List.isEmpty_iff] at h
  obtain ⟨⟨⟨hlegal, hv⟩, hf⟩, hplace⟩ := h
  refine ⟨hlegal, hv, hf, ?_⟩
  cases hp : opdPlace s c m w with
  | mem a =>
    simp only [hp, quietWrite, List.isEmpty_iff] at hplace
    exact .inl ⟨a, rfl, hplace, opdPlace_range.1 a hp⟩
  | acc l i => exact .inr ⟨l, i, rfl, opdPlace_range.2 l i hp⟩
  | refused t => simp only [hp, Bool.false_eq_true] at hplace

/-- What a store leaves where it may write. -/
theorem storeWrite_foldl (h : quietDest s c m w = true) (mask v : Word) (t : Tag) (k : Nat) (e : LaneEff) :
    (storeWrite s (opdPlace s c m w) mask v t).foldl (applyWrite k) (openB s e) = openB (storeResult s c m w mask v t) e ∧
      (storeResult s c m w mask v t).le.running = s.le.running := by
  obtain ⟨-, -, -, ⟨a, hp, hv, ha⟩ | ⟨l, i, hp, hl, hi⟩⟩ := quietDest_parts h
  · have hn : (BitVec.ofNat 21 a).toNat = a := by rw [BitVec.toNat_ofNat]; exact Nat.mod_eq_of_lt ha
    simp only [storeWrite, storeResult, hp, hv, if_true, List.foldl, applyWrite, hn]
    split
    · exact ⟨writeTag_openB _ _ _ _, by rw [(storeFrame_writeTag a t s).le]⟩
    · exact ⟨writeBits_openB _ _ _ _ _ _, by rw [(storeFrame_writeBits a mask v t s).le]⟩
  · have hln : (BitVec.ofNat 2 l).toNat = l := by rw [BitVec.toNat_ofNat]; exact Nat.mod_eq_of_lt hl
    have hin : (BitVec.ofNat 3 i).toNat = i := by rw [BitVec.toNat_ofNat]; exact Nat.mod_eq_of_lt hi
    simp only [storeWrite, storeResult, hp, List.foldl, applyWrite, hln, hin]
    exact ⟨rfl, rfl⟩

theorem sys_not_mem_storeWrite (p : Place) (mask v : Word) (t : Tag) (i : BitVec 6) (x : Word) :
    LeWrite.sys i x ∉ storeWrite s p mask v t := by
  unfold storeWrite
  split
  · split <;> simp
  · simp
  · simp

/-- An instruction that writes its operand. -/
theorem retiresTo_wStore (h : aloneIn c s = true) (hq : quietDest s c m w = true) (mask v : Word) (t : Tag) :
    retiresTo (.next (leIssue c (wStore s c m w mask v t) s)) (storeResult s c m w mask v t) := by
  obtain ⟨hlegal, hv, hf, hplace⟩ := quietDest_parts hq
  have he : wStore s c m w mask v t = { opdBase s c m w with
      stores := opdBankAddr s c m w, viols := [], traps := [], writes := storeWrite s (opdPlace s c m w) mask v t } := by
    rw [wStore, if_neg (by simp [hlegal])]
    obtain ⟨a, hp, hwv, -⟩ | ⟨l, i, hp, -⟩ := hplace
    · simp only [hp, hv, hwv, List.append_nil]
    · simp only [hp, hv, List.append_nil]
  rw [he]
  refine retiresTo_of h ?_ ?_ ?_ ?_ ?_ (fun k => ?_) ?_
  exacts [rfl, rfl, hf, (opdBase_quiet_fields s c m w).2, sys_not_mem_storeWrite _ _ _ _,
    (storeWrite_foldl hq mask v t k _).1, (storeWrite_foldl hq mask v t 0 (effNop c)).2.trans (running_of h)]

/-- STAG of a reserved code writes nothing and captures TAG_WRITE (R74). -/
theorem stagEff_reserved (h : aloneIn c s = true) (hq : quietDest s c m w = true) (a : BitVec 3)
    (hcode : 14 ≤ (accA s c a).val.toNat % 16) (hre : fcuReact s 477 ≠ 2) :
    ∃ t, (.next (leIssue c (stagEff s c a m w) s) : Out) = .next t ∧ t.mem = s.mem ∧ t.le.lanes = s.le.lanes ∧
      t.le.pc = s.le.pc + 1 ∧ t.le.trapValid = true ∧ (s.le.trapValid = false → t.le.trapReason = 2) := by
  obtain ⟨hlegal, hv, hf, hplace⟩ := quietDest_parts hq
  have hres : tagReserved ((accA s c a).val.truncate 4) = true := by
    simp only [tagReserved, BitVec.truncate_eq_setWidth, BitVec.toNat_setWidth, decide_eq_true_eq]
    exact hcode
  have he : stagEff s c a m w = { opdBase s c m w with
      stores := opdBankAddr s c m w, viols := [], traps := [2], writes := [] } := by
    simp only [stagEff, hres, hlegal, wStore, Bool.not_false, Bool.and_true, if_true, Bool.false_eq_true, if_false, hv]
    obtain ⟨_, hp, -⟩ | ⟨_, _, hp, -⟩ := hplace <;> simp only [hp]
  obtain ⟨hlane, hctrl⟩ := opdBase_quiet_fields s c m w
  rw [he]
  obtain ⟨hmem, n, k, hle⟩ := leIssue_contained_nothing (e := { opdBase s c m w with
    stores := opdBankAddr s c m w, viols := [], traps := [2], writes := [] }) h hlane rfl rfl rfl hf hctrl rfl hre
  refine ⟨_, rfl, hmem, ?_, ?_, ?_, fun hfree => ?_⟩
  · rw [hle]; rfl
  · rw [hle]; rfl
  · rw [hle]; rfl
  · rw [hle]; simp [trappedLe, trapLe, hfree]

end

/-- Settles O13: the loads through the rule of operands that are read, the stores through that of operands that are written. -/
theorem leMovesAndTags : Obligations.LeMovesAndTags := by
  unfold Obligations.LeMovesAndTags
  refine ⟨fun s c a m w h hq => ?loads, fun s c a m w h hq => ?stores⟩
  case loads =>
    refine ⟨retiresTo_wLoad_acc h hq 1 a _ rfl, ?gtag, ?subst, ?worst⟩
    case gtag =>
      rw [BitVec.ofNat_toNat]
      exact retiresTo_wLoad_acc h hq 1 a (fun _ v => ⟨v.tag.zeroExtend 32, tagGOOD⟩) rfl
    case subst =>
      have hval := retiresTo_wLoad_acc h hq 1 a
        (fun x v => if tagClass v.tag ≤ 1 then v else ⟨(accOf x a.toNat).val, tagSUBST⟩) rfl
      split
      case isTrue hu => rwa [if_pos hu] at hval
      case isFalse hu => rwa [if_neg hu] at hval
    case worst => exact retiresTo_wLoad_acc h hq 1 a _ rfl
  case stores =>
    refine ⟨retiresTo_wStore h hq _ _ _, retiresTo_wStore h hq _ _ _, retiresTo_wStore h hq _ _ _, fun hcode => ?stag,
      fun hcode hre => stagEff_reserved h hq a hcode hre⟩
    case stag =>
      have htag : (accA s c a).val.truncate 4 = BitVec.ofNat 4 (accA s c a).val.toNat := (BitVec.ofNat_toNat _ _).symm
      have hres : tagReserved ((accA s c a).val.truncate 4) = false := by
        simp only [tagReserved, BitVec.truncate_eq_setWidth, BitVec.toNat_setWidth, decide_eq_false_iff_not]
        omega
      have he : stagEff s c a m w = wStore s c m w 0 0 (BitVec.ofNat 4 (accA s c a).val.toNat) := by
        rw [← htag]
        simp only [stagEff, hres, Bool.false_and, Bool.false_eq_true, if_false]
      change retiresTo (.next (leIssue c (stagEff s c a m w) s)) _
      rw [he]
      exact retiresTo_wStore h hq _ _ _

/-! ### System registers (R83-R85) -/

section
variable {c : At} {s : State}

/-- A bundle whose only result is a write of a system register. -/
theorem retire_sys {e : LaneEff} (hb : s.le.bundle = [e]) (hrun : s.le.running = true) (ht : e.traps = []) (hv : e.viols = [])
    (hf : e.memFaults = []) (hc : e.ctrl = none) {i : BitVec 6} {v : Word} (hw : e.writes = [.sys i v]) :
    retire s = advanced (applySys [.sys i v] s) ((bundleCost s.le.scanCyc [e]).1 + 1)
      (s.le.stalls + (bundleCost s.le.scanCyc [e]).2) := by
  have hr : (applySys [.sys i v] s).le.running = true := hrun
  have hst : (applySys [.sys i v] s).le.stalls = s.le.stalls := rfl
  unfold retire
  simp only [hb, byLane_single, bundleTraps_single, ht, List.map_nil, List.any_nil, List.flatMap_cons, List.flatMap_nil,
    List.append_nil, hv, hf, hw, List.filter_nil, recordReadFaults, recordTraps, firstTrap, List.foldl_nil, List.foldl_cons,
    applyWrite, hrun, Bool.not_true, List.find?, hc, Option.isSome, ← hst]
  generalize applySys [.sys i v] s = u at hr
  simp [applyCtrl, advanced, hr]

/-- A write of a system register retires to the state that has taken it. -/
theorem retiresTo_sys (h : aloneIn c s = true) (i : BitVec 6) (v : Word) {r : State} (hr : applySys [.sys i v] s = r) :
    retiresTo (.next (leIssue c { effNop c with writes := [.sys i v] } s)) r := by
  subst hr
  exact ⟨_, _, congrArg _ ((leIssue_alone _ h).trans (retire_sys (bundle_openB _ h) (running_of (s := s) h) rfl rfl rfl rfl rfl))⟩

/-- What the last write of a bundle of one register write is. -/
theorem lastSys_single (i : BitVec 6) (v : Word) (n : Nat) : lastSys [.sys i v] n = if i.toNat = n then some v else none := rfl

end

/-- What SYSRD delivers, by index (R85). -/
theorem sysRead_eq (s : State) (l : BitVec 2) (i : Nat) : sysRead s l i =
    match i with
    | 0 => BitVec.ofNat 32 s.le.scanCyc | 1 => BitVec.ofNat 32 l.toNat
    | 2 => BitVec.ofNat 32 (lane s l.toNat).flags.toNat
    | 3 => bits32 (fun j => decide (j < 8) && decide (s.le.scanTick % 2 ^ j = 0)) | 4 => s.tick.tbase
    | 5 => BitVec.ofNat 32 s.tick.runid.toNat | 6 => BitVec.ofNat 32 s.le.poolbase.toNat | _ => 0 := by
  unfold sysRead
  split
  case h_1 => rfl
  case h_2 => exact (BitVec.ofNat_toNat _ _).symm
  case h_3 => exact (BitVec.ofNat_toNat _ _).symm
  case h_4 => rfl
  case h_5 => rfl
  case h_6 => exact (BitVec.ofNat_toNat _ _).symm
  case h_7 => exact (BitVec.ofNat_toNat _ _).symm
  case h_8 => simp

/-- What one write of a system register changes, by index (R85). -/
theorem applySys_single (s : State) {k : BitVec 23} (hk : k.toNat < 64) (h2 : k.toNat ≠ 2) (v : Word) (x : State) :
    applySys [.sys (k.truncate 6) v] s =
      match k.toNat with
      | 2 => x
      | 6 => { s with le := { s.le with poolbase := v.truncate 6 } }
      | 8 => { s with le := { s.le with rfxRst := s.le.rfxRst ||| (0#32 ++ v) } }
      | 9 => { s with le := { s.le with rfxRst := s.le.rfxRst ||| (v ++ 0#32) } }
      | 16 => { s with le := { s.le with sluiceArmed := s.le.sluiceArmed || decide (v = 0xC35A) } }
      | 17 => { s with le := { s.le with goMask := if s.le.sluiceArmed then s.le.goMask ||| v else s.le.goMask } }
      | _ => s := by
  have hi : (k.truncate 6).toNat = k.toNat := by
    rw [BitVec.truncate_eq_setWidth, BitVec.toNat_setWidth]
    exact Nat.mod_eq_of_lt hk
  simp only [applySys, lastSys_single, hi]
  by_cases h6 : k.toNat = 6
  · simp [h6]
  by_cases h8 : k.toNat = 8
  · simp [h8]
  by_cases h9 : k.toNat = 9
  · simp [h9]
  by_cases h16 : k.toNat = 16
  · simp [h16]
  by_cases h17 : k.toNat = 17
  · simp [h17]
  simp [h6, h8, h9, h16, h17]

/-- Settles O20: a read is a write of the accumulator, and a write takes the register that its index names. -/
theorem leSystemRegisters : Obligations.LeSystemRegisters := by
  unfold Obligations.LeSystemRegisters
  intro s c a k h hk A rd wr classes
  refine ⟨?read, fun htag => ?write, fun htag hre => ?trap⟩
  case read =>
    have he : sysrdEff s c a k = { effNop c with writes := [wrAcc c a ⟨sysRead s c.lane k.toNat, tagGOOD⟩] } :=
      if_neg (by omega)
    have hret : retiresTo (.next (leIssue c (sysrdEff s c a k) s)) (accResult s c a (sysRead s c.lane k.toNat) 0 0) := by
      rw [he]
      exact retiresTo_of_eq (leIssue_acc h 1 a _ _ _ (write_all_bits _ _))
    rw [sysRead_eq] at hret
    exact hret
  case write =>
    by_cases h2 : k.toNat = 2
    case pos =>
      have he : syswrEff s c a k = { effNop c with writes := [.flags c.lane 0 (A.val.truncate 5)] } := by
        rw [syswrEff, if_neg (by omega), if_neg (by simp [htag, A]), if_pos h2]
      change retiresTo (.next (leIssue c (syswrEff s c a k) s)) _
      rw [he, h2]
      refine retiresTo_of_eq (leIssue_writes h 1 _ (by simp) (fun _ e => ?_) (running_of (s := s) h))
      have hor : ∀ x : FlagSet, x ||| 0 = x := fun x => BitVec.or_zero
      simp only [List.foldl, applyWrite, lane_openB, hor]
      rfl
    case neg =>
      have he : syswrEff s c a k = { effNop c with writes := [.sys (k.truncate 6) A.val] } := by
        rw [syswrEff, if_neg (by omega), if_neg (by simp [htag, A]), if_neg h2]
      change retiresTo (.next (leIssue c (syswrEff s c a k) s)) _
      rw [he]
      exact retiresTo_sys h _ _ (applySys_single s hk h2 A.val _)
  case trap =>
    have he : syswrEff s c a k = { effNop c with traps := [2] } := by
      rw [syswrEff, if_neg (by omega), if_pos htag]
    obtain ⟨hmem, n, m, hle⟩ := leIssue_contained_nothing (e := { effNop c with traps := [2] }) h rfl rfl rfl rfl rfl rfl rfl hre
    refine ⟨_, congrArg (fun e => Host.Outcome.next (leIssue c e s)) he, hmem, ?_, ?_, ?_, ?_, ?_, fun hfree => ?_⟩
    · rw [hle]; rfl
    · rw [hle]; rfl
    · rw [hle]; rfl
    · rw [hle]; rfl
    · rw [hle]; rfl
    · rw [hle]; simp [trappedLe, trapLe, hfree]

end Sys2Proof.Machine

/-! ## RAISE and WDSRV -/

namespace Sys2Proof.Machine

section
variable {c : At} {s : State}

/-- The retire of an instruction of one cycle without accesses is now. -/
theorem retireNs_of_no_access {e : LaneEff} (hr : e.reads = []) (hi : e.indirect = false) (hs : e.stores = [])
    (hc : e.cycles = 1) : retireNs s e = s.time.ns := by
  simp [retireNs, bundleCost_of_no_access _ e hr hi hs, hc]

/-- RAISE fires its user event unless it has been raised in this scan (R84). -/
theorem retiresTo_raise (h : aloneIn c s = true) {k : BitVec 23} (hk : k.toNat < 32) :
    retiresTo (.next (leIssue c (raiseEff c 0 k) s))
      (if s.le.raised.getLsbD k.toNat then s
       else fire (504 + k.toNat) s.time.ns { s with le := { s.le with raised := s.le.raised ||| (1#32 <<< k.toNat) } }) := by
  have hk5 : (k.truncate 5).toNat = k.toNat := by
    rw [BitVec.truncate_eq_setWidth, BitVec.toNat_setWidth]
    exact Nat.mod_eq_of_lt hk
  have he : raiseEff c 0 k = { effNop c with writes := [.raise (k.truncate 5)] } := if_neg (by simp; omega)
  have hw : ∀ e, [LeWrite.raise (k.truncate 5)].foldl (applyWrite s.time.ns) (openB s e) =
      openB (if s.le.raised.getLsbD k.toNat then s
        else fire (504 + k.toNat) s.time.ns { s with le := { s.le with raised := s.le.raised ||| (1#32 <<< k.toNat) } }) e := by
    intro e
    simp only [List.foldl, applyWrite, hk5]
    change (if s.le.raised.getLsbD k.toNat then openB s e else _) = _
    split <;> rfl
  have hrun : (if s.le.raised.getLsbD k.toNat then s
      else fire (504 + k.toNat) s.time.ns { s with le := { s.le with raised := s.le.raised ||| (1#32 <<< k.toNat) } }).le.running
        = true := by
    split <;> exact running_of (s := s) h
  rw [he]
  have hns := retireNs_of_no_access (s := s) (e := { effNop c with writes := [.raise (k.truncate 5)] }) rfl rfl rfl rfl
  have hret := retire_alone c s { effNop c with writes := [.raise (k.truncate 5)] } h rfl rfl rfl rfl (by simp)
    (by rw [hns, hw]; exact hrun)
  rw [hns, hw, advanced_openB] at hret
  exact ⟨_, _, congrArg _ hret⟩

/-- The class and the key that WDSRV names. -/
theorem wdsrvEff_eq (c : At) (cls : BitVec 3) (key : BitVec 16) :
    wdsrvEff c 0 (BitVec.ofNat 23 (65536 * cls.toNat + key.toNat)) = { effNop c with writes := [.wdsrv cls key] } := by
  have hc := cls.isLt
  have hk := key.isLt
  have hn : (BitVec.ofNat 23 (65536 * cls.toNat + key.toNat)).toNat = 65536 * cls.toNat + key.toNat := by
    rw [BitVec.toNat_ofNat]
    exact Nat.mod_eq_of_lt (by omega)
  have hcls : BitVec.ofNat 3 ((65536 * cls.toNat + key.toNat) / 65536) = cls := by
    apply BitVec.eq_of_toNat_eq
    rw [BitVec.toNat_ofNat]
    omega
  have hkey : (BitVec.ofNat 23 (65536 * cls.toNat + key.toNat)).truncate 16 = key := by
    apply BitVec.eq_of_toNat_eq
    rw [BitVec.truncate_eq_setWidth, BitVec.toNat_setWidth, hn]
    omega
  have hlegal : ¬ (524288 ≤ 65536 * cls.toNat + key.toNat ∨ (0 : BitVec 3) ≠ 0) := by simp; omega
  simp only [wdsrvEff, hn, hlegal, if_false, hcls, hkey]

/-- WDSRV, where serving the class leaves the scan running. -/
theorem retiresTo_wdsrv (h : aloneIn c s = true) (cls : BitVec 3) (key : BitVec 16) {r : State}
    (hw : ∀ e, twdServe cls.toNat key (openB s e) = openB r e) (hr : r.le.running = true) :
    retiresTo (exec (.leWdsrv c 0 (BitVec.ofNat 23 (65536 * cls.toNat + key.toNat))) s) r := by
  change retiresTo (.next (leIssue c (wdsrvEff c 0 (BitVec.ofNat 23 (65536 * cls.toNat + key.toNat))) s)) r
  rw [wdsrvEff_eq]
  exact retiresTo_of_eq (leIssue_writes h 1 _ (by simp) (fun _ e => hw e) hr)

/-- Of the watchdogs the reaction to a fault changes the task watchdogs' counts only. -/
theorem Reacts.expired {s t : State} (h : Reacts s t) : t.wd.expired = s.wd.expired ∧ t.wd.keyErr = s.wd.keyErr ∧ t.mem = s.mem := by
  obtain ⟨l, ed, tw, td, p, e, i, tm, n, b, sy, sl, f, u, rfl⟩ := h
  exact ⟨rfl, rfl, rfl⟩

/-- A watchdog that expires on a wrong key shows both. -/
theorem twdExpire_keyErr (k : Nat) (s : State) :
    (twdExpire k 0x1B s).wd.expired = s.wd.expired ||| (1#8 <<< k) ∧
    (twdExpire k 0x1B s).wd.keyErr = s.wd.keyErr ||| (1#8 <<< k) ∧ (twdExpire k 0x1B s).mem = s.mem := by
  unfold twdExpire
  dsimp only
  generalize hs1 : ({ s with wd := _ } : State) = s1
  have h1 : Reacts (wdCopied s1) _ := (reports_fireIf (!s.wd.expired.getLsbD k) (480 + k) (wdCopied s1)).reacts.trans
    (reacts_containedFault (480 + k) 0x1B _)
  rw [h1.expired.1, h1.expired.2.1, h1.expired.2.2]
  subst hs1
  exact ⟨rfl, rfl, rfl⟩

/-- The retire of a bundle whose only result is the service of a watchdog keeps what the service leaves. -/
theorem leIssue_wdsrv (h : aloneIn c s = true) (cls : BitVec 3) (key : BitVec 16) :
    let e : LaneEff := { effNop c with writes := [.wdsrv cls key] }
    (leIssue c e s).wd = (twdServe cls.toNat key (openB s e)).wd ∧ (leIssue c e s).mem = (twdServe cls.toNat key (openB s e)).mem := by
  intro e
  rw [leIssue_alone _ h]
  unfold retire
  simp only [bundle_openB _ h, byLane_single, bundleTraps_single, e, effNop, List.map_nil, List.any_nil, Bool.false_eq_true,
    if_false, List.flatMap_cons, List.flatMap_nil, List.append_nil, List.filter_nil, recordReadFaults, recordTraps, firstTrap,
    List.foldl_nil, List.foldl_cons, applyWrite, running_openB, running_of h, Bool.not_true, List.isEmpty_nil,
    Bool.false_or, applySys_none _ _ (by simp : ∀ i v, LeWrite.sys i v ∉ [LeWrite.wdsrv cls key])]
  split
  · exact ⟨rfl, rfl⟩
  · exact ⟨rfl, rfl⟩

end

/-- Settles O21: RAISE through the retire of its event, WDSRV through the three cases of the service. -/
theorem leRaiseAndServe : Obligations.LeRaiseAndServe := by
  unfold Obligations.LeRaiseAndServe
  refine ⟨fun s c k h hk => retiresTo_raise h hk, fun s c cls key h => ⟨fun hoff => ?off, fun hon hkey => ?serve, fun hon hkey => ?wrong⟩⟩
  case off =>
    refine retiresTo_wdsrv h cls key (fun e => ?_) (running_of h)
    have hoff' : twdEn (openB s e) cls.toNat = false := hoff
    rw [twdServe, hoff']
    rfl
  case serve =>
    refine retiresTo_wdsrv h cls key (fun e => ?_) (running_of (s := s) h)
    have hon' : twdEn (openB s e) cls.toNat = true := hon
    rw [twdServe, hon', if_neg (by decide), if_pos hkey]
    rfl
  case wrong =>
    have hserve : twdServe cls.toNat key (openB s { effNop c with writes := [.wdsrv cls key] }) =
        twdExpire cls.toNat 0x1B (openB s { effNop c with writes := [.wdsrv cls key] }) := by
      have hon' : twdEn (openB s { effNop c with writes := [.wdsrv cls key] }) cls.toNat = true := hon
      rw [twdServe, hon', if_neg (by decide), if_neg hkey]
    obtain ⟨hwd, hmem⟩ := leIssue_wdsrv h cls key
    obtain ⟨hexp, herr, hm⟩ := twdExpire_keyErr cls.toNat (openB s { effNop c with writes := [.wdsrv cls key] })
    have hbit : ∀ x : Byte, (x ||| (1#8 <<< cls.toNat)).getLsbD cls.toNat = true := fun x => by
      have := cls.isLt
      simp [BitVec.getLsbD_shiftLeft]
      omega
    refine ⟨_, congrArg (fun e => Host.Outcome.next (leIssue c e s)) (wdsrvEff_eq c cls key), ?_, ?_, ?_⟩
    · rw [hwd, hserve, hexp]; exact hbit _
    · rw [hwd, hserve, herr]; exact hbit _
    · rw [hmem, hserve, hm]; rfl

end Sys2Proof.Machine

/-! ## Timers and counters -/

namespace Sys2Proof.Machine

/-! ### One execution of a timer block (R77) -/

/-- The elapsed time of R77. -/
def tmrElapsed (b : TimerBlk) (tbase runid : Nat) : Nat :=
  if b.runid = runid then (if b.last ≤ tbase then tbase - b.last else tbase + 4294967296 - b.last) else 0

theorem tmrElapsed_eq (b : TimerBlk) {tbase runid : Nat} (hl : b.last < 4294967296) (ht : tbase < 4294967296) :
    (if b.runid = runid then (tbase + 4294967296 - b.last) % 4294967296 else 0) = tmrElapsed b tbase runid := by
  unfold tmrElapsed
  split
  · split <;> omega
  · rfl

/-- The elapsed time that an advance reaches. -/
def tmrReached (b : TimerBlk) (pt d : Nat) : Nat := min pt (b.et + (b.rem + d) / unitUs b.unit)

theorem unitUs_eq (u : Nat) : (match u with | 0 => 1 | 1 => 1000 | 2 => 100000 | _ => 1000000) = unitUs u := by
  unfold unitUs
  split
  · rfl
  · rfl
  · rfl
  · next h0 h1 h2 => rw [if_neg h0, if_neg h1, if_neg h2]

section
variable (b : TimerBlk) {pt tbase runid : Nat}

/-- Every execution takes over the time, the run and the input. -/
theorem tmrEval_stamps (f : TmrFn) (inp : Bool) :
    let n := tmrEval f b inp pt tbase runid; n.last = tbase ∧ n.runid = runid ∧ n.inp = inp := by
  have hcase : ∀ (t : TimerBlk) (d : Nat), (tmrCase f t inp d pt).last = t.last ∧ (tmrCase f t inp d pt).runid = t.runid := by
    intro t d
    cases f <;> simp only [tmrCase] <;> (repeat' split) <;> exact ⟨rfl, rfl⟩
  cases f
  case trst => exact ⟨(hcase _ _).1, (hcase _ _).2, rfl⟩
  all_goals
    simp only [tmrEval, reduceCtorEq, if_false, false_and, true_and, and_true]
    (repeat' split) <;> exact hcase _ _

theorem ton_off : let n := tmrEval .ton b false pt tbase runid; n.q = false ∧ n.et = 0 ∧ n.run = false := by
  simp [tmrEval, tmrCase, tmrStop]

theorem ton_rises (hi : b.inp = false) :
    let n := tmrEval .ton b true pt tbase runid; n.et = 0 ∧ n.q = decide (pt = 0) := by
  by_cases hp : pt = 0 <;> simp [tmrEval, tmrCase, tmrStart, hi, hp]

theorem tof_on : let n := tmrEval .tof b true pt tbase runid; n.q = true ∧ n.et = 0 ∧ n.run = false := by
  simp [tmrEval, tmrCase, tmrStop]

theorem tof_falls (hi : b.inp = true) :
    let n := tmrEval .tof b false pt tbase runid; n.et = 0 ∧ n.q = decide (0 < pt) := by
  by_cases hp : pt = 0
  · simp [tmrEval, tmrCase, tmrStart, hi, hp]
  · simp [tmrEval, tmrCase, tmrStart, hi, hp]
    omega

theorem tp_rises (hi : b.inp = false) (hr : b.run = false) :
    let n := tmrEval .tp b true pt tbase runid; n.et = 0 ∧ n.q = decide (0 < pt) := by
  by_cases hp : pt = 0
  · simp [tmrEval, tmrCase, tmrStart, hi, hr, hp]
  · simp [tmrEval, tmrCase, tmrStart, hi, hr, hp]
    omega

theorem trst_on : let n := tmrEval .trst b true pt tbase runid; n.q = false ∧ n.et = 0 ∧ n.run = false ∧ n.pt = b.pt := by
  simp [tmrEval, tmrCase, tmrStop]

theorem trst_off :
    let n := tmrEval .trst b false pt tbase runid; n.q = b.q ∧ n.et = b.et ∧ n.run = b.run ∧ n.pt = b.pt := by
  simp [tmrEval, tmrCase]

variable (hl : b.last < 4294967296) (ht : tbase < 4294967296)
include hl ht

/-- The end of an advance: the timer runs on until it has reached its preset. -/
theorem ton_runs (hi : b.inp = true) (hr : b.run = true) :
    let n := tmrEval .ton b true pt tbase runid
    let e := tmrReached b pt (tmrElapsed b tbase runid)
    n.et = e ∧ n.q = decide (pt = e) ∧ n.run = decide (pt ≠ e) ∧
      (pt ≠ e → n.rem = (b.rem + tmrElapsed b tbase runid) % unitUs b.unit) := by
  intro n e
  have he : e ≤ pt := Nat.min_le_left _ _
  have hmin : min (b.et + (b.rem + tmrElapsed b tbase runid) / unitUs b.unit) pt = e := Nat.min_comm _ _
  by_cases hp : pt = e
  · simp [n, tmrEval, tmrElapsed_eq b hl ht, tmrCase, tmrAdvance, hi, hr, hmin, ← hp]
  · have hlt : ¬ pt ≤ e := by omega
    simp [n, tmrEval, tmrElapsed_eq b hl ht, tmrCase, tmrAdvance, hi, hr, hmin, hp, hlt]

theorem tof_runs (hi : b.inp = false) (hr : b.run = true) :
    let n := tmrEval .tof b false pt tbase runid
    let e := tmrReached b pt (tmrElapsed b tbase runid)
    n.et = e ∧ n.q = decide (e < pt) := by
  intro n e
  have he : e ≤ pt := Nat.min_le_left _ _
  have hmin : min (b.et + (b.rem + tmrElapsed b tbase runid) / unitUs b.unit) pt = e := Nat.min_comm _ _
  by_cases hp : pt = e
  · simp [n, tmrEval, tmrElapsed_eq b hl ht, tmrCase, tmrAdvance, hi, hr, hmin, ← hp]
  · have hlt : ¬ pt ≤ e := by omega
    simp [n, tmrEval, tmrElapsed_eq b hl ht, tmrCase, tmrAdvance, hi, hr, hmin, hlt]
    omega

theorem tp_runs (inp : Bool) (hr : b.run = true) :
    let n := tmrEval .tp b inp pt tbase runid
    let e := tmrReached b pt (tmrElapsed b tbase runid)
    n.q = decide (e < pt) ∧ (inp = true → n.et = e) ∧ (inp = false → n.et = if e < pt then e else 0) := by
  intro n e
  have he : e ≤ pt := Nat.min_le_left _ _
  have hmin : min (b.et + (b.rem + tmrElapsed b tbase runid) / unitUs b.unit) pt = e := Nat.min_comm _ _
  by_cases hp : pt = e
  · cases inp <;> simp [n, tmrEval, tmrElapsed_eq b hl ht, tmrCase, tmrAdvance, hr, hmin, ← hp]
  · have hlt : e < pt := by omega
    have hle : ¬ pt ≤ e := by omega
    cases inp <;> simp [n, tmrEval, tmrElapsed_eq b hl ht, tmrCase, tmrAdvance, hr, hmin, hlt, hle]

end

/-- Settles O23: each timer function in each of its cases. -/
theorem timerRules : Obligations.TimerRules := by
  unfold Obligations.TimerRules
  intro b inp pt tbase runid hl ht d u e n
  have he : e = tmrReached b pt (tmrElapsed b tbase runid) := by
    have hu : u = unitUs b.unit := unitUs_eq b.unit
    rw [tmrReached, ← hu]
    rfl
  rw [he]
  refine ⟨fun f => tmrEval_stamps b f inp, ?_, ?_, ?_, ?_, ?_, ?_, ?_, ?_, ?_, ?_⟩
  · rintro rfl; exact ton_off b
  · rintro rfl hi; exact ton_rises b hi
  · rintro rfl hi hr
    have hu : u = unitUs b.unit := unitUs_eq b.unit
    rw [hu]
    exact ton_runs b hl ht hi hr
  · rintro rfl; exact tof_on b
  · rintro rfl hi; exact tof_falls b hi
  · rintro rfl hi hr; exact tof_runs b hl ht hi hr
  · rintro rfl hi hr; exact tp_rises b hi hr
  · exact fun hr => tp_runs b hl ht inp hr
  · rintro rfl; exact trst_on b
  · rintro rfl; exact trst_off b

end Sys2Proof.Machine

namespace Sys2Proof.Machine

/-! ### The line access of a block and its words (R51, R75, R91) -/

/-- The words of `l`, each stored whole at its offset from `base`. -/
def storeBlock (base : Nat) (l : List (Nat × DWord)) (s : State) : State :=
  l.foldl (fun u p => writeBits (base + p.1) 0xFFFFFFFF p.2.val p.2.tag u) s

/-- The writes of these words. -/
def blockMem (base : Nat) (l : List (Nat × DWord)) : List LeWrite :=
  l.map (fun p => .mem (BitVec.ofNat 21 (base + p.1)) 0xFFFFFFFF p.2.val p.2.tag)

/-- What word `b` holds once the words of `l` are stored over `d`. -/
def blockWord (base : Nat) (l : List (Nat × DWord)) (b : Nat) (d : DWord) : DWord :=
  l.foldl (fun d p => if b = base + p.1 then p.2 else d) d

theorem storeFrame_storeBlock (base : Nat) (l : List (Nat × DWord)) (s : State) : StoreFrame s (storeBlock base l s) :=
  .foldl _ (fun u _ => storeFrame_writeBits _ _ _ _ u) l s

/-- The block of eight words lies in the timer and counter area. -/
def blockBase (base : Nat) : Prop := 0x1E0000 ≤ base ∧ base + 8 ≤ 0x200000

theorem plainWord_storeBlock {s : State} (hm : memOk s = true) {base : Nat} (hb : blockBase base) {l : List (Nat × DWord)}
    (hl : ∀ p ∈ l, p.1 < 8) (b : Nat) : plainWord (storeBlock base l s) b = blockWord base l b (plainWord s b) := by
  induction l generalizing s with
  | nil => rfl
  | cons p l ih =>
    have hp : p.1 < 8 := hl p (List.mem_cons_self ..)
    obtain ⟨hlo, hhi⟩ := hb
    have hkept : keptWord (base + p.1) = true := by
      simp [keptWord, inT]
      omega
    have hq : qPacked (base + p.1) = false := by
      simp [qPacked]
      omega
    rw [storeBlock, List.foldl_cons]
    refine (ih (memOk_writeBits hm _ _ _ _) fun q hq => hl q (List.mem_cons_of_mem _ hq)).trans ?_
    rw [plainWord_writeBits hm hq, blockWord, blockWord, List.foldl_cons, hkept]
    have hall : ∀ v : Word, v &&& 4294967295#32 = v := fun v => BitVec.and_allOnes
    simp [hall]

/-- The writes of a block, beside the open bundle. -/
theorem foldl_blockMem {base : Nat} (hb : blockBase base) {l : List (Nat × DWord)} (hl : ∀ p ∈ l, p.1 < 8) (k : Nat)
    (u : State) (e : LaneEff) :
    (blockMem base l).foldl (applyWrite k) (openB u e) = openB (storeBlock base l u) e := by
  induction l generalizing u with
  | nil => rfl
  | cons p l ih =>
    have hp : p.1 < 8 := hl p (List.mem_cons_self ..)
    obtain ⟨hlo, hhi⟩ := hb
    have hn : (BitVec.ofNat 21 (base + p.1)).toNat = base + p.1 := by
      rw [BitVec.toNat_ofNat]
      exact Nat.mod_eq_of_lt (by omega)
    have hstep : applyWrite k (openB u e) (.mem (BitVec.ofNat 21 (base + p.1)) 0xFFFFFFFF p.2.val p.2.tag) =
        openB (writeBits (base + p.1) 0xFFFFFFFF p.2.val p.2.tag u) e := by
      simp only [applyWrite, hn, writeBits_openB]
      exact if_neg (by decide)
    rw [blockMem, List.map_cons, List.foldl_cons, hstep]
    exact ih (fun q hq => hl q (List.mem_cons_of_mem _ hq)) _

/-- The writes of an instruction to its own lane, which then holds `y`. -/
def LaneWrites (s : State) (c : At) (ws : List LeWrite) (y : LaneSt) : Prop :=
  (∀ i v, LeWrite.sys i v ∉ ws) ∧ ∃ L, LaneTakes s c L y ∧ ∀ k u x, u.le = s.le →
    ws.foldl (applyWrite k) (openB u x) = openB (withLe { s.le with lanes := L } u) x

theorem laneWrites_nil (s : State) (c : At) : LaneWrites s c [] (lane s c.lane.toNat) :=
  ⟨by simp, _, laneTakes_self s c, fun k u x hu => by rw [← hu]; rfl⟩

theorem laneWrites_rlo {c : At} {s : State} (h : aloneIn c s = true) (b : Bool) (g : Tag) :
    LaneWrites s c [wrRlo c b g] { lane s c.lane.toNat with rlo := ⟨b, g⟩ } :=
  ⟨by simp [wrRlo], _, laneTakes_put h _, fun k u x hu => by
    simp only [wrRlo, List.foldl, applyWrite, lane_openB, lanePut_openB]
    simp only [lanePut, lane, hu]
    rfl⟩

theorem laneWrites_stack_rlo {c : At} {s : State} (h : aloneIn c s = true) (st : List Rlo) (b : Bool) (g : Tag) :
    LaneWrites s c [.stack c.lane st, wrRlo c b g] { lane s c.lane.toNat with stack := st, rlo := ⟨b, g⟩ } :=
  ⟨by simp [wrRlo], _, laneTakes_put h _, fun k u x hu => by
    have hwf : mwf (fun _ => ({} : LaneSt)) u.le.lanes = true := hu ▸ lanesWf h
    simp only [wrRlo, List.foldl, applyWrite, lane_openB, lanePut_openB, lane_lanePut hwf, lanePut_lanePut hwf]
    simp only [lanePut, lane, hu]
    rfl⟩

section
variable {c : At} {s : State} {base : Nat}

theorem quietBlock_parts (hq : quietBlock s base = true) {i : Nat} (hi : i < 8) :
    quietRead s (base + i) = true ∧ writeViol s (base + i) = [] := by
  have := List.all_eq_true.mp hq i (List.mem_range.mpr hi)
  simp only [Bool.and_eq_true] at this
  exact ⟨this.1, List.isEmpty_iff.mp this.2⟩

theorem leRead_block (hq : quietBlock s base = true) {i : Nat} (hi : i < 8) : leRead s (base + i) = readWord s (base + i) :=
  (leRead_quiet (quietBlock_parts hq hi).1).1

/-- A word of the block reads as it is stored. -/
theorem readWord_block (hb : blockBase base) (hq : quietBlock s base = true) {i : Nat} (hi : i < 8) :
    readWord s (base + i) = plainWord s (base + i) := by
  obtain ⟨hlo, hhi⟩ := hb
  have hp : isPacked (base + i) = false := by
    simp [isPacked, qPacked]
    omega
  have hf : readFaults s (base + i) = [] := by
    have := (quietBlock_parts hq hi).1
    simp only [quietRead, Bool.and_eq_true, List.isEmpty_iff] at this
    exact this.2
  simp only [readFaults, hp, Bool.false_eq_true, if_false, readFault] at hf
  rw [readWord, hp]
  simp only [Bool.false_eq_true, if_false, readPlain]
  refine if_neg fun h => ?_
  rcases (Bool.or_eq_true _ _).mp h with h | h
  · replace h := of_decide_eq_true h
    rw [upsetOf, if_pos h] at hf
    simp at hf
  · rw [h] at hf
    split at hf <;> simp at hf

/-- The line access of a block that may be read and written finds nothing. -/
theorem lineEff_quiet (hq : quietBlock s base = true) :
    lineEff s c base = { effNop c with reads := [lineKey base], stores := [lineKey base], cycles := 2 } := by
  have hviol : ∀ i < 8, readViol s (base + i) = [] ∧ writeViol s (base + i) = [] ∧ leReadFaults s (base + i) = [] :=
    fun i hi => by
      obtain ⟨hr, hw⟩ := quietBlock_parts hq hi
      obtain ⟨-, hv, hf⟩ := leRead_quiet hr
      exact ⟨hv, hw, hf⟩
  have hflat : ∀ {α : Type} (f : Nat → List α), (∀ i < 8, f (base + i) = []) →
      ((List.range 8).map (fun i => base + i)).flatMap f = [] := fun f hf => by
    rw [List.flatMap_eq_nil_iff]
    intro x hx
    obtain ⟨i, hi, rfl⟩ := List.mem_map.mp hx
    exact hf i (List.mem_range.mp hi)
  simp only [lineEff, hflat _ (fun i hi => (hviol i hi).1), hflat _ (fun i hi => (hviol i hi).2.1),
    hflat _ (fun i hi => (hviol i hi).2.2), List.append_nil]
  rfl

/-- The write-back of the line access from offset `lo` on. -/
theorem lineBack_quiet (hb : blockBase base) (hq : quietBlock s base = true) (lo : Nat) :
    lineBack s base lo = blockMem base ((List.range (8 - lo)).map (fun i => (lo + i, plainWord s (base + (lo + i))))) := by
  rw [lineBack, blockMem, List.map_map, ← List.flatMap_singleton' ((List.range (8 - lo)).map _), List.flatMap_map]
  refine List.flatMap_congr fun i hi => ?_
  have hlt : lo + i < 8 := by
    have := List.mem_range.mp hi
    omega
  rw [Nat.add_assoc, leRead_block hq hlt, readWord_block hb hq hlt]
  simp only [storeWrite, (quietBlock_parts hq hlt).2, if_true]
  rfl

theorem blockWrites_quiet (hq : quietBlock s base = true) {l : List (Nat × Word)} (hl : ∀ p ∈ l, p.1 < 8) (t : Tag) :
    blockWrites s base l t = blockMem base (l.map (fun p => (p.1, ⟨p.2, t⟩))) := by
  rw [blockWrites, blockMem, List.map_map, ← List.flatMap_singleton' (l.map _), List.flatMap_map]
  refine List.flatMap_congr fun p hp => ?_
  simp only [storeWrite, (quietBlock_parts hq (hl p hp)).2, if_true]
  rfl

/-- A block instruction alone in its bundle, with the words `l` that it writes and what it writes to its lane. -/
theorem blockEff_ends (h : aloneIn c s = true) (hm : memOk s = true) (hb : blockBase base) (hq : quietBlock s base = true)
    {e : LaneEff} {l : List (Nat × Word)} {g : Tag} {lo : Nat} {ws : List LeWrite} {y : LaneSt} (hl : ∀ p ∈ l, p.1 < 8)
    (he : e = { lineEff s c base with writes := blockWrites s base l g ++ lineBack s base lo ++ ws })
    (hy : LaneWrites s c ws y) :
    ∃ t, (.next (leIssue c e s) : Out) = .next t ∧ bundleEnds s t c y ∧ ∀ b, plainWord t b =
      blockWord base (l.map (fun p => (p.1, ⟨p.2, g⟩)) ++
        (List.range (8 - lo)).map (fun i => (lo + i, plainWord s (base + (lo + i))))) b (plainWord s b) := by
  rw [lineEff_quiet hq, blockWrites_quiet hq hl, lineBack_quiet hb hq, blockMem, blockMem, ← List.map_append] at he
  obtain ⟨hsys, L, hL, hw⟩ := hy
  have hoff : ∀ p ∈ l.map (fun p => (p.1, (⟨p.2, g⟩ : DWord))) ++
      (List.range (8 - lo)).map (fun i => (lo + i, plainWord s (base + (lo + i)))), p.1 < 8 := by
    intro p hp
    rcases List.mem_append.mp hp with hp | hp
    · obtain ⟨q, hql, rfl⟩ := List.mem_map.mp hp
      exact hl q hql
    · obtain ⟨i, hi, rfl⟩ := List.mem_map.mp hp
      have := List.mem_range.mp hi
      dsimp only
      omega
  obtain ⟨t, ht, hend, hword, -⟩ := bundleEnds_of h he rfl rfl rfl rfl rfl (fun i v hmem => by
      rcases List.mem_append.mp hmem with hmem | hmem
      · obtain ⟨p, -, hp⟩ := List.mem_map.mp hmem
        cases hp
      · exact hsys i v hmem)
    (fun k x => by
      rw [List.foldl_append]
      exact (congrArg (List.foldl (applyWrite k) · ws) (foldl_blockMem hb hoff k s x)).trans
        (hw k _ x (storeFrame_storeBlock base _ s).le))
    (storeFrame_storeBlock base _ s) hL
  exact ⟨t, ht, hend, fun b => (hword b).trans (plainWord_storeBlock hm hb hoff b)⟩

end

end Sys2Proof.Machine

namespace Sys2Proof.Machine

/-! ### Timer and counter instructions (R75–R78) -/

section
variable {c : At} {s : State}

/-- The words of a timer block that an execution writes after the preset. -/
def timerBody (n : TimerBlk) : List (Nat × Word) := [(1, wordOf n.et), (2, wordOf n.rem), (3, wordOf n.last), (4, timerState n)]

theorem timerOf_leRead {base : Nat} (hq : quietBlock s base = true) :
    timerOf (fun i => (leRead s (base + i)).val) = timerOf (fun i => (readWord s (base + i)).val) := by
  simp only [timerOf, leRead_block hq (show 0 < 8 by decide), leRead_block hq (show 1 < 8 by decide),
    leRead_block hq (show 2 < 8 by decide), leRead_block hq (show 3 < 8 by decide), leRead_block hq (show 4 < 8 by decide)]

theorem blockBase_timer (j : BitVec 13) : blockBase (0x1E0000 + 8 * j.toNat) := by
  have := j.isLt
  constructor <;> omega

theorem blockBase_counter (j : BitVec 13) : blockBase (0x1F0000 + 8 * j.toNat) := by
  have := j.isLt
  constructor <;> omega

/-- A word below the block is not written. -/
theorem blockWord_below {base b : Nat} (hb : b < base) (l : List (Nat × DWord)) (d : DWord) : blockWord base l b d = d := by
  induction l with
  | nil => rfl
  | cons p l ih =>
    rw [blockWord, List.foldl_cons, if_neg (by omega)]
    exact ih

/-- A word of the block takes what was stored last at its offset. -/
theorem blockWord_at (base i : Nat) (l : List (Nat × DWord)) (d : DWord) :
    blockWord base l (base + i) d = l.foldl (fun d p => if i = p.1 then p.2 else d) d := by
  simp only [blockWord, Nat.add_left_cancel_iff]

/-- The block of TON, TOF and TP. -/
theorem tmrEff_ends (h : aloneIn c s = true) (hm : memOk s = true) (a : BitVec 3) (j : BitVec 13)
    (hq : quietBlock s (0x1E0000 + 8 * j.toNat) = true) {f : TmrFn} (hf : f ≠ .trst) :
    let base := 0x1E0000 + 8 * j.toNat
    let x := lane s c.lane.toNat
    let n := tmrEval f (timerOf (fun i => (readWord s (base + i)).val)) x.rlo.bit (accA s c a).val.toNat s.tick.tbase.toNat
      s.tick.runid.toNat
    let g := tag2 x.rlo.tag (accA s c a).tag
    ∃ t, (.next (leIssue c (tmrEff s c f a j) s) : Out) = .next t ∧
      (∀ k, plainWord t (base + k) = (match k with
        | 0 => ⟨BitVec.ofNat 32 n.pt, g⟩ | 1 => ⟨BitVec.ofNat 32 n.et, g⟩ | 2 => ⟨BitVec.ofNat 32 n.rem, g⟩
        | 3 => ⟨BitVec.ofNat 32 n.last, g⟩ | 4 => ⟨timerState n, g⟩ | _ => plainWord s (base + k))) ∧
      (∀ k < base, plainWord t k = plainWord s k) ∧ bundleEnds s t c { x with rlo := ⟨n.q, g⟩ } := by
  intro base x n g
  have he : tmrEff s c f a j = { lineEff s c base with
      writes := blockWrites s base ((0, wordOf n.pt) :: timerBody n) g ++ lineBack s base 5 ++ [wrRlo c n.q g] } := by
    simp only [tmrEff, hf, false_and, if_false, timerOf_leRead hq]
    rfl
  obtain ⟨t, ht, hend, hword⟩ := blockEff_ends h hm (blockBase_timer j) hq (by simp [timerBody]) he (laneWrites_rlo h n.q g)
  refine ⟨t, ht, fun k => ?_, fun k hk => (hword k).trans (blockWord_below hk _ _), hend⟩
  refine (hword _).trans ((blockWord_at _ k _ _).trans ?_)
  simp only [timerBody, List.map, List.range, List.range.loop, List.cons_append, List.nil_append, List.foldl]
  rcases k with _ | _ | _ | _ | _ | _ | _ | _ | k
  case succ.succ.succ.succ.succ.succ.succ.succ => simp
  all_goals rfl

/-- The block of TRST, which keeps its preset. -/
theorem trstEff_ends (h : aloneIn c s = true) (hm : memOk s = true) (j : BitVec 13)
    (hq : quietBlock s (0x1E0000 + 8 * j.toNat) = true) :
    let base := 0x1E0000 + 8 * j.toNat
    let x := lane s c.lane.toNat
    let n := tmrEval .trst (timerOf (fun i => (readWord s (base + i)).val)) x.rlo.bit 0 s.tick.tbase.toNat s.tick.runid.toNat
    ∃ t, (.next (leIssue c (tmrEff s c .trst 0 j) s) : Out) = .next t ∧ bundleEnds s t c x ∧
      (∀ k < base, plainWord t k = plainWord s k) ∧
      ∀ k, plainWord t (base + k) = (match k with
        | 1 => ⟨BitVec.ofNat 32 n.et, x.rlo.tag⟩ | 2 => ⟨BitVec.ofNat 32 n.rem, x.rlo.tag⟩
        | 3 => ⟨BitVec.ofNat 32 n.last, x.rlo.tag⟩ | 4 => ⟨timerState n, x.rlo.tag⟩ | _ => plainWord s (base + k)) := by
  intro base x n
  have he : tmrEff s c .trst 0 j = { lineEff s c base with
      writes := blockWrites s base (timerBody n) x.rlo.tag ++ lineBack s base 5 ++ [] } := by
    simp only [tmrEff, ne_eq, not_true_eq_false, and_false, if_false, timerOf_leRead hq]
    rfl
  obtain ⟨t, ht, hend, hword⟩ := blockEff_ends h hm (blockBase_timer j) hq (by simp [timerBody]) he (laneWrites_nil s c)
  refine ⟨t, ht, hend, fun k hk => (hword k).trans (blockWord_below hk _ _), fun k => ?_⟩
  refine (hword _).trans ((blockWord_at _ k _ _).trans ?_)
  simp only [timerBody, List.map, List.range, List.range.loop, List.cons_append, List.nil_append, List.foldl]
  rcases k with _ | _ | _ | _ | _ | _ | _ | _ | k
  case succ.succ.succ.succ.succ.succ.succ.succ => simp
  all_goals rfl

end

/-- Settles O22: each timer function through the rule of its block. -/
theorem leTimers : Obligations.LeTimers := by
  unfold Obligations.LeTimers
  intro s c a j h hm hq
  exact ⟨tmrEff_ends h hm a j hq (by decide), tmrEff_ends h hm a j hq (by decide), tmrEff_ends h hm a j hq (by decide),
    trstEff_ends h hm j hq⟩

/-! ### Counters (R78) -/

/-- The count that an addition reaches, kept within its range. -/
theorem satCount_succ (v : Word) : satCount (v.toInt + 1) = if v = 0x7FFFFFFF then v else v + 1 := by
  have hlt := v.toInt_lt
  have hle := v.le_toInt
  unfold satCount sat32
  split
  · next h => 
    have : v = 0x7FFFFFFF := by
      apply BitVec.eq_of_toInt_eq
      have : (0x7FFFFFFF : Word).toInt = 2147483647 := by decide
      omega
    rw [if_pos this, this]
  · next h =>
    rw [if_neg (by omega), if_neg (by rintro rfl; exact h (by decide))]
    simp [wrap, BitVec.ofInt_add]

theorem satCount_pred (v : Word) : satCount (v.toInt - 1) = if v = 0x80000000 then v else v - 1 := by
  have hlt := v.toInt_lt
  have hle := v.le_toInt
  unfold satCount sat32
  rw [if_neg (by omega)]
  split
  · next h =>
    have : v = 0x80000000 := by
      apply BitVec.eq_of_toInt_eq
      have : (0x80000000 : Word).toInt = -2147483648 := by decide
      omega
    rw [if_pos this, this]
  · next h =>
    rw [if_neg (by rintro rfl; exact h (by decide))]
    simp [wrap, Int.sub_eq_add_neg, BitVec.ofInt_add, BitVec.sub_eq_add_neg]

section
variable {c : At} {s : State}

/-- The word +2 of a counter block. -/
theorem counterState_eq (p n : Word) (cu cd : Bool) :
    wordOf (b2n (decide (p.toInt ≤ n.toInt)) + 2 * b2n (decide (n.toInt ≤ 0)) + 4 * b2n cu + 8 * b2n cd) =
      BitVec.ofNat 32 ((if p.toInt ≤ n.toInt then 1 else 0) + (if n.toInt ≤ 0 then 2 else 0) + (if cu then 4 else 0) +
        (if cd then 8 else 0)) := by
  have hb : ∀ (m : Nat) (b : Bool), m * b2n b = if b then m else 0 := fun m b => by cases b <;> simp [b2n]
  rw [wordOf, hb, hb, hb]
  simp only [b2n, decide_eq_true_eq]

/-- The block of a counter: its preset, count and state are written, and its other words written back. -/
theorem counter_ends (h : aloneIn c s = true) (hm : memOk s = true) (j : BitVec 13)
    (hq : quietBlock s (0x1F0000 + 8 * j.toNat) = true) {e : LaneEff} {p n st : Word} {cu cd : Bool} {g : Tag}
    {ws : List LeWrite} {y : LaneSt} 
    (he : e = { lineEff s c (0x1F0000 + 8 * j.toNat) with
      writes := blockWrites s (0x1F0000 + 8 * j.toNat) [(0, p), (1, n), (2, st)] g ++ lineBack s (0x1F0000 + 8 * j.toNat) 3 ++ ws })
    (hst : st = wordOf (b2n (decide (p.toInt ≤ n.toInt)) + 2 * b2n (decide (n.toInt ≤ 0)) + 4 * b2n cu + 8 * b2n cd))
    (hy : LaneWrites s c ws y) :
    let base := 0x1F0000 + 8 * j.toNat
    ∃ t, (.next (leIssue c e s) : Out) = .next t ∧ bundleEnds s t c y ∧ ∀ k, plainWord t k =
        if k = base then ⟨p, g⟩
        else if k = base + 1 then ⟨n, g⟩
        else if k = base + 2 then ⟨BitVec.ofNat 32 ((if p.toInt ≤ n.toInt then 1 else 0) +
          (if n.toInt ≤ 0 then 2 else 0) + (if cu then 4 else 0) + (if cd then 8 else 0)), g⟩
        else plainWord s k := by
  intro base
  obtain ⟨t, ht, hend, hword⟩ := blockEff_ends h hm (blockBase_counter j) hq (by simp) he hy
  refine ⟨t, ht, hend, fun k => ?_⟩
  rw [hword, ← counterState_eq, ← hst]
  by_cases hk : k < base
  · rw [blockWord_below hk, if_neg (by omega), if_neg (by omega), if_neg (by omega)]
  · obtain ⟨i, rfl⟩ := Nat.exists_eq_add_of_le (Nat.le_of_not_lt hk)
    refine (blockWord_at _ i _ _).trans ?_
    simp only [List.map, List.range, List.range.loop, List.cons_append, List.nil_append, List.foldl]
    rcases i with _ | _ | _ | _ | _ | _ | _ | _ | i
    all_goals simp [base]

/-- The count-up input that an execution leaves in STATE. -/
def ctrUp (f : CtrFn) (r old : Bool) : Bool := match f with | .ctu | .ctud => r | _ => old

/-- The count-down input that an execution leaves in STATE. -/
def ctrDown (f : CtrFn) (r top old : Bool) : Bool := match f with | .ctd => r | .ctud => top | _ => old

/-- What a counter instruction writes to its lane. -/
def ctrLane (c : At) (x : LaneSt) (f : CtrFn) (qu qd : Bool) (g : Tag) : List LeWrite :=
  match f with
  | .ctu => [wrRlo c qu g]
  | .ctd => [wrRlo c qd g]
  | .ctud => [.stack c.lane x.stack.tail, wrRlo c qu g]
  | _ => []

/-- What a counter instruction writes to its block. -/
theorem ctrEff_eq (a : BitVec 3) (j : BitVec 13) (hq : quietBlock s (0x1F0000 + 8 * j.toNat) = true) (f : CtrFn)
    (hst : f = .ctud → (lane s c.lane.toNat).stack ≠ []) :
    let base := 0x1F0000 + 8 * j.toNat
    let r := (lane s c.lane.toNat).rlo
    let A := accA s c a
    let cv := (readWord s (base + 1)).val
    let w := (readWord s (base + 2)).val
    let top := (lane s c.lane.toNat).stack.headD {}
    let cu := ctrUp f r.bit (w.getLsbD 2)
    let cd := ctrDown f r.bit top.bit (w.getLsbD 3)
    let n := ctrCount f cv A.val (cu && !w.getLsbD 2) (cd && !w.getLsbD 3) r.bit
    let g := if f = .ctud then tag2 (tag2 r.tag top.tag) A.tag else tag2 r.tag A.tag
    ctrEff s c f a j = { lineEff s c base with
      writes := blockWrites s base [(0, A.val), (1, n), (2, wordOf (b2n (decide (A.val.toInt ≤ n.toInt)) +
        2 * b2n (decide (n.toInt ≤ 0)) + 4 * b2n cu + 8 * b2n cd))] g ++ lineBack s base 3 ++
        ctrLane c (lane s c.lane.toNat) f (decide (A.val.toInt ≤ n.toInt)) (decide (n.toInt ≤ 0)) g } := by
  have h1 := leRead_block hq (show 1 < 8 by decide)
  have h2 := leRead_block hq (show 2 < 8 by decide)
  cases f
  case ctud =>
    replace hst := hst rfl
    unfold ctrEff
    simp only [h1, h2, ctrLane]
    generalize (lane s c.lane.toNat).stack = st at hst ⊢
    cases st with
    | nil => exact absurd rfl hst
    | cons t l => rfl
  all_goals
    unfold ctrEff
    simp only [h1, h2]
    rfl

end

/-- Settles O24: each counter function through the rule of its block. -/
theorem leCounters : Obligations.LeCounters := by
  unfold Obligations.LeCounters
  intro s c a j h hm hq base x r A cv cu cd up dn done g
  have heq := ctrEff_eq (c := c) a j hq
  refine ⟨?ctu, ?ctd, ?crst, ?cload, fun top rest hstack => ?ctud, fun hstack => ?empty⟩
  case ctu =>
    refine counter_ends h hm j hq ((heq .ctu nofun).trans ?_) rfl (laneWrites_rlo h _ _)
    simp only [ctrCount, satCount_succ]
    rfl
  case ctd =>
    refine counter_ends h hm j hq ((heq .ctd nofun).trans ?_) rfl (laneWrites_rlo h _ _)
    simp only [ctrCount, satCount_pred]
    rfl
  case crst => exact counter_ends h hm j hq (heq .crst nofun) rfl (laneWrites_nil s c)
  case cload => exact counter_ends h hm j hq (heq .cload nofun) rfl (laneWrites_nil s c)
  case ctud =>
    intro n g3
    refine counter_ends h hm j hq ((heq .ctud fun _ => by simp [x] at hstack; simp [hstack]).trans ?_) rfl
      (laneWrites_stack_rlo h rest _ _)
    simp only [x] at hstack
    simp only [ctrCount, satCount_succ, satCount_pred, hstack, ctrUp, ctrDown, ctrLane, List.headD, List.tail_cons, if_true]
    rfl
  case empty =>
    have he : ctrEff s c .ctud a j = { lineEff s c base with traps := [5] } := by
      simp only [x] at hstack
      unfold ctrEff
      simp only [hstack]
      rfl
    rw [lineEff_quiet hq] at he
    have ht := leIssue_traps h _ 5 (congrArg LaneEff.lane he) (congrArg LaneEff.traps he) rfl (congrArg LaneEff.viols he) (congrArg LaneEff.memFaults he)
    exact ht

end Sys2Proof.Machine

/-! ## Floating operations -/

namespace Sys2Proof.Machine

/-! ### The classes of a binary32 word, by its magnitude (R71) -/

def fpMag (z : Word) : Nat := z.toNat % 0x80000000
def fpNan (z : Word) : Prop := 0x7F800000 < fpMag z
def fpSig (z : Word) : Prop := fpNan z ∧ fpMag z < 0x7FC00000
def fpInf (z : Word) : Prop := fpMag z = 0x7F800000
def fpZero (z : Word) : Prop := fpMag z < 0x00800000
def fpFin (z : Word) : Prop := ¬ fpNan z ∧ ¬ fpInf z ∧ ¬ fpZero z

theorem fpMag_exponent (z : Word) : z.toNat / 8388608 % 256 = fpMag z / 8388608 ∧ z.toNat % 8388608 = fpMag z % 8388608 := by
  have := z.isLt
  unfold fpMag
  omega

section
variable {x y z : Word}

theorem fDecode_nan (h : fpNan z) : fDecode z = .nan (decide (fpMag z < 0x7FC00000)) := by
  obtain ⟨he, hf⟩ := fpMag_exponent z
  have hlt : fpMag z < 0x80000000 := Nat.mod_lt _ (by decide)
  unfold fpNan at h
  simp only [fDecode, he, hf]
  rw [if_pos (by omega), if_neg (by omega)]
  congr 1
  simp only [decide_eq_decide]
  omega

theorem fDecode_inf (h : fpInf z) : fDecode z = .inf (fSign z) := by
  obtain ⟨he, hf⟩ := fpMag_exponent z
  unfold fpInf at h
  simp only [fDecode, he, hf]
  rw [if_pos (by omega), if_pos (by omega)]

theorem fDecode_zero (h : fpZero z) : fDecode z = .zero (fSign z) := by
  obtain ⟨he, hf⟩ := fpMag_exponent z
  unfold fpZero at h
  simp only [fDecode, he, hf]
  rw [if_neg (by omega), if_pos (by omega)]

theorem fDecode_fin (h : fpFin z) :
    fDecode z = .fin (fSign z) (fpMag z % 8388608 + 8388608) (((fpMag z / 8388608 : Nat) : Int) - 150) := by
  obtain ⟨he, hf⟩ := fpMag_exponent z
  obtain ⟨hn, hi, hz⟩ := h
  unfold fpNan fpInf fpZero at *
  simp only [fDecode, he, hf]
  rw [if_neg (by omega), if_neg (by omega)]

/-- A word is a NaN, an infinity, a zero or a finite value. -/
theorem fp_cases (z : Word) : fpNan z ∨ fpInf z ∨ fpZero z ∨ fpFin z := by
  unfold fpFin
  tauto

theorem fDecode_sig : fDecode z = .nan true ↔ fpSig z := by
  unfold fpSig
  rcases fp_cases z with h | h | h | h
  · simp [fDecode_nan h, h]
  · simp only [fDecode_inf h, reduceCtorEq, false_iff]
    unfold fpInf at h; unfold fpNan; omega
  · simp only [fDecode_zero h, reduceCtorEq, false_iff]
    unfold fpZero at h; unfold fpNan; omega
  · simp only [fDecode_fin h, reduceCtorEq, false_iff]
    exact fun hs => h.1 hs.1

theorem anySig_iff : anySig (fDecode x) (fDecode y) = true ↔ fpSig x ∨ fpSig y := by
  rw [anySig, Bool.or_eq_true, decide_eq_true_eq, decide_eq_true_eq, fDecode_sig, fDecode_sig]

theorem fFlip_mag (z : Word) : fpMag (fFlip z) = fpMag z := by
  have h31 : (0x80000000 : Nat) = 2 ^ 31 := rfl
  rw [fpMag, fpMag, fFlip, BitVec.toNat_xor, h31, Nat.xor_mod_two_pow]
  simp

@[simp] theorem fFlip_sign (z : Word) : fSign (fFlip z) = !fSign z := by
  rw [fSign, fFlip, BitVec.getLsbD_xor]
  simp [fSign]

theorem fFlip_nan (z : Word) : fpNan (fFlip z) ↔ fpNan z := by rw [fpNan, fFlip_mag]; rfl
theorem fFlip_sig (z : Word) : fpSig (fFlip z) ↔ fpSig z := by rw [fpSig, fFlip_nan, fFlip_mag]; rfl
theorem fFlip_inf (z : Word) : fpInf (fFlip z) ↔ fpInf z := by rw [fpInf, fFlip_mag]; rfl
theorem fFlip_zero (z : Word) : fpZero (fFlip z) ↔ fpZero z := by rw [fpZero, fFlip_mag]; rfl

/-! ### NaN operands -/

/-- An operation that delivers the NaN wherever an operand is one, with FI for a signalling NaN. -/
def NanStrict (f : Word → Word → Word × FlagSet) : Prop :=
  ∀ x y, fpNan x ∨ fpNan y → f x y = (qNaN, if anySig (fDecode x) (fDecode y) then fFI else 0)

theorem nanStrict_fAdd : NanStrict fAdd := by
  rintro x y (h | h)
  · simp only [fAdd, fDecode_nan h, fAddV]
  · simp only [fAdd, fDecode_nan h]
    cases fDecode x <;> simp only [fAddV]

theorem nanStrict_fSub : NanStrict fSub := by
  intro x y h
  have hsig : anySig (fDecode x) (fDecode (fFlip y)) = anySig (fDecode x) (fDecode y) := by
    rw [Bool.eq_iff_iff, anySig_iff, anySig_iff, fFlip_sig]
  rw [← hsig]
  exact nanStrict_fAdd x (fFlip y) (by rwa [fFlip_nan])

theorem nanStrict_fMul : NanStrict fMul := by
  rintro x y (h | h)
  · simp only [fMul, fDecode_nan h]
  · simp only [fMul, fDecode_nan h]
    cases fDecode x <;> simp only

theorem nanStrict_fDiv : NanStrict fDiv := by
  rintro x y (h | h)
  · simp only [fDiv, fDecode_nan h]
  · simp only [fDiv, fDecode_nan h]
    cases fDecode x <;> simp only

theorem NanStrict.signals {f : Word → Word → Word × FlagSet} (hf : NanStrict f) (h : fpNan x ∨ fpNan y) (hs : fpSig x ∨ fpSig y) :
    f x y = (0x7FC00000, 4) := by
  rw [hf x y h, if_pos (anySig_iff.mpr hs)]; rfl

theorem NanStrict.quiet {f : Word → Word → Word × FlagSet} (hf : NanStrict f) (h : fpNan x ∨ fpNan y) (hx : ¬ fpSig x)
    (hy : ¬ fpSig y) : f x y = (0x7FC00000, 0) := by
  rw [hf x y h, if_neg (by rw [anySig_iff]; tauto)]; rfl

/-! ### Infinities and zeros -/

theorem fAdd_inf_inf (hx : fpInf x) (hy : fpInf y) :
    fAdd x y = if fSign x = fSign y then (fInf (fSign x), 0) else (0x7FC00000, 4) := by
  simp only [fAdd, fDecode_inf hx, fDecode_inf hy, fAddV]; rfl

theorem fAdd_inf_fin (hx : fpInf x) (hy : fpFin y) : fAdd x y = (fInf (fSign x), 0) := by
  simp only [fAdd, fDecode_inf hx, fDecode_fin hy, fAddV]

theorem fAdd_zero_zero (hx : fpZero x) (hy : fpZero y) : fAdd x y = (fZero (fSign x && fSign y), 0) := by
  simp only [fAdd, fDecode_zero hx, fDecode_zero hy, fAddV]

theorem fAdd_fin_zero (hx : fpFin x) (hy : fpZero y) : fAdd x y = (x, 0) := by
  simp only [fAdd, fDecode_fin hx, fDecode_zero hy, fAddV]

theorem fMul_inf_zero (h : fpInf x ∧ fpZero y ∨ fpZero x ∧ fpInf y) : fMul x y = (0x7FC00000, 4) := by
  rcases h with ⟨hx, hy⟩ | ⟨hx, hy⟩
  · simp only [fMul, fDecode_inf hx, fDecode_zero hy]; rfl
  · simp only [fMul, fDecode_zero hx, fDecode_inf hy]; rfl

theorem fMul_zero_zero (hx : fpZero x) (hy : fpZero y) : fMul x y = (fZero (fSign x != fSign y), 0) := by
  simp only [fMul, fDecode_zero hx, fDecode_zero hy]

theorem fMul_inf_fin (hx : fpInf x) (hy : fpFin y) : fMul x y = (fInf (fSign x != fSign y), 0) := by
  simp only [fMul, fDecode_inf hx, fDecode_fin hy]

theorem fDiv_inf_inf (hx : fpInf x) (hy : fpInf y) : fDiv x y = (0x7FC00000, 4) := by
  simp only [fDiv, fDecode_inf hx, fDecode_inf hy]; rfl

theorem fDiv_zero_zero (hx : fpZero x) (hy : fpZero y) : fDiv x y = (0x7FC00000, 4) := by
  simp only [fDiv, fDecode_zero hx, fDecode_zero hy]; rfl

theorem fDiv_fin_zero (hx : fpFin x) (hy : fpZero y) : fDiv x y = (fInf (fSign x != fSign y), 16) := by
  simp only [fDiv, fDecode_fin hx, fDecode_zero hy]; rfl

theorem fDiv_inf_fin (hx : fpInf x) (hy : fpFin y) : fDiv x y = (fInf (fSign x != fSign y), 0) := by
  simp only [fDiv, fDecode_inf hx, fDecode_fin hy]

theorem fDiv_fin_inf (hx : fpFin x) (hy : fpInf y) : fDiv x y = (fZero (fSign x != fSign y), 0) := by
  simp only [fDiv, fDecode_fin hx, fDecode_inf hy]

/-! ### FMIN and FMAX, FABS and FNEG -/

theorem fDeliver_fin (h : fpFin z) : fDeliver z = z := by simp only [fDeliver, fDecode_fin h]
theorem fDeliver_inf (h : fpInf z) : fDeliver z = z := by simp only [fDeliver, fDecode_inf h]
theorem fDeliver_zero (h : fpZero z) : fDeliver z = fZero (fSign z) := by simp only [fDeliver, fDecode_zero h]

/-- The flags of FMIN and FMAX. -/
theorem fpFlags_eq : (if anySig (fDecode x) (fDecode y) then fFI else 0) = 4 ∨ (if anySig (fDecode x) (fDecode y) then fFI else 0) = 0 := by
  split
  · exact .inl rfl
  · exact .inr rfl

theorem fPick_nan_nan (t : Int → Int → Bool) (hx : fpNan x) (hy : fpNan y) :
    ∃ f, fPick t x y = (0x7FC00000, f) ∧ (f = 4 ∨ f = 0) ∧ (f = 4 ↔ fpSig x ∨ fpSig y) := by
  refine ⟨if anySig (fDecode x) (fDecode y) then fFI else 0, by simp only [fPick, fDecode_nan hx, fDecode_nan hy]; rfl, ?_⟩
  rw [← anySig_iff]
  split
  · next h => exact ⟨.inl rfl, fun _ => h, fun _ => rfl⟩
  · next h => exact ⟨.inr rfl, fun h0 => absurd h0 (by decide), fun hs => absurd hs h⟩

theorem not_sig_of_fin (h : fpFin z) : ¬ fpSig z := fun hs => h.1 hs.1

theorem fPick_nan_fin (t : Int → Int → Bool) (hx : fpNan x) (hy : fpFin y) :
    (fpSig x → fPick t x y = (y, 4)) ∧ (¬ fpSig x → fPick t x y = (y, 0)) := by
  have h : fPick t x y = (y, if anySig (fDecode x) (fDecode y) then fFI else 0) := by
    simp only [fPick, fDecode_nan hx, fDecode_fin hy, fDeliver_fin hy]
  rw [h]
  exact ⟨fun hs => by rw [if_pos (anySig_iff.mpr (.inl hs))]; rfl,
    fun hs => by rw [if_neg (by rw [anySig_iff]; exact not_or.mpr ⟨hs, not_sig_of_fin hy⟩)]⟩

theorem fPick_fin_nan (t : Int → Int → Bool) (hx : fpFin x) (hy : fpNan y) :
    (fpSig y → fPick t x y = (x, 4)) ∧ (¬ fpSig y → fPick t x y = (x, 0)) := by
  have h : fPick t x y = (x, if anySig (fDecode x) (fDecode y) then fFI else 0) := by
    simp only [fPick, fDecode_nan hy, fDecode_fin hx, fDeliver_fin hx]
  rw [h]
  exact ⟨fun hs => by rw [if_pos (anySig_iff.mpr (.inr hs))]; rfl,
    fun hs => by rw [if_neg (by rw [anySig_iff]; exact not_or.mpr ⟨not_sig_of_fin hx, hs⟩)]⟩

/-- Of two zeros of different signs FMIN takes the negative one, FMAX the positive one. -/
theorem fPick_zeros (hx : fpZero x) (hy : fpZero y) (hne : fSign x ≠ fSign y) :
    fMin x y = (0x80000000, 0) ∧ fMax x y = (0, 0) := by
  simp only [fMin, fMax, fPick, fDecode_zero hx, fDecode_zero hy, anySig]
  rw [apply_ite fDeliver, apply_ite fDeliver, fDeliver_zero hx, fDeliver_zero hy]
  generalize fSign x = a at hne ⊢
  generalize fSign y = b at hne ⊢
  revert a b
  decide

theorem fAbs_nan (h : fpNan z) : fAbs z = (0x7FC00000, 0) ∧ fNeg z = (0x7FC00000, 0) := by
  simp only [fAbs, fNeg, fDecode_nan h]
  exact ⟨rfl, rfl⟩

theorem fAbs_fin (h : fpFin z ∨ fpInf z) : fAbs z = (z &&& 0x7FFFFFFF, 0) ∧ fNeg z = (z ^^^ 0x80000000, 0) := by
  rcases h with h | h
  · simp only [fAbs, fNeg, fDecode_fin h, fDeliver_fin h, true_and]
    rfl
  · simp only [fAbs, fNeg, fDecode_inf h, fDeliver_inf h, true_and]
    rfl

theorem fAbs_zero (h : fpZero z) : fAbs z = (0, 0) ∧ fNeg z = (fZero (!fSign z), 0) := by
  simp only [fAbs, fNeg, fDecode_zero h, fDeliver_zero h]
  cases fSign z <;> decide

/-! ### Conversions to integers -/

theorem fToI_nan (b : Bool) (h : fpNan z) : fToI b z = (0, 4) := by simp only [fToI, fDecode_nan h]; rfl

theorem fToI_zero (b : Bool) (h : fpZero z) : fToI b z = (0, 0) := by simp only [fToI, fDecode_zero h]

/-- Below one half, the nearest integer and the one towards zero are both 0. -/
theorem fToI_small (b : Bool) (h : fpMag z < 0x3F000000) : fToI b z = (0, 0) := by
  by_cases hz : fpZero z
  · exact fToI_zero b hz
  · have hfin : fpFin z := ⟨by unfold fpNan; omega, by unfold fpInf; omega, hz⟩
    unfold fpZero at hz
    have hneg : ¬ (0 : Int) ≤ ((fpMag z / 8388608 : Nat) : Int) - 150 := by omega
    obtain ⟨k, hk⟩ : ∃ k, (-(((fpMag z / 8388608 : Nat) : Int) - 150)).toNat = 25 + k :=
      ⟨(-(((fpMag z / 8388608 : Nat) : Int) - 150)).toNat - 25, by omega⟩
    have hd : 33554432 ≤ 2 ^ (25 + k) := by
      rw [Nat.pow_add]
      exact Nat.le_mul_of_pos_right _ (by positivity)
    have hm : fpMag z % 8388608 + 8388608 < 16777216 := by omega
    have h0 : fToInt b (fpMag z % 8388608 + 8388608) (((fpMag z / 8388608 : Nat) : Int) - 150) = 0 := by
      rw [fToInt, if_neg hneg, hk]
      generalize 2 ^ (25 + k) = d at hd
      generalize fpMag z % 8388608 + 8388608 = m at hm
      simp only [Nat.mod_eq_of_lt (show m < d by omega), Nat.div_eq_of_lt (show m < d by omega)]
      rw [if_neg]
      simp only [Bool.and_eq_true, Bool.or_eq_true, decide_eq_true_eq]
      omega
    simp only [fToI, fDecode_fin hfin, h0]
    cases fSign z <;> rfl

/-- Beyond the range of an integer the conversion saturates with FI. -/
theorem fToI_large (b : Bool) (hn : ¬ fpNan z) (h : 0x4F000000 < fpMag z) :
    fToI b z = (if fSign z then 0x80000000 else 0x7FFFFFFF, 4) := by
  by_cases hi : fpInf z
  · simp only [fToI, fDecode_inf hi]; rfl
  · have hfin : fpFin z := ⟨hn, hi, by unfold fpZero; omega⟩
    have hpos : (0 : Int) ≤ ((fpMag z / 8388608 : Nat) : Int) - 150 := by omega
    obtain ⟨k, hk⟩ : ∃ k, (((fpMag z / 8388608 : Nat) : Int) - 150).toNat = 8 + k :=
      ⟨(((fpMag z / 8388608 : Nat) : Int) - 150).toNat - 8, by omega⟩
    have hbig : 2147483648 < (fpMag z % 8388608 + 8388608) * 2 ^ (8 + k) := by
      rw [Nat.pow_add]
      rcases Nat.eq_zero_or_pos k with rfl | hk0
      · have : 0 < fpMag z % 8388608 := by omega
        omega
      · have : 2 ≤ 2 ^ k := Nat.le_self_pow (by omega) 2 |>.trans' (by decide)
        have := Nat.mul_le_mul (Nat.le_add_left 8388608 (fpMag z % 8388608)) (Nat.mul_le_mul_left (2 ^ 8) this)
        omega
    have hv : fToInt b (fpMag z % 8388608 + 8388608) (((fpMag z / 8388608 : Nat) : Int) - 150) =
        (fpMag z % 8388608 + 8388608) * 2 ^ (8 + k) := by rw [fToInt, if_pos hpos, hk]
    simp only [fToI, fDecode_fin hfin, hv]
    generalize (fpMag z % 8388608 + 8388608) * 2 ^ (8 + k) = n at hbig
    cases fSign z
    · rw [if_pos (by simp; omega)]; rfl
    · rw [if_neg (by simp), if_pos (by simp; omega)]; rfl

end

/-- Settles O17: each operation through the rule of the W group, with its value on the classes of its operands. -/
theorem leFloating : Obligations.LeFloating := by
  unfold Obligations.LeFloating
  intro s c a m w h hq A v x y g done nan sig inf zero neg fin sgn infOf zeroOf
  have add := fun {r : Word × FlagSet} (hr : fAdd x y = r) => retiresTo_wArith h hq a 3 tag2 fAdd hr
  have sub := fun {r : Word × FlagSet} (hr : fSub x y = r) => retiresTo_wArith h hq a 3 tag2 fSub hr
  have mul := fun {r : Word × FlagSet} (hr : fMul x y = r) => retiresTo_wArith h hq a 3 tag2 fMul hr
  have div := fun {r : Word × FlagSet} (hr : fDiv x y = r) => retiresTo_wArith h hq a 14 tag2 fDiv hr
  have low := fun {r : Word × FlagSet} (hr : fMin x y = r) => retiresTo_wArith h hq a 1 tag2 fMin hr
  have high := fun {r : Word × FlagSet} (hr : fMax x y = r) => retiresTo_wArith h hq a 1 tag2 fMax hr
  have abs := fun {r : Word × FlagSet} (hr : fAbs y = r) => retiresTo_wArith h hq a 1 tagOp (fun _ v => fAbs v) hr
  have flip := fun {r : Word × FlagSet} (hr : fNeg y = r) => retiresTo_wArith h hq a 1 tagOp (fun _ v => fNeg v) hr
  have itof := fun {r : Word × FlagSet} (hr : iToF y = r) => retiresTo_wArith h hq a 1 tagOp (fun _ v => iToF v) hr
  have ftoi := fun {r : Word × FlagSet} (hr : fToI true y = r) => retiresTo_wArith h hq a 1 tagOp (fun _ v => fToI true v) hr
  have ftoiz := fun {r : Word × FlagSet} (hr : fToI false y = r) => retiresTo_wArith h hq a 1 tagOp (fun _ v => fToI false v) hr
  refine ⟨⟨add rfl, sub rfl, mul rfl, div rfl, low rfl, high rfl, abs rfl, flip rfl, itof rfl, ftoi rfl, ftoiz rfl⟩,
    fun hn i hi => ?nanOperand, fun hx hy => ?infInf, fun hxy => mul (fMul_inf_zero hxy), fun hx hy => ?zeroZero,
    fun hx hy => ?finZero, fun hx hy => ?infFin, fun hx hy => div (fDiv_fin_inf hx hy), fun i hi => ?minMax,
    fun hx hy hne => ⟨low (fPick_zeros hx hy hne).1, high (fPick_zeros hx hy hne).2⟩,
    fun hy => ⟨abs (fAbs_nan hy).1, flip (fAbs_nan hy).2, ftoi (fToI_nan true hy), ftoiz (fToI_nan false hy)⟩,
    fun hy => ⟨abs (fAbs_fin hy).1, flip (fAbs_fin hy).2⟩,
    fun hy => ⟨abs (fAbs_zero hy).1, flip (fAbs_zero hy).2, ftoi (fToI_zero true hy)⟩,
    fun hy => ⟨ftoi (fToI_small true hy), ftoiz (fToI_small false hy)⟩, fun hy hbig i hi => ?large⟩
  case nanOperand =>
    simp only [List.mem_cons, List.not_mem_nil, or_false] at hi
    rcases hi with rfl | rfl | rfl | rfl
    · exact ⟨fun hs => add (nanStrict_fAdd.signals hn hs), fun hx hy => add (nanStrict_fAdd.quiet hn hx hy)⟩
    · exact ⟨fun hs => sub (nanStrict_fSub.signals hn hs), fun hx hy => sub (nanStrict_fSub.quiet hn hx hy)⟩
    · exact ⟨fun hs => mul (nanStrict_fMul.signals hn hs), fun hx hy => mul (nanStrict_fMul.quiet hn hx hy)⟩
    · exact ⟨fun hs => div (nanStrict_fDiv.signals hn hs), fun hx hy => div (nanStrict_fDiv.quiet hn hx hy)⟩
  case infInf =>
    have hsum := fAdd_inf_inf hx hy
    have hdiff : fSub x y = if fSign x = !fSign y then (fInf (fSign x), 0) else (0x7FC00000, 4) := by
      rw [← fFlip_sign]
      exact fAdd_inf_inf hx ((fFlip_inf y).mpr hy)
    refine ⟨div (fDiv_inf_inf hx hy), fun hne => ⟨add (hsum.trans (if_neg hne)), sub (hdiff.trans (if_pos ?_))⟩,
      fun he => ⟨sub (hdiff.trans (if_neg ?_)), add (hsum.trans (if_pos he))⟩⟩
    · exact Bool.eq_not_of_ne hne
    · rw [show fSign x = fSign y from he]
      cases fSign y <;> decide
  case zeroZero => exact ⟨div (fDiv_zero_zero hx hy), mul (fMul_zero_zero hx hy), add (fAdd_zero_zero hx hy)⟩
  case finZero =>
    exact ⟨div (fDiv_fin_zero hx hy), add (fAdd_fin_zero hx hy), sub (fAdd_fin_zero hx ((fFlip_zero y).mpr hy))⟩
  case infFin => exact ⟨add (fAdd_inf_fin hx hy), mul (fMul_inf_fin hx hy), div (fDiv_inf_fin hx hy)⟩
  case minMax =>
    simp only [List.mem_cons, List.not_mem_nil, or_false] at hi
    rcases hi with rfl | rfl
    · refine ⟨fun hx hy => ?_, fun hx hy => ?_, fun hx hy => ?_⟩
      · obtain ⟨f, hf, hflag⟩ := fPick_nan_nan (fun x y => decide (y < x)) hx hy
        exact ⟨f, low hf, hflag⟩
      · obtain ⟨hs, hq⟩ := fPick_nan_fin (fun x y => decide (y < x)) hx hy
        exact ⟨fun h => low (hs h), fun h => low (hq h)⟩
      · obtain ⟨hs, hq⟩ := fPick_fin_nan (fun x y => decide (y < x)) hx hy
        exact ⟨fun h => low (hs h), fun h => low (hq h)⟩
    · refine ⟨fun hx hy => ?_, fun hx hy => ?_, fun hx hy => ?_⟩
      · obtain ⟨f, hf, hflag⟩ := fPick_nan_nan (fun x y => decide (x < y)) hx hy
        exact ⟨f, high hf, hflag⟩
      · obtain ⟨hs, hq⟩ := fPick_nan_fin (fun x y => decide (x < y)) hx hy
        exact ⟨fun h => high (hs h), fun h => high (hq h)⟩
      · obtain ⟨hs, hq⟩ := fPick_fin_nan (fun x y => decide (x < y)) hx hy
        exact ⟨fun h => high (hs h), fun h => high (hq h)⟩
  case large =>
    simp only [List.mem_cons, List.not_mem_nil, or_false] at hi
    rcases hi with rfl | rfl
    · exact ftoi (fToI_large true hy hbig)
    · exact ftoiz (fToI_large false hy hbig)

end Sys2Proof.Machine

/-! ## What the reports and the settling of the outputs keep: pending sources, channels, latches -/

namespace Sys2Proof.Machine

/-! ### Pending sources stay -/

/-- Every source that is pending stays so. -/
def Pends (s t : State) : Prop := ∀ e ∈ s.ev.pend, e ∈ t.ev.pend

protected theorem Pends.refl (s : State) : Pends s s := fun _ h => h

protected theorem Pends.trans {s t u : State} (h : Pends s t) (k : Pends t u) : Pends s u := fun e he => k e (h e he)

theorem Pends.of_ev {s t : State} (h : t.ev = s.ev) : Pends s t := fun e he => by rw [h]; exact he

/-- A change that leaves the events alone comes before. -/
theorem Pends.of_step {s t u : State} (k : Pends t u) (h : t.ev = s.ev) : Pends s u := (Pends.of_ev h).trans k

theorem Pends.before {s t u : State} (k : Pends t u) (h : Pends s t) : Pends s u := h.trans k

theorem Pends.ite {s a b : State} {p : Prop} [Decidable p] (ha : Pends s a) (hb : Pends s b) : Pends s (if p then a else b) := by
  split
  exacts [ha, hb]

theorem Pends.foldl {β : Type} (f : State → β → State) (hf : ∀ a b, Pends a (f a b)) (l : List β) (s : State) :
    Pends s (l.foldl f s) := by
  induction l generalizing s with
  | nil => exact .refl s
  | cons b l ih => exact (hf s b).trans (ih _)

theorem pends_fire (src st : Nat) (s : State) : Pends s (fire src st s) := fun e he => by
  simp only [fire, addNew]
  split
  · split
    · exact he
    · exact List.mem_append_left _ he
  · exact he

theorem pends_fireIf (c : Bool) (src : Nat) (s : State) : Pends s (fireIf c src s) := .ite (pends_fire _ _ _) (.refl s)

theorem pends_nvEnqueue (r : NvReq) (s : State) : Pends s (nvEnqueue r s) := by
  unfold nvEnqueue
  dsimp only
  (repeat' split) <;> exact .refl s

theorem pends_ringPut (n : Notice) (s : State) : Pends s (ringPut n s) := by
  unfold ringPut
  dsimp only
  refine .trans ?_ (pends_fireIf _ _ _)
  split
  · exact Pends.of_step (pends_nvEnqueue _ _) rfl
  · exact .of_ev rfl

theorem pends_notice (kind src reason : Nat) (d : Word) (s : State) : Pends s (notice kind src reason d s) :=
  .ite (pends_ringPut _ _) (.of_ev rfl)

theorem pends_noticeIf (c : Bool) (kind src reason : Nat) (d : Word) (s : State) : Pends s (noticeIf c kind src reason d s) :=
  .ite (pends_notice _ _ _ _ _) (.refl s)

theorem pends_gradNotice (c : Bool) (reason : Nat) (d : Word) (s : State) : Pends s (gradNotice c reason d s) :=
  .ite ((pends_notice _ _ _ _ _).trans (pends_fire _ _ _)) (.refl s)

theorem pends_rfxReport (s : State) (e : Nat) : Pends s (rfxReport s e) :=
  (pends_noticeIf _ _ _ _ _ _).before ((pends_fireIf _ _ _).of_step rfl)

theorem pends_chEdge (n : Nat) (rising : Bool) (ts : Nat) (s : State) : Pends s (chEdge n rising ts s) :=
  .ite (Pends.of_step (pends_fire _ _ _) rfl) (.of_ev rfl)

theorem pends_driveCh (s : State) (n : Nat) (v : Bool) : Pends s (driveCh s n v) := by
  have h2 : ∀ c b src, Pends s (fireIf b src (chPut s n c)) := fun c b src => Pends.of_step (pends_fireIf _ _ _) rfl
  exact .ite ((h2 _ _ _).trans (pends_chEdge _ _ _ _)) (h2 _ _ _)

theorem pends_settle (s : State) : Pends s (settle s) := by
  have heval : Pends s (rfxEval s) := Pends.of_step (.foldl _ pends_rfxReport _ _) rfl
  have hdrive : ∀ s, Pends s (driveAll s) := fun s => .foldl _ (fun a n => by
    refine .ite ?_ (.trans ?_ (pends_driveCh _ _ _)) <;> exact .ite (.refl a) (.of_ev rfl)) _ _
  have hreport : ∀ s, Pends s (currentReport s) := fun s => .ite (.refl s) (Pends.of_step (pends_fire _ _ _) rfl)
  exact heval.trans ((hdrive _).trans (hreport _))

theorem pends_fcuRecord (src reason cls : Nat) (s : State) : Pends s (fcuRecord src reason cls s) := by
  unfold fcuRecord
  exact (pends_fireIf _ _ _).before ((pends_fire _ _ _).of_step rfl)

theorem pends_editCancel (s : State) : Pends s (editCancel s) := Pends.of_step (pends_fireIf _ _ _) rfl

theorem pends_stopScan (s : State) : Pends s (stopScan s) := Pends.of_step (pends_editCancel _) rfl

theorem pends_sendOn (ls : List Bool) (p : LinkPayload) (s : State) : Pends s (sendOn ls p s) := by
  unfold sendOn
  exact (Pends.foldl (fun a l => laneUse l p a) (fun _ _ => .of_ev rfl) _ _).of_step rfl

theorem pends_setRole (r : Role) (cause : Nat) (s : State) : Pends s (setRole r cause s) :=
  .ite (.refl s) (Pends.of_step (pends_fire _ _ _) rfl)

theorem pends_enterShadow (cause : Nat) (s : State) : Pends s (enterShadow cause s) := by
  unfold enterShadow
  exact (pends_notice _ _ _ _ _).before (((pends_editCancel s).trans (pends_setRole _ _ _)).trans (.of_ev rfl))

theorem pends_releaseCheck (s : State) : Pends s (releaseCheck s) := by
  unfold releaseCheck
  exact .ite (.ite (pends_enterShadow _ _) (.of_ev rfl)) (.refl s)

theorem pends_giveUpOp (kind src reason : Nat) (s : State) : Pends s (giveUpOp kind src reason s) := by
  unfold giveUpOp
  refine (pends_releaseCheck _).before ((pends_fire _ _ _).before ?_)
  exact ((pends_stopScan s).trans (pends_sendOn _ _ _)).trans (.of_ev rfl)

theorem pends_slcStartGrp (cause : Nat) (u : Bool) (s : State) (g : Nat) : Pends s (slcStartGrp cause u s g) :=
  .ite (Pends.of_step (pends_fireIf _ _ _) rfl) (.refl s)

theorem pends_slcTriggerAll (cause : Nat) (s : State) : Pends s (slcTriggerAll cause s) :=
  Pends.of_step (.foldl _ (fun a g => pends_slcStartGrp _ _ a g) _ _) rfl

theorem pends_slcTriggerMask (cause : Nat) (m : Word) (s : State) : Pends s (slcTriggerMask cause m s) := by
  unfold slcTriggerMask
  exact .ite (Pends.of_step (.foldl _ (fun a g => pends_slcStartGrp _ _ a g) _ _) rfl) (.of_ev rfl)

theorem pends_fatalReact (src reason cause : Nat) (s : State) : Pends s (fatalReact src reason cause s) := by
  unfold fatalReact
  dsimp only
  generalize hs0 : ({ s with pair := _, fcu := _ } : State) = s0
  have h0 : Pends s s0 := by subst hs0; exact .of_ev rfl
  have solo : Pends s (slcTriggerAll cause (stopScan s0)) := (h0.trans (pends_stopScan s0)).trans (pends_slcTriggerAll _ _)
  split
  · exact h0.trans (pends_giveUpOp _ _ _ _)
  · exact solo.trans (.of_ev rfl)
  · exact solo.trans (.of_ev rfl)
  · exact .of_ev rfl
  · exact .of_ev rfl
  · exact h0

theorem pends_fatalFault (src reason : Nat) (s : State) : Pends s (fatalFault src reason s) :=
  (pends_fcuRecord _ _ _ s).trans (pends_fatalReact _ _ _ _)

theorem pends_containedFault (src reason : Nat) (s : State) : Pends s (containedFault src reason s) := by
  unfold containedFault
  dsimp only
  split
  · exact (pends_fcuRecord _ _ _ s).trans (pends_notice _ _ _ _ _)
  · exact (pends_fcuRecord _ _ _ s).trans (pends_fatalReact _ _ _ _)
  · exact pends_fcuRecord _ _ _ s

/-- A source that exists is pending once it has fired where its condition holds. -/
theorem mem_fireIf_pend {src : Nat} {s : State} (h : srcPresent s src = true) {c : Bool} (hc : c = true) :
    BitVec.ofNat 10 src ∈ (fireIf c src s).ev.pend := by
  rw [fireIf, if_pos hc]
  exact mem_fire_pend h _

/-! ### The bits of a map -/

theorem getLsbD_setBit64 (v : BitVec 64) {i e : Nat} (hi : i < 64) (he : e < 64) (b : Bool) :
    (setBit64 v i b).getLsbD e = if e = i then b else v.getLsbD e := by
  have hbit : (1#64 <<< i).getLsbD e = decide (e = i) := by
    rw [BitVec.getLsbD_shiftLeft, BitVec.getLsbD_one]
    simp only [he, decide_true, Bool.true_and]
    by_cases h : e = i
    · simp [h]
    · have : ¬ (¬ e < i ∧ e - i = 0) := by omega
      simp only [h, decide_false, Bool.and_eq_false_iff, Bool.not_eq_false', decide_eq_true_eq, decide_eq_false_iff_not]
      omega
  unfold setBit64
  cases b
  · simp only [Bool.false_eq_true, if_false, BitVec.getLsbD_and, BitVec.getLsbD_not, hbit, he, decide_true, Bool.true_and]
    split <;> simp_all
  · simp only [if_true, BitVec.getLsbD_or, hbit]
    split <;> simp_all

/-- A map from a test of each bit. -/
theorem getLsbD_bits64 (f : Nat → Bool) {e : Nat} (he : e < 64) : (bits64 f).getLsbD e = f e := by
  have key : ∀ n ≤ 64, ∀ v : BitVec 64,
      ((List.range n).foldl (fun v i => setBit64 v i (f i)) v).getLsbD e = if e < n then f e else v.getLsbD e := by
    intro n
    induction n with
    | zero => intro _ v; simp
    | succ n ih =>
      intro hn v
      rw [List.range_succ, List.foldl_append, List.foldl_cons, List.foldl_nil, getLsbD_setBit64 _ (by omega) he, ih (by omega)]
      by_cases h : e = n
      · simp [h]
      · by_cases h2 : e < n
        · simp [h, h2, show e < n + 1 by omega]
        · simp [h, h2, show ¬ e < n + 1 by omega]
  exact (key 64 (by decide) 0).trans (if_pos he)

/-! ### The latches after settling (R131) -/

theorem rfxReport_latch (s : State) (e : Nat) : (rfxReport s e).rfx.latch = s.rfx.latch := by simp [rfxReport]

theorem chEdge_rfx (n : Nat) (r : Bool) (ts : Nat) (s : State) : (chEdge n r ts s).rfx = s.rfx := by
  unfold chEdge
  dsimp only
  rw [apply_ite State.rfx]
  exact ite_self _

theorem driveCh_rfx (s : State) (n : Nat) (v : Bool) : (driveCh s n v).rfx = s.rfx := by
  simp only [driveCh]
  split
  · rw [chEdge_rfx, fireIf_rfx]; rfl
  · rw [fireIf_rfx]; rfl

theorem driveAll_rfx (s : State) : (driveAll s).rfx = s.rfx := by
  refine foldl_keeps (fun a : State => a.rfx) _ (fun a n => ?_) _ _
  dsimp only
  split
  · split <;> rfl
  · rw [driveCh_rfx]
    split <;> rfl

theorem currentReport_rfx (s : State) : (currentReport s).rfx = s.rfx := by
  unfold currentReport
  split <;> rfl

/-- The equation's condition, as the reflex unit takes it. -/
def rfxNow (s : State) (e : Nat) : Bool := tickRuns s && rfxEn s e && rfxCondition s e

/-- A latch is set where it is latched and its condition or the latch holds (R131). -/
theorem settle_latch (s : State) {e : Nat} (he : e < 64) :
    (settle s).rfx.latch.getLsbD e = (rfxLatched s e && (s.rfx.latch.getLsbD e || rfxNow s e)) := by
  have hfold : ∀ (l : List Nat) (s : State), (l.foldl rfxReport s).rfx.latch = s.rfx.latch :=
    fun l s => foldl_keeps (fun a : State => a.rfx.latch) _ (fun a n => rfxReport_latch a n) l s
  rw [settle, currentReport_rfx, driveAll_rfx, rfxEval]
  dsimp only
  rw [hfold]
  dsimp only
  rw [getLsbD_bits64 _ he, getLsbD_bits64 _ he]
  rfl

/-! ### The channels after settling (R133) -/

/-- What settling may change of a channel: its drive with what follows it and, in plain OUTPUT (`m4`), its raw state and edges; a channel that
is to be OFF (`off`) has its raw state no higher. -/
def Drives (m4 off : Bool) (c d : ChanSt) : Prop :=
  ∃ dr dc cy ds mm raw ed lt tu tr h, d = { c with
    drive := dr, driveCyc := dc, cycles := cy, driveSense := ds, mismatch := mm, raw := raw, edges := ed, lastTs := lt
    tsUs := tu, tsRising := tr, held := h } ∧
  (m4 = false → raw = c.raw ∧ ed = c.edges ∧ lt = c.lastTs ∧ tu = c.tsUs ∧ tr = c.tsRising) ∧
  (c.driveSense = false → ds = false) ∧ (c.driveSense = true → ds = true ∨ dr = true) ∧ (off = true → raw = c.raw ∨ raw = false)

protected theorem Drives.refl (m4 off : Bool) (c : ChanSt) : Drives m4 off c c :=
  ⟨_, _, _, _, _, _, _, _, _, _, _, rfl, fun _ => ⟨rfl, rfl, rfl, rfl, rfl⟩, id, .inl, fun _ => .inl rfl⟩

theorem Drives.held (m4 off : Bool) (c : ChanSt) (h : Bool) : Drives m4 off c { c with held := h } :=
  ⟨_, _, _, _, _, _, _, _, _, _, _, rfl, fun _ => ⟨rfl, rfl, rfl, rfl, rfl⟩, id, .inl, fun _ => .inl rfl⟩

theorem ch_chPut_same {s : State} (h : mwf (fun _ => ({} : ChanSt)) s.chan = true) (n : Nat) (c : ChanSt) :
    ch (chPut s n c) n = c := mget_mput_same _ h

theorem ch_chPut_other {s : State} {n m : Nat} (h : m ≠ n) (c : ChanSt) : ch (chPut s n c) m = ch s m := mget_mput_other _ h

theorem chanWf_chPut {s : State} (h : mwf (fun _ => ({} : ChanSt)) s.chan = true) (n : Nat) (c : ChanSt) :
    mwf (fun _ => ({} : ChanSt)) (chPut s n c).chan = true := mwf_mput _ _ _ h

/-- An edge reaches its channel. -/
theorem chEdge_chan (n : Nat) (r : Bool) (ts : Nat) (s : State) : (chEdge n r ts s).chan = (chPut s n { ch s n with
    edges := (ch s n).edges ++ [(nextLatch s, r)], lastTs := some ts, tsUs := BitVec.ofNat 31 ts, tsRising := r }).chan := by
  unfold chEdge
  dsimp only
  rw [apply_ite State.chan]
  exact ite_self _

/-- A channel whose output stage takes a command. -/
theorem driveCh_chan {s : State} (h : mwf (fun _ => ({} : ChanSt)) s.chan = true) (n : Nat) (v : Bool) :
    mwf (fun _ => ({} : ChanSt)) (driveCh s n v).chan = true ∧ (∀ m, m ≠ n → ch (driveCh s n v) m = ch s m) ∧
      (driveCh s n v).regs = s.regs ∧ (driveCh s n v).fixed = s.fixed ∧
      ∃ c, ch (driveCh s n v) n = c ∧ Drives (decide (chMode s n = 4)) (!v) (ch s n) c := by
  have hds : ∀ b : Bool, b = true → (b && !v) = true ∨ v = true := fun b hb => by cases v <;> simp [hb]
  unfold driveCh
  dsimp only
  generalize hc : ({ ch s n with drive := v, driveCyc := _, cycles := _, driveSense := _, mismatch := _, raw := _ } : ChanSt) = c
  have h1 := chanWf_chPut h n c
  have hsame := ch_chPut_same h n c
  have hother := fun m (hm : m ≠ n) => ch_chPut_other (s := s) hm c
  by_cases h4 : chMode s n = 4
  · rw [if_pos h4]
    refine ⟨?_, fun m hm => ?_, by simp, by simp, _, rfl, ?_⟩
    · rw [chEdge_chan]
      exact chanWf_chPut (by rw [fireIf_chan]; exact h1) _ _
    · rw [ch, chEdge_chan]
      exact (ch_chPut_other hm _).trans (by rw [ch, fireIf_chan]; exact hother m hm)
    · have hedge : ∀ x r ts, ch (chEdge n r ts x) n = mget (fun _ => {}) (chPut x n { ch x n with
          edges := (ch x n).edges ++ [(nextLatch x, r)], lastTs := some ts, tsUs := BitVec.ofNat 31 ts, tsRising := r }).chan n :=
        fun x r ts => by rw [ch, chEdge_chan]
      rw [hedge]
      have hfired : ∀ b src, ch (fireIf b src (chPut s n c)) n = c := fun b src => by rw [ch, fireIf_chan]; exact hsame
      have hput : ∀ x, mget (fun _ => ({} : ChanSt)) (chPut (fireIf ((ch s n).driveSense && v && fbit (chCfg s n 0x34) 6) n
          (chPut s n c)) n x).chan n = x := fun x => ch_chPut_same (by rw [fireIf_chan]; exact h1) n x
      rw [hput, hfired, ← hc]
      exact ⟨_, _, _, _, _, _, _, _, _, _, _, rfl, fun hm => by simp [h4] at hm, fun hb => by simp [hb], hds _,
        fun ho => .inr (by simpa [h4] using ho)⟩
  · rw [if_neg h4]
    refine ⟨by rw [fireIf_chan]; exact h1, fun m hm => by rw [ch, fireIf_chan]; exact hother m hm, by simp, by simp, c,
      by rw [ch, fireIf_chan]; exact hsame, ?_⟩
    rw [← hc]
    exact ⟨_, _, _, _, _, _, _, _, _, _, _, rfl, fun _ => ⟨if_neg h4, rfl, rfl, rfl, rfl⟩, fun hb => by simp [hb], hds _,
      fun _ => .inl (if_neg h4)⟩

theorem Drives.of_held {m4 off h : Bool} {c d : ChanSt} (k : Drives m4 off { c with held := h } d) : Drives m4 off c d := by
  obtain ⟨dr, dc, cy, ds, mm, raw, ed, lt, tu, tr, h', rfl, hraw, hoff, hon, hlow⟩ := k
  exact ⟨dr, dc, cy, ds, mm, raw, ed, lt, tu, tr, h', rfl, hraw, hoff, hon, hlow⟩

/-- A channel that line 1 of R133 holds OFF takes no other command. -/
theorem Drives.of_off {m4 v off : Bool} {c d : ChanSt} (k : Drives m4 (!v) c d) (h : off = true → v = false) : Drives m4 off c d := by
  obtain ⟨dr, dc, cy, ds, mm, raw, ed, lt, tu, tr, h', rfl, hraw, hoff, hon, hlow⟩ := k
  exact ⟨dr, dc, cy, ds, mm, raw, ed, lt, tu, tr, h', rfl, hraw, hoff, hon, fun ho => hlow (by simp [h ho])⟩

/-- The output stages below `k` have taken their commands; the others stand as in `s`. -/
def DrivenTo (s a : State) (k : Nat) : Prop :=
  mwf (fun _ => ({} : ChanSt)) a.chan = true ∧ a.regs = s.regs ∧ a.fixed = s.fixed ∧
    (∀ n < k, Drives (decide (chMode s n = 4)) (outOff s n) (ch s n) (ch a n)) ∧ ∀ n, k ≤ n → ch a n = ch s n

/-- The mode of a channel rests on the variant and the registers alone. -/
theorem chMode_congr {s t : State} (hr : t.regs = s.regs) (hf : t.fixed = s.fixed) (n : Nat) : chMode t n = chMode s n := by
  have hn : nCh t = nCh s := by rw [nCh, nCh, nGroups, nGroups, hf]
  have hcfg : chCfg t = chCfg s := by
    funext n o
    rw [chCfg, chCfg, force, force, hn, hr]
  unfold chMode chCfgErr chModeReg
  rw [hcfg]

theorem driveAll_chan {s : State} (h : mwf (fun _ => ({} : ChanSt)) s.chan = true) :
    mwf (fun _ => ({} : ChanSt)) (driveAll s).chan = true ∧
      ∀ n, Drives (decide (chMode s n = 4)) (outOff s n) (ch s n) (ch (driveAll s) n) := by
  have key : ∀ k, DrivenTo s ((List.range k).foldl (fun a n =>
      let v := isOut s n && outCmd s (standing s 1) (standing s 2) (standing s 3) n
      let h := inhHeld s (standing s 3) n
      let b := if h = (ch s n).held then a else chPut a n { ch a n with held := h }
      if v = (ch s n).drive then b else driveCh b n v) s) k := by
    intro k
    induction k with
    | zero => exact ⟨h, rfl, rfl, fun n hn => absurd hn (Nat.not_lt_zero n), fun n _ => rfl⟩
    | succ k ih =>
      rw [List.range_succ, List.foldl_append, List.foldl_cons, List.foldl_nil]
      generalize (List.range k).foldl _ s = a at ih ⊢
      obtain ⟨hwf, hregs, hfixed, hbelow, habove⟩ := ih
      dsimp only
      have hoff : outOff s k = true → (isOut s k && outCmd s (standing s 1) (standing s 2) (standing s 3) k) = false := fun ho => by
        rw [outCmd]
        simp [ho]
      generalize (isOut s k && outCmd s (standing s 1) (standing s 2) (standing s 3) k) = v at hoff ⊢
      generalize inhHeld s (standing s 3) k = x
      generalize hb : (if x = (ch s k).held then a else chPut a k { ch a k with held := x }) = b
      have hk : ch a k = ch s k := habove k (Nat.le_refl k)
      have hbk : mwf (fun _ => ({} : ChanSt)) b.chan = true ∧ b.regs = s.regs ∧ b.fixed = s.fixed ∧
          (∀ n, n ≠ k → ch b n = ch a n) ∧ ∃ y, ch b k = { ch s k with held := y } := by
        rw [← hb]
        split
        · exact ⟨hwf, hregs, hfixed, fun _ _ => rfl, (ch s k).held, hk⟩
        · exact ⟨chanWf_chPut hwf _ _, hregs, hfixed, fun n hn => ch_chPut_other hn _, x,
            (ch_chPut_same hwf _ _).trans (by rw [hk])⟩
      obtain ⟨bwf, bregs, bfixed, bother, y, by_⟩ := hbk
      split
      · refine ⟨bwf, bregs, bfixed, fun n hn => ?_, fun n hn => (bother n (by omega)).trans (habove n (by omega))⟩
        by_cases hnk : n = k
        · rw [hnk, by_]
          exact .held _ _ _ _
        · rw [bother n hnk]
          exact hbelow n (by omega)
      · obtain ⟨cwf, cother, cregs, cfixed, c, hc, hd⟩ := driveCh_chan bwf k v
        refine ⟨cwf, cregs.trans bregs, cfixed.trans bfixed, fun n hn => ?_,
          fun n hn => (cother n (by omega)).trans ((bother n (by omega)).trans (habove n (by omega)))⟩
        by_cases hnk : n = k
        · rw [chMode_congr bregs bfixed, by_] at hd
          rw [hnk, hc]
          exact hd.of_held.of_off hoff
        · rw [cother n hnk, bother n hnk]
          exact hbelow n (by omega)
  obtain ⟨hwf, -, -, hbelow, habove⟩ := key (nCh s)
  refine ⟨hwf, fun n => ?_⟩
  by_cases hn : n < nCh s
  · exact hbelow n hn
  · exact (congrArg (Drives _ _ (ch s n)) (habove n (Nat.le_of_not_lt hn))).mpr (.refl _ _ _)

theorem rfxEval_frame (s : State) : (rfxEval s).chan = s.chan ∧ (rfxEval s).regs = s.regs ∧ (rfxEval s).fixed = s.fixed := by
  have hfold : ∀ {α : Type} (f : State → α) (hf : ∀ a e, f (rfxReport a e) = f a) (l : List Nat) (a : State),
      f (l.foldl rfxReport a) = f a := fun f hf l a => foldl_keeps f _ hf l a
  unfold rfxEval
  dsimp only
  exact ⟨hfold (·.chan) (fun a e => by simp [rfxReport]) _ _, hfold (·.regs) (fun a e => by simp [rfxReport]) _ _,
    hfold (·.fixed) (fun a e => by simp [rfxReport]) _ _⟩

/-- An evaluation of the equations leaves what holds the outputs OFF. -/
theorem rfxEval_outOff (s : State) (n : Nat) : outOff (rfxEval s) n = outOff s n := by
  obtain ⟨r, c, b, v, e, i, x, h⟩ := settles_rfxEval s
  rw [h]
  rfl

theorem currentReport_chan (s : State) : (currentReport s).chan = s.chan := by
  unfold currentReport
  split <;> rfl

/-- What settling leaves of each channel. -/
theorem settle_ch {s : State} (h : mwf (fun _ => ({} : ChanSt)) s.chan = true) :
    mwf (fun _ => ({} : ChanSt)) (settle s).chan = true ∧
      ∀ n, Drives (decide (chMode s n = 4)) (outOff s n) (ch s n) (ch (settle s) n) := by
  obtain ⟨hchan, hregs, hfixed⟩ := rfxEval_frame s
  obtain ⟨hwf, hd⟩ := driveAll_chan (s := rfxEval s) (by rw [hchan]; exact h)
  have hch : ∀ n, ch (rfxEval s) n = ch s n := fun n => by rw [ch, hchan]; rfl
  refine ⟨by rw [settle, currentReport_chan]; exact hwf, fun n => ?_⟩
  have := hd n
  rw [chMode_congr hregs hfixed, hch, rfxEval_outOff] at this
  have hset : ch (settle s) n = ch (driveAll (rfxEval s)) n :=
    congrArg (fun x => mget (fun _ => ({} : ChanSt)) x n) (currentReport_chan _)
  rw [hset]
  exact this

end Sys2Proof.Machine

/-! ## The reflex unit and the field channels -/

namespace Sys2Proof.Machine

/-! ### Rows that are accesses of the CP -/

/-- A row whose access the CP makes is carried out. -/
theorem cpRow_of_reach {s : State} {a : Nat} {wr : Bool} (h : cpReach s a wr = true) (o : Out) : cpRow a wr s o = o := by
  simp only [cpReach, cpMay, mayAccess, Bool.and_eq_true, Bool.not_eq_true'] at h
  obtain ⟨hrun, hfrozen, hperm⟩ := h
  simp only [cpRow, hrun, hfrozen, hperm, Bool.not_true, Bool.or_false, Bool.false_eq_true, if_false, if_true]

/-- The access of a row that the CP may make. -/
theorem rowMay_reach {s : State} {i : Instr} {a : Nat} {wr : Bool} (hi : regRow i = some (a, wr)) (h : rowMay s i = true) :
    cpReach s a wr = true := by
  simp only [rowMay, hi, Bool.and_eq_true] at h
  exact h.2

/-- A row that the CP may make is carried out. -/
theorem cpRow_of_rowMay {s : State} {i : Instr} {a : Nat} {wr : Bool} (hi : regRow i = some (a, wr)) (h : rowMay s i = true)
    (o : Out) : cpRow a wr s o = o :=
  cpRow_of_reach (rowMay_reach hi h) o

/-! ### The parts of `tablesOk` -/

theorem tablesOk_chan {s : State} (h : tablesOk s = true) : mwf (fun _ => ({} : ChanSt)) s.chan = true := by
  simp only [tablesOk, Bool.and_eq_true] at h
  tauto

theorem tablesOk_grp {s : State} (h : tablesOk s = true) : mwf (fun _ => ({} : GrpSt)) s.grp = true := by
  simp only [tablesOk, Bool.and_eq_true] at h
  tauto

theorem tablesOk_slcGrp {s : State} (h : tablesOk s = true) : mwf (fun _ => ({} : SlcGrp)) s.slc.grp = true := by
  simp only [tablesOk, Bool.and_eq_true] at h
  tauto

theorem tablesOk_bus {s : State} (h : tablesOk s = true) : mwf (fun _ => ({} : BusSt)) s.bus = true := by
  simp only [tablesOk, Bool.and_eq_true] at h
  tauto

theorem tablesOk_node {s : State} (h : tablesOk s = true) : mwf (fun _ => ({} : NodeSt)) s.node = true := by
  simp only [tablesOk, Bool.and_eq_true] at h
  tauto

theorem tablesOk_uart {s : State} (h : tablesOk s = true) : mwf (fun _ => ({} : UartSt)) s.cp.uart = true := by
  simp only [tablesOk, Bool.and_eq_true] at h
  tauto

theorem tablesOk_regs {s : State} (h : tablesOk s = true) :
    mwf regReset s.regs.written = true ∧ mwf regReset s.regs.force = true := by
  simp only [tablesOk, Bool.and_eq_true] at h
  tauto

/-- A configuration register reads back what was written. -/
theorem force_regPut {s : State} (h : tablesOk s = true) (a : Nat) (v : Word) : force (regPut s a v) a = v :=
  mget_mput_same _ (tablesOk_regs h).2

theorem force_settle (s : State) (a : Nat) : force (settle s) a = force s a := by rw [force, settle_regs]; rfl

/-! ### Reflex commands (R129, R131, R141) -/

/-- A reset clears the latches of its mask whose equation's condition does not stand. -/
theorem rfxReset_latch (m : BitVec 64) (s : State) {e : Nat} (he : e < 64) :
    (rfxReset m s).rfx.latch.getLsbD e =
      (s.rfx.latch.getLsbD e && !(m.getLsbD e && !(rfxEn s e && rfxLatched s e && s.rfx.cond.getLsbD e))) := by
  simp only [rfxReset, BitVec.getLsbD_and, BitVec.getLsbD_not, he, decide_true, Bool.true_and, getLsbD_bits64 _ he]

/-- The conditions of the equations do not rest on the latches. -/
theorem rfxNow_latch (x : BitVec 64) (s : State) (e : Nat) :
    let t := { s with rfx := { s.rfx with latch := x } }
    rfxLatched t e = rfxLatched s e ∧ rfxNow t e = rfxNow s e := by
  intro t
  have hsig : sysSignal t = sysSignal s := by
    funext k
    unfold sysSignal
    split <;> rfl
  have hlit : litValue t = litValue s := by
    funext w
    unfold litValue
    rw [hsig]
    rfl
  have hcond : rfxCondition t e = rfxCondition s e := by
    unfold rfxCondition
    rw [hlit]
    rfl
  refine ⟨rfl, ?_⟩
  rw [rfxNow, rfxNow, hcond]
  rfl

theorem rfxReset_rest (m : BitVec 64) (s : State) (e : Nat) :
    rfxLatched (rfxReset m s) e = rfxLatched s e ∧ rfxNow (rfxReset m s) e = rfxNow s e := by
  rw [rfxReset]
  exact rfxNow_latch _ s e

/-- Settles O33: the latches after a reset through the rule of settling. -/
theorem reflexCommands : Obligations.ReflexCommands := by
  unfold Obligations.ReflexCommands
  intro s
  refine ⟨fun hi v hmay => ?latch, fun v hmay hok => ?soft, fun hmay => cpRow_of_rowMay rfl hmay _⟩
  case latch =>
    refine ⟨_, cpRow_of_rowMay rfl hmay _, fun e he hl => ?_⟩
    intro m now
    have hlatch : (settle (rfxReset (half64 hi v) s)).rfx.latch.getLsbD e =
        ((s.rfx.latch.getLsbD e && !(m.getLsbD e && !(rfxEn s e && rfxLatched s e && s.rfx.cond.getLsbD e))) || now) := by
      obtain ⟨hlat, hnow⟩ := rfxReset_rest (half64 hi v) s e
      rw [settle_latch _ he, rfxReset_latch _ _ he, hlat, hnow, hl, Bool.true_and]
      rfl
    rw [hlatch]
    refine ⟨fun hm hn hc => ?_, fun hm hc => ?_, fun hn => ?_⟩
    · simp [hm, hn, hc]
    · simp [hm, hc]
    · simp [hn]
  case soft =>
    exact ⟨_, cpRow_of_rowMay rfl hmay _, (force_settle _ _).trans (force_regPut hok _ _), settle_mem _⟩

end Sys2Proof.Machine

namespace Sys2Proof.Machine

/-! ### Samples and edges of a channel (R147, R148, R150, R164) -/

section
variable {s : State} {k : Nat}

/-- A raw edge of a configured input. -/
theorem rawTo_input (h : hasInput s k = true) (level : Bool) (ts : Nat) :
    rawTo k level ts s = chPut s k { ch s k with
      raw := level, rawTs := ts, edgePend := level != (ch s k).filt, confirm := none, fullUntil := ts + 2000
      quietCyc := s.time.cyc } := by
  rw [rawTo, h, Bool.true_and]

theorem sampleTo_same {level : Bool} (h : level = (ch s k).raw) : sampleTo k level s = s := if_pos h

/-- Without pulsed wetting, and soon after a raw edge, a differing sample is a raw edge at once. -/
theorem sampleTo_at_once {level : Bool} (h : level ≠ (ch s k).raw)
    (hnow : (ch s k).fePulsed = false ∨ (ch s k).confirm = none ∧ nowUs s < (ch s k).fullUntil) :
    sampleTo k level s = rawTo k level (nowUs s) s := by
  rw [sampleTo, if_neg h, if_pos]
  rcases hnow with hp | ⟨hc, hu⟩
  · simp [hp]
  · simp [hc, hu]

/-- At reduced current a differing sample waits for its confirmation. -/
theorem sampleTo_waits {level : Bool} (h : level ≠ (ch s k).raw) (hp : (ch s k).fePulsed = true) (hc : (ch s k).confirm = none)
    (hu : (ch s k).fullUntil ≤ nowUs s) (hw : wetWindow s k = false) :
    sampleTo k level s = chPut s k { ch s k with confirm := some (level, nowUs s), fullUntil := nowUs s + 20 } := by
  rw [sampleTo, if_neg h, if_neg, if_neg]
  · simp [hc, hw]
  · simp [hp, hc, hu]

/-- A sample in that wait, or in a wetting window, leaves the raw state alone. -/
theorem sampleTo_ignored {level : Bool} (h : level ≠ (ch s k).raw) (hp : (ch s k).fePulsed = true)
    (hc : (ch s k).confirm.isSome = true ∨ (ch s k).fullUntil ≤ nowUs s ∧ wetWindow s k = true) : sampleTo k level s = s := by
  rw [sampleTo, if_neg h, if_neg, if_pos]
  · rcases hc with hc | ⟨-, hw⟩
    · simp [hc]
    · simp [hw]
  · rcases hc with hc | ⟨hu, -⟩
    · cases hcon : (ch s k).confirm <;> simp_all
    · simp [hp, hu]

/-- A discarded calibration keeps the raw side of its channel. -/
theorem calDiscard_ch (hwf : mwf (fun _ => ({} : ChanSt)) s.chan = true) (code : Nat) :
    ch (calDiscard k code s) k = { ch s k with
      calActive := false, calLast := BitVec.ofNat 4 code, calRetry := true, calRetryCyc := s.time.cyc
      calAborts := if code = 2 then satN 255 ((ch s k).calAborts + 1) else (ch s k).calAborts } ∧
    mwf (fun _ => ({} : ChanSt)) (calDiscard k code s).chan = true := by
  unfold calDiscard
  dsimp only
  rw [ch, fireIf_chan]
  exact ⟨ch_chPut_same hwf _ _, chanWf_chPut hwf _ _⟩

/-- An edge of a pulsed channel without a calibration window to abort. -/
theorem wetEdge_plain {level : Bool} (h : (ch s k).calActive = false ∨ level = false) (ts : Nat) :
    wetEdge k level ts s = rawTo k level ts s := by
  rw [wetEdge, if_neg]
  rcases h with h | h <;> simp [h]

/-- A rise in a calibration window aborts it. -/
theorem wetEdge_aborts (hwf : mwf (fun _ => ({} : ChanSt)) s.chan = true) (h : (ch s k).calActive = true) (ts : Nat) :
    let t := wetEdge k true ts s
    (ch t k).raw = true ∧ (ch t k).rawTs = ts ∧ (ch t k).calActive = false ∧ (ch t k).calLast = 2 := by
  obtain ⟨hch, hwf'⟩ := calDiscard_ch (k := k) hwf 2
  have ht : ch (wetEdge k true ts s) k = { ch (calDiscard k 2 s) k with
      raw := true, rawTs := ts, edgePend := hasInput (calDiscard k 2 s) k && (true != (ch (calDiscard k 2 s) k).filt)
      confirm := none, fullUntil := ts + 2000, quietCyc := (calDiscard k 2 s).time.cyc } := by
    rw [wetEdge, if_pos (by simp [h]), rawTo]
    exact ch_chPut_same hwf' _ _
  rw [hch] at ht
  simp [ht]

/-- What a debounced edge leaves of its channel. -/
theorem debounceTo_ch (hwf : mwf (fun _ => ({} : ChanSt)) s.chan = true) :
    let c := ch s k
    let d := ch (debounceTo k s) k
    mwf (fun _ => ({} : ChanSt)) (debounceTo k s).chan = true ∧ d.filt = c.raw ∧ d.filtTs = c.rawTs ∧ d.edgePend = false ∧
      d.raw = c.raw ∧ d.wb = c.wb ∧ (¬ (chMode s k = 3 ∧ c.wb = true) → d.tsUs = BitVec.ofNat 31 c.rawTs ∧ d.tsRising = c.raw) := by
  intro c d
  simp only [d, debounceTo]
  generalize hx : ({ ch s k with filt := _, filtTs := _, edgePend := _, quietCyc := _, openCyc := _, mismatch := _ } : ChanSt) = x
  have hsame := ch_chPut_same hwf k x
  have hw := chanWf_chPut hwf k x
  by_cases h3 : chMode s k = 3 ∧ (ch s k).wb = true
  · rw [if_pos h3, hsame, ← hx]
    exact ⟨chanWf_chPut hwf _ _, rfl, rfl, rfl, rfl, rfl, fun hn => absurd h3 hn⟩
  · have hedge : ch (chEdge k (ch s k).raw (ch s k).rawTs (chPut s k x)) k = { x with
        edges := x.edges ++ [(nextLatch (chPut s k x), (ch s k).raw)], lastTs := some (ch s k).rawTs
        tsUs := BitVec.ofNat 31 (ch s k).rawTs, tsRising := (ch s k).raw } := by
      refine (congrArg (fun m => mget (fun _ => ({} : ChanSt)) m k) (chEdge_chan ..)).trans ?_
      exact (ch_chPut_same hw _ _).trans (by rw [hsame])
    rw [if_neg h3, hedge, chEdge_chan, ← hx]
    exact ⟨chanWf_chPut (chanWf_chPut hwf _ _) _ _, rfl, rfl, rfl, rfl, rfl, fun _ => ⟨rfl, rfl⟩⟩

theorem regs_debounceTo (k : Nat) (s : State) : (debounceTo k s).regs = s.regs ∧ (debounceTo k s).fixed = s.fixed := by
  unfold debounceTo
  dsimp only
  split
  · exact ⟨rfl, rfl⟩
  · exact ⟨by simp, by simp⟩

/-- A channel outside plain OUTPUT keeps its raw side and its stamps as the outputs settle. -/
theorem settle_input (hwf : mwf (fun _ => ({} : ChanSt)) s.chan = true) (hm : chMode s k ≠ 4) :
    let c := ch s k
    let d := ch (settle s) k
    d.raw = c.raw ∧ d.edges = c.edges ∧ d.lastTs = c.lastTs ∧ d.tsUs = c.tsUs ∧ d.tsRising = c.tsRising := by
  obtain ⟨dr, dc, cy, ds, mm, raw, ed, lt, tu, tr, h, hd, hraw, -⟩ := (settle_ch hwf).2 k
  obtain ⟨h1, h2, h3, h4, h5⟩ := hraw (by simp [hm])
  intro c d
  simp only [d, hd]
  exact ⟨h1, h2, h3, h4, h5⟩

/-- The parts of a channel that settling does not touch. -/
theorem settle_filter (hwf : mwf (fun _ => ({} : ChanSt)) s.chan = true) (k : Nat) :
    let c := ch s k
    let d := ch (settle s) k
    d.filt = c.filt ∧ d.filtTs = c.filtTs ∧ d.edgePend = c.edgePend ∧ d.wb = c.wb ∧ d.trip = c.trip ∧ d.cause = c.cause ∧
      d.tripCyc = c.tripCyc ∧ d.lock = c.lock ∧ d.feMode = c.feMode ∧ d.fePulsed = c.fePulsed := by
  obtain ⟨dr, dc, cy, ds, mm, raw, ed, lt, tu, tr, h, hd, -⟩ := (settle_ch hwf).2 k
  intro c d
  simp only [d, hd]
  exact ⟨rfl, rfl, rfl, rfl, rfl, rfl, rfl, rfl, rfl, rfl⟩

theorem not_output_of_hasInput (h : hasInput s k = true) : chMode s k ≠ 4 := fun h4 => by
  simp [hasInput, h4] at h

theorem lt_nCh_of_feSampled (h : feSampled s k = true) : k < nCh s := by
  simp only [feSampled, Bool.and_eq_true, decide_eq_true_eq] at h
  exact h.1.1

end

/-- Settles O34: each kind of sample through the rule of the sampler, in each state of the channel. -/
theorem channelSampling : Obligations.ChannelSampling := by
  unfold Obligations.ChannelSampling
  intro s n hin hfe hok k c now taken
  have hwf := tablesOk_chan hok
  have htaken : ∀ level ts, rawTo k level ts s = taken level ts := fun level ts => rawTo_input hin level ts
  refine ⟨fun x hx => ?sample, fun he hd => ?debounced, fun level hp hw hc hne => ?wetting, fun level ts hp hc hts => ?confirm,
    fun level ts hp hc hts => ?dropped⟩
  case sample =>
    intro l
    have hl : sampleLevel s k x = l := by cases x <;> rfl
    have hexec : exec (.rawEdge n x) s =
        if c.calActive then .next (if l then abortWindow k s else s) else .next (sampleTo k l s) := by
      change execRawEdge n x s = _
      rw [← hl]
      refine if_neg ?_
      simp only [k] at hx
      simp [hfe, hx]
    rw [hexec]
    refine ⟨fun hcal => ?_, fun hcal => ?_⟩
    · have habort : exec (.abortEdge n) s = .next (abortWindow k s) := if_pos ⟨lt_nCh_of_feSampled hfe, hcal⟩
      rw [if_pos hcal, habort]
      cases l <;> rfl
    · rw [if_neg (by simp [hcal])]
      refine ⟨fun hr => ?_, fun hr h => ?_, fun hr hp hc hu hw => ?_, fun hr hp h => ?_⟩
      · rw [sampleTo_same hr]
      · rw [sampleTo_at_once hr h, htaken]
        rfl
      · rw [sampleTo_waits hr hp hc hu hw]
        rfl
      · rw [sampleTo_ignored hr hp h]
  case debounced =>
    have hexec : exec (.debouncedEdge n) s = .next (settle (debounceTo k s)) := if_pos (by
      simp only [Bool.and_eq_true, decide_eq_true_eq]
      exact ⟨⟨hin, he⟩, hd⟩)
    obtain ⟨hwf', hfilt, hts, hpend, -, -, hstamp⟩ := debounceTo_ch (k := k) hwf
    obtain ⟨hregs, hfixed⟩ := regs_debounceTo k s
    obtain ⟨h1, h2, h3, -⟩ := settle_filter hwf' k
    obtain ⟨-, -, -, h4, h5⟩ := settle_input hwf' (k := k) (by rw [chMode_congr hregs hfixed]; exact not_output_of_hasInput hin)
    refine ⟨_, hexec, h1.trans hfilt, h2.trans hts, h3.trans hpend, fun hwb => ?_⟩
    exact ⟨h4.trans (hstamp hwb).1, h5.trans (hstamp hwb).2⟩
  case wetting =>
    have hexec : exec (.wettingSample n level) s = .next (wetEdge k level now s) := if_pos (by
      simp only [Bool.and_eq_true, decide_eq_true_eq, Option.isNone_iff_eq_none, bne_iff_ne]
      exact ⟨⟨⟨⟨hfe, hp⟩, hc⟩, hw⟩, hne⟩)
    rw [hexec]
    refine ⟨fun h => ?_, fun hcal hlev => ⟨_, rfl, ?_⟩⟩
    · rw [wetEdge_plain h, htaken]
    · rw [hlev]
      exact wetEdge_aborts hwf hcal now
  case confirm =>
    have hexec : exec (.wettingConfirm n level) s = .next (wetEdge k level ts s) := by
      change execWettingConfirm n level s = _
      simp only [execWettingConfirm, k, c, now] at hc hp hts ⊢
      simp only [hc]
      rw [if_pos (by simp only [Bool.and_eq_true, decide_eq_true_eq]; exact ⟨⟨hfe, hp⟩, hts⟩), if_true]
    rw [hexec]
    refine ⟨fun h => ?_, fun hcal hlev => ⟨_, rfl, ?_⟩⟩
    · rw [wetEdge_plain h, htaken]
    · rw [hlev]
      exact wetEdge_aborts hwf hcal ts
  case dropped =>
    change execWettingConfirm n level s = _
    simp only [execWettingConfirm, k, c, now] at hc hp hts ⊢
    simp only [hc]
    rw [if_pos (by simp only [Bool.and_eq_true, decide_eq_true_eq]; exact ⟨⟨hfe, hp⟩, hts⟩), if_neg (by cases level <;> decide)]

end Sys2Proof.Machine

namespace Sys2Proof.Machine

/-! ### Wire break and wetting (R151–R153) -/

section
variable {s : State} {k : Nat}

theorem ofNat_zeroExtend (n : BitVec 8) : n.zeroExtend 10 = BitVec.ofNat 10 n.toNat := by
  apply BitVec.eq_of_toNat_eq
  simp only [BitVec.truncate_eq_setWidth, BitVec.toNat_setWidth, BitVec.toNat_ofNat]

/-- A channel of the variant is an event source. -/
theorem srcPresent_channel (hk : k < nCh s) (h8 : k < 256) : srcPresent s k = true := by
  rw [srcPresent, if_pos h8]
  exact decide_eq_true hk

/-- A channel's source that fires is pending, whatever settles after it. -/
theorem pend_channel {n : BitVec 8} (hk : n.toNat < nCh s) {c : Bool} (hc : c = true) {t : State}
    (h : Pends (fireIf c n.toNat s) t) : n.zeroExtend 10 ∈ t.ev.pend := by
  rw [ofNat_zeroExtend]
  exact h _ (mem_fireIf_pend (srcPresent_channel hk n.isLt) hc)

theorem chMode_settle (s : State) (k : Nat) : chMode (settle s) k = chMode s k :=
  chMode_congr (settle_regs s) (settle_fixed s) k

theorem nCh_congr {s t : State} (hf : t.fixed = s.fixed) : nCh t = nCh s := by rw [nCh, nCh, nGroups, nGroups, hf]

/-- The filter of a channel whose samples show a break. -/
theorem breakOff_ch (hwf : mwf (fun _ => ({} : ChanSt)) s.chan = true) (us : Nat) :
    let s1 := breakOff k us s
    mwf (fun _ => ({} : ChanSt)) s1.chan = true ∧ s1.regs = s.regs ∧ s1.fixed = s.fixed ∧ (ch s1 k).raw = false ∧
      (ch s1 k).filt = false := by
  unfold breakOff
  dsimp only
  generalize hs1 : (if (ch s k).raw = true then rawTo k false (nowUs s - us) s else s) = s1
  have h1 : mwf (fun _ => ({} : ChanSt)) s1.chan = true ∧ s1.regs = s.regs ∧ s1.fixed = s.fixed ∧ (ch s1 k).raw = false := by
    rw [← hs1]
    split
    · refine ⟨chanWf_chPut hwf _ _, rfl, rfl, ?_⟩
      rw [rawTo, ch_chPut_same hwf]
    · next h => exact ⟨hwf, rfl, rfl, eq_false_of_ne_true h⟩
  obtain ⟨hw1, hr1, hf1, hraw⟩ := h1
  split
  · obtain ⟨hw, hfilt, -, -, hr, -⟩ := debounceTo_ch (k := k) hw1
    obtain ⟨hregs, hfixed⟩ := regs_debounceTo k s1
    exact ⟨hw, hregs.trans hr1, hfixed.trans hf1, hr.trans hraw, hfilt.trans hraw⟩
  · next h => exact ⟨hw1, hr1, hf1, hraw, eq_false_of_ne_true h⟩

/-- A channel in which WIREBREAK has been declared. -/
theorem wireBroken (hk : k < nCh s) (hm : chMode s k = 3) {t : State} (hr : t.regs = s.regs) (hf : t.fixed = s.fixed)
    (hwb : (ch t k).wb = true) : chState t k = false ∧ chCondTag t k = 8 := by
  have hmode : chMode t k = 3 := (chMode_congr hr hf k).trans hm
  constructor
  · simp [chState, hmode, hwb]
  · rw [chCondTag, nCh_congr hf, if_neg (by omega), if_neg (by omega), if_pos ⟨hmode, hwb⟩]
    rfl

end

/-- Settles O35: each command through what it puts into its channel. -/
theorem wireBreakAndWetting : Obligations.WireBreakAndWetting := by
  unfold Obligations.WireBreakAndWetting
  intro s n hk hok k c
  have hwf := tablesOk_chan hok
  refine ⟨fun ns hin hp hcfg hcyc => ?adapts, fun ns hin hp hcfg hcyc => ?stays, fun ua us hm hwb hua hus hset => ?breaks,
    fun ua us hm hwb hua hus => ?clears, fun ua hm hcfg hwb hfilt hcal hopen hlearn => ?learns⟩
  case adapts =>
    have hexec : exec (.wettingAdapt n ns) s = .next (chPut s k { c with
        adaptCyc := s.time.cyc
        winPct := if decide (6 * (8 * c.winPct * wetPeriod s k) < 10 * ns) then min 25 (c.winPct + 1)
          else if 10 * ns < 3 * (8 * c.winPct * wetPeriod s k) then max 5 (c.winPct - 1) else c.winPct
        wetLimit := decide (c.winPct = 25) && decide (6 * (8 * c.winPct * wetPeriod s k) < 10 * ns) }) :=
      (if_pos (by
        simp only [Bool.and_eq_true]
        exact ⟨⟨hin, hp⟩, decide_eq_true hcyc⟩)).trans (if_pos hcfg)
    refine ⟨_, hexec, ?_⟩
    rw [ch_chPut_same hwf]
    refine ⟨rfl, rfl, ?_⟩
    simp only [decide_eq_true_eq]
  case stays =>
    exact (if_pos (by
      simp only [Bool.and_eq_true]
      exact ⟨⟨hin, hp⟩, decide_eq_true hcyc⟩)).trans (if_neg (by rw [hcfg]; exact Bool.false_ne_true))
  case breaks =>
    obtain ⟨hw1, hr1, hf1, hraw, hfilt⟩ := breakOff_ch (k := k) hwf us
    generalize hu : chPut (breakOff k us s) k { ch (breakOff k us s) k with wb := true } = u
    have huw : mwf (fun _ => ({} : ChanSt)) u.chan = true := hu ▸ chanWf_chPut hw1 _ _
    have huk : ch u k = { ch (breakOff k us s) k with wb := true } := hu ▸ ch_chPut_same hw1 _ _
    have hur : u.regs = s.regs ∧ u.fixed = s.fixed := by subst hu; exact ⟨hr1, hf1⟩
    have hexec : exec (.wirebreak n ua us) s = .next (settle (fireIf (fbit (chCfg s k 0x34) 2) k u)) := by
      rw [← hu]
      refine if_pos ?_
      simp only [Bool.and_eq_true, decide_eq_true_eq, Bool.not_eq_true', isBreak, Bool.or_eq_true]
      exact ⟨⟨⟨⟨⟨hk, hm⟩, hwb⟩, hua⟩, hus⟩, hset⟩
    generalize hv : fireIf (fbit (chCfg s k 0x34) 2) k u = v at hexec
    have hvw : mwf (fun _ => ({} : ChanSt)) v.chan = true := by rw [← hv, fireIf_chan]; exact huw
    have hvk : ch v k = { ch (breakOff k us s) k with wb := true } := by rw [← huk, ch, ← hv, fireIf_chan]; rfl
    have hvr : v.regs = s.regs ∧ v.fixed = s.fixed := by rw [← hv, fireIf_regs, fireIf_fixed]; exact hur
    obtain ⟨h1, -, -, h4, -⟩ := settle_filter hvw k
    obtain ⟨h5, -⟩ := settle_input hvw (k := k) (by rw [chMode_congr hvr.1 hvr.2, hm]; decide)
    have hbroken : (ch (settle v) k).wb = true := h4.trans (by rw [hvk])
    obtain ⟨hstate, htag⟩ := wireBroken hk hm ((settle_regs v).trans hvr.1) ((settle_fixed v).trans hvr.2) hbroken
    refine ⟨_, hexec, hbroken, hstate, htag, h1.trans (by rw [hvk]; exact hfilt), h5.trans (by rw [hvk]; exact hraw), fun hen => ?_⟩
    refine pend_channel (s := u) (by rw [nCh_congr hur.2]; exact hk) hen (t := settle v) ?_
    rw [hv]
    exact pends_settle v
  case clears =>
    generalize hu : fireIf (fbit (chCfg s k 0x34) 2) k (chPut s k { c with wb := false, openCyc := s.time.cyc }) = u
    have huw : mwf (fun _ => ({} : ChanSt)) u.chan = true := by rw [← hu, fireIf_chan]; exact chanWf_chPut hwf _ _
    have huk : ch u k = { c with wb := false, openCyc := s.time.cyc } := by
      rw [ch, ← hu, fireIf_chan]
      exact ch_chPut_same hwf _ _
    have hur : u.regs = s.regs ∧ u.fixed = s.fixed := by rw [← hu, fireIf_regs, fireIf_fixed]; exact ⟨rfl, rfl⟩
    have hexec : exec (.wirebreakClear n ua us) s = .next (settle (if c.filt then chEdge k true c.filtTs u else u)) := by
      rw [← hu]
      refine if_pos ?_
      simp only [Bool.and_eq_true, decide_eq_true_eq]
      exact ⟨⟨⟨⟨hk, hm⟩, hwb⟩, hua⟩, hus⟩
    generalize hv : (if c.filt = true then chEdge k true c.filtTs u else u) = v at hexec
    have hvk : mwf (fun _ => ({} : ChanSt)) v.chan = true ∧ v.regs = s.regs ∧ v.fixed = s.fixed ∧ (ch v k).wb = false ∧
        (ch v k).filt = c.filt ∧ (c.filt = true → (ch v k).tsUs = BitVec.ofNat 31 c.filtTs ∧ (ch v k).tsRising = true) := by
      rw [← hv]
      split
      · have hedge : ch (chEdge k true c.filtTs u) k = { ch u k with
            edges := (ch u k).edges ++ [(nextLatch u, true)], lastTs := some c.filtTs
            tsUs := BitVec.ofNat 31 c.filtTs, tsRising := true } :=
          (congrArg (fun m => mget (fun _ => ({} : ChanSt)) m k) (chEdge_chan ..)).trans (ch_chPut_same huw _ _)
        rw [hedge, chEdge_chan, huk]
        exact ⟨chanWf_chPut huw _ _, by simp [hur.1], by simp [hur.2], rfl, rfl, fun _ => ⟨rfl, rfl⟩⟩
      · next hf =>
        rw [huk]
        exact ⟨huw, hur.1, hur.2, rfl, rfl, fun h => absurd h hf⟩
    obtain ⟨hvw, hvr, hvf, hvwb, hvfilt, hvts⟩ := hvk
    obtain ⟨h1, -, -, h4, -⟩ := settle_filter hvw k
    have hvm : chMode v k = 3 := (chMode_congr hvr hvf k).trans hm
    obtain ⟨-, -, -, h6, h7⟩ := settle_input hvw (k := k) (by rw [hvm]; decide)
    refine ⟨_, hexec, h4.trans hvwb, ?_, fun hf => ⟨h6.trans (hvts hf).1, h7.trans (hvts hf).2⟩⟩
    rw [chState]
    simp [chMode_settle, hvm, h1, h4, hvwb, hvfilt]
  case learns =>
    have hexec : exec (.wbLearn n ua) s = .next (chPut s k { c with
        learnCyc := s.time.cyc, ioffAcc := if c.learnt then c.ioffAcc + ua - c.ioffAcc / 3600 else 3600 * ua
        ioff := min 1023 ((if c.learnt then c.ioffAcc + ua - c.ioffAcc / 3600 else 3600 * ua) / 3600), learnt := true }) := if_pos (by
      simp only [Bool.and_eq_true, decide_eq_true_eq, Bool.not_eq_true', secondFrom]
      exact ⟨⟨⟨⟨⟨⟨⟨hk, hm⟩, hcfg⟩, hwb⟩, hfilt⟩, hcal⟩, hopen⟩, hlearn⟩)
    refine ⟨_, hexec, ?_⟩
    rw [ch_chPut_same hwf]
    refine ⟨rfl, fun hl => ?_, rfl⟩
    simp [hl]

end Sys2Proof.Machine

namespace Sys2Proof.Machine

/-! ### Overload (R156–R158) -/

section
variable {s : State} {k : Nat}

theorem isOut_congr {s t : State} (hr : t.regs = s.regs) (hf : t.fixed = s.fixed) (n : Nat) : isOut t n = isOut s n := by
  rw [isOut, isOut, chMode_congr hr hf]

theorem ch_congr {s t : State} (h : t.chan = s.chan) (n : Nat) : ch t n = ch s n := by rw [ch, ch, h]

theorem gr_congr {s t : State} (h : t.grp = s.grp) (g : Nat) : gr t g = gr s g := by rw [gr, gr, h]

theorem gr_grPut_same (h : mwf (fun _ => ({} : GrpSt)) s.grp = true) (g : Nat) (x : GrpSt) : gr (grPut s g x) g = x :=
  mget_mput_same _ h

/-- A channel whose trip stands. -/
theorem condTag_tripped (hk : k < nCh s) (ho : isOut s k = true) (ht : (ch s k).trip = true) : chCondTag s k = 9 := by
  have hm : chMode s k = 4 ∨ chMode s k = 5 := by simpa [isOut] using ho
  rw [chCondTag, if_neg (by omega), if_neg (by omega), if_neg (by omega), if_pos ⟨ho, ht⟩]
  rfl

/-- The trips of the last 60 s before this one. -/
def recentTrips (s : State) (k : Nat) : List Nat := (ch s k).trips.filter (fun x => decide (s.time.cyc < x + 12000000000))

/-- What a trip leaves. -/
theorem chTrip_trips (hwf : mwf (fun _ => ({} : ChanSt)) s.chan = true) (hk : k < nCh s) (ho : isOut s k = true) (cause : Nat) :
    let t := chTrip k cause s
    (ch t k).trip = true ∧ (ch t k).cause = BitVec.ofNat 4 cause ∧ (ch t k).tripCyc = s.time.cyc ∧ chCondTag t k = 9 ∧
      (ch t k).lock = ((ch s k).lock || decide (8 ≤ (recentTrips s k).length + 1)) ∧ t.grp = s.grp := by
  intro t
  generalize hx : ({ ch s k with
    trip := true, cause := BitVec.ofNat 4 cause, tripCyc := s.time.cyc, trips := recentTrips s k ++ [s.time.cyc]
    lock := (ch s k).lock || decide (8 ≤ (recentTrips s k ++ [s.time.cyc]).length), rearmReq := false } : ChanSt) = x
  obtain ⟨v, hv, hchan, hgrp, hregs, hfixed⟩ : ∃ v, t = settle v ∧ v.chan = (chPut s k x).chan ∧ v.grp = s.grp ∧ v.regs = s.regs ∧
      v.fixed = s.fixed := by
    have hreact := reacts_containedFault k 0x19 (chPut s k x)
    refine ⟨fireIf (fbit (chCfg s k 0x34) 3) k (containedFault k 0x19 (chPut s k x)), by rw [← hx]; rfl, ?_⟩
    rw [fireIf_chan, fireIf_grp, fireIf_regs, fireIf_fixed]
    obtain ⟨l, ed, tw, td, p, e, i, tm, n, b, sy, sl, f, u, h⟩ := hreact
    rw [h]
    exact ⟨rfl, rfl, rfl, rfl⟩
  have hvk : ch v k = x := (ch_congr hchan k).trans (ch_chPut_same hwf k x)
  have hvw : mwf (fun _ => ({} : ChanSt)) v.chan = true := by rw [hchan]; exact chanWf_chPut hwf k x
  obtain ⟨-, -, -, -, h5, h6, h7, h8, -⟩ := settle_filter hvw k
  rw [hv]
  have htrip : (ch (settle v) k).trip = true := h5.trans (by rw [hvk, ← hx])
  refine ⟨htrip, h6.trans (by rw [hvk, ← hx]), h7.trans (by rw [hvk, ← hx]), condTag_tripped ?_ ?_ htrip, ?_,
    (settle_grp v).trans hgrp⟩
  · rw [nCh_congr ((settle_fixed v).trans hfixed)]
    exact hk
  · rw [isOut_congr ((settle_regs v).trans hregs) ((settle_fixed v).trans hfixed)]
    exact ho
  · rw [h8, hvk, ← hx, List.length_append, List.length_singleton]

theorem isOn_parts (h : isOn s k = true) : k < nCh s ∧ isOut s k = true := by
  simp only [isOn, Bool.and_eq_true, decide_eq_true_eq] at h
  exact h.1.1

theorem isOn_of_highestOn {g j : Nat} (h : highestOn s g = some j) : isOn s j = true := List.find?_some h

end

/-- Settles O36: each cause through the rule of a trip. -/
theorem channelOverload : Obligations.ChannelOverload := by
  unfold Obligations.ChannelOverload
  intro s n hok k tripped
  have hwf := tablesOk_chan hok
  refine ⟨fun us hon hus => ?short, fun ma us hon hma hus => ?overcurrent, fun hon => ?thermal,
    fun g ma us j hg hma hj hus hshed => ?shed, fun hmay hk ht => ?rearm⟩
  case short =>
    obtain ⟨hk, ho⟩ := isOn_parts hon
    obtain ⟨h1, h2, h3, h4, h5, -⟩ := chTrip_trips hwf hk ho 1
    exact ⟨_, if_pos (by simp only [Bool.and_eq_true, decide_eq_true_eq]; exact ⟨hon, hus⟩), h1, h2, h3, h4, h5⟩
  case overcurrent =>
    obtain ⟨hk, ho⟩ := isOn_parts hon
    generalize hu : ({ chPut s k { ch s k with measI := BitVec.ofNat 16 ma } with btn := { s.btn with
      curMax := mput (fun _ => 0) s.btn.curMax k (max (mget (fun _ => 0) s.btn.curMax k) (satN 0xFFFF ma)) } } : State) = u
    have hexec : exec (.overcurrent n ma us) s = .next (chTrip k 2 u) := by
      rw [← hu]
      exact if_pos (by simp only [Bool.and_eq_true, decide_eq_true_eq]; exact ⟨⟨hon, hma⟩, hus⟩)
    have huk : ch u k = { ch s k with measI := BitVec.ofNat 16 ma } := hu ▸ ch_chPut_same hwf k _
    have huw : mwf (fun _ => ({} : ChanSt)) u.chan = true := hu ▸ chanWf_chPut hwf k _
    have hus : u.regs = s.regs ∧ u.fixed = s.fixed ∧ u.time = s.time := by subst hu; exact ⟨rfl, rfl, rfl⟩
    obtain ⟨hr, hf, htime⟩ := hus
    obtain ⟨h1, h2, h3, h4, h5, -⟩ := chTrip_trips (k := k) huw (by rw [nCh_congr hf]; exact hk) (by rw [isOut_congr hr hf]; exact ho) 2
    exact ⟨_, hexec, h1, h2, h3.trans (by rw [htime]), h4, h5.trans (by rw [recentTrips, huk, htime])⟩
  case thermal =>
    obtain ⟨hk, ho⟩ := isOn_parts hon
    obtain ⟨h1, h2, h3, h4, h5, -⟩ := chTrip_trips hwf hk ho 3
    exact ⟨_, if_pos hon, h1, h2, h3, h4, h5⟩
  case shed =>
    obtain ⟨hk, ho⟩ := isOn_parts (isOn_of_highestOn hj)
    generalize hx : ({ gr s g.toNat with
      shed := true, shedCyc := s.time.cyc, ma := BitVec.ofNat 16 ma
      peak := if (gr s g.toNat).peak < BitVec.ofNat 16 ma then BitVec.ofNat 16 ma else (gr s g.toNat).peak } : GrpSt) = x
    generalize hu : fireIf (fbit (force s (aGRP g.toNat)) 9) (440 + g.toNat) (grPut s g.toNat x) = u
    have hexec : exec (.groupShed g ma us) s = .next (chTrip j 4 u) := by
      rw [← hu, ← hx]
      refine (if_pos ?_).trans ?_
      · simp only [Bool.and_eq_true, decide_eq_true_eq, Bool.or_eq_true]
        exact ⟨⟨⟨hg, hma⟩, hus⟩, hshed⟩
      · rw [hj]
    have hus : u.regs = s.regs ∧ u.fixed = s.fixed ∧ u.time = s.time ∧ u.chan = s.chan ∧ u.grp = (grPut s g.toNat x).grp := by
      subst hu
      simp
    obtain ⟨hr, hf, htime, hchan, hgrp⟩ := hus
    have huk : ch u j = ch s j := ch_congr hchan j
    obtain ⟨h1, h2, h3, h4, h5, h6⟩ := chTrip_trips (k := j) (by rw [hchan]; exact hwf) (by rw [nCh_congr hf]; exact hk)
      (by rw [isOut_congr hr hf]; exact ho) 4
    have hgr : gr (chTrip j 4 u) g.toNat = x := (gr_congr (h6.trans hgrp) _).trans (gr_grPut_same (tablesOk_grp hok) _ _)
    refine ⟨_, hexec, ⟨h1, h2, h3.trans (by rw [htime]), h4, h5.trans (by rw [recentTrips, huk, htime])⟩, ?_, ?_⟩
    · rw [hgr, ← hx]
    · rw [hgr, ← hx]
  case rearm => exact (cpRow_of_rowMay rfl hmay _).trans (if_pos ⟨hk, ht⟩)

end Sys2Proof.Machine

namespace Sys2Proof.Machine

/-! ### Readback, settling and calibration (R159–R166) -/

section
variable {s : State} {k : Nat}

@[simp] theorem nvEnqueue_chan (r : NvReq) (s : State) : (nvEnqueue r s).chan = s.chan := by
  obtain ⟨b, n, e, i, h⟩ := reports_nvEnqueue r s
  rw [h]

/-- A sample leaves the calibration alone. -/
theorem sampleTo_cal (hwf : mwf (fun _ => ({} : ChanSt)) s.chan = true) (level : Bool) :
    let c := ch s k
    let d := ch (sampleTo k level s) k
    d.calActive = c.calActive ∧ d.calLast = c.calLast ∧ d.calAborts = c.calAborts := by
  have hput : ∀ y, ch (chPut s k y) k = y := ch_chPut_same hwf k
  unfold sampleTo rawTo
  dsimp only
  (repeat' split) <;> simp only [hput, and_self]

/-- What an aborted window leaves of its channel. -/
theorem abortWindow_ch (hwf : mwf (fun _ => ({} : ChanSt)) s.chan = true) :
    let c := ch s k
    let d := ch (abortWindow k s) k
    d.calActive = false ∧ d.calLast = 2 ∧ d.calAborts = min 255 (c.calAborts + 1) ∧
      (c.raw = false → c.fePulsed = false → d.raw = true ∧ d.rawTs = s.time.ns / 1000) ∧
      (c.raw = false → c.fePulsed = true → c.confirm = none → c.fullUntil ≤ s.time.ns / 1000 → wetWindow s k = false →
        d.confirm = some (true, s.time.ns / 1000)) := by
  intro c d
  obtain ⟨hch, hwf'⟩ := calDiscard_ch (k := k) hwf 2
  have htime : (calDiscard k 2 s).time = s.time := by simp [calDiscard]
  have hwet : wetWindow (calDiscard k 2 s) k = wetWindow s k := by
    rw [wetWindow, wetWindow, wetPeriod, wetPeriod, nowUs, nowUs, hch, htime]
  have hsat : satN 255 (c.calAborts + 1) = min 255 (c.calAborts + 1) := by
    unfold satN
    split <;> omega
  simp only [d, abortWindow]
  generalize hx : calDiscard k 2 s = x at hch hwf' htime hwet ⊢
  have hput : ∀ y, ch (chPut x k y) k = y := ch_chPut_same hwf' k
  have hnow : nowUs x = s.time.ns / 1000 := by rw [nowUs, htime]
  obtain ⟨h1, h2, h3⟩ := sampleTo_cal (k := k) hwf' true
  rw [hch] at h1 h2 h3
  have hrise : c.raw = false → true ≠ (ch x k).raw := fun hr e => by
    rw [hch] at e
    exact absurd (e.trans hr) (by decide)
  refine ⟨h1, h2, h3.trans hsat, fun hr hp => ?_, fun hr hp hc hu hw => ?_⟩
  · rw [sampleTo_at_once (hrise hr) (.inl (by rw [hch]; exact hp)), rawTo, hput]
    exact ⟨rfl, hnow⟩
  · rw [sampleTo_waits (hrise hr) (by rw [hch]; exact hp) (by rw [hch]; exact hc)
      (by rw [hch, hnow]; exact hu) (hwet.trans hw), hput, hnow]

end

/-- Settles O37: each command through what it puts into its channel. -/
theorem channelUpkeep : Obligations.ChannelUpkeep := by
  unfold Obligations.ChannelUpkeep
  constructor
  case left =>
    intro s n us hk hok k c
    have hwf := tablesOk_chan hok
    refine ⟨fun hm hne hmm hex hus => ?mismatch, fun ho hds => ?off, fun ho hds hdr hcyc => ?on⟩
    case mismatch =>
      have hexec : exec (.mismatch n us) s =
          .next (fireIf (fbit (chCfg s k 0x34) 4) k (chPut s k { c with mismatch := true })) := if_pos (by
        have hexempt : (c.filt && !c.drive && decide (s.pair.role ≠ .solo)) = false := by
          rcases hex with h | h <;> simp [h]
        simp only [Bool.and_eq_true, decide_eq_true_eq, Bool.not_eq_true', bne_iff_ne]
        exact ⟨⟨⟨⟨⟨hk, hm⟩, hne⟩, hmm⟩, hexempt⟩, hus⟩)
      refine ⟨_, hexec, ?_, fun hen => pend_channel (s := chPut s k _) hk hen (.refl _), by simp⟩
      rw [ch, fireIf_chan]
      exact congrArg ChanSt.mismatch (ch_chPut_same hwf k _)
    all_goals
      generalize hb : fbit (chCfg s k 0x34) 6 = b
    case off =>
      have hexec : exec (.driveSense n false) s =
          .next (settle (releaseCheck (fireIf b k (chPut s k { c with driveSense := false })))) := by
        rw [← hb]
        refine if_pos ?_
        simp only [Bool.and_eq_true, decide_eq_true_eq, bne_iff_ne]
        exact ⟨⟨⟨hk, ho⟩, by simp [c, k] at hds ⊢; simp [hds]⟩, rfl⟩
      generalize hv : releaseCheck (fireIf b k (chPut s k { c with driveSense := false })) = v at hexec
      have hchan : v.chan = (chPut s k { c with driveSense := false }).chan := by
        obtain ⟨l, ed, tw, td, p, e, i, tm, n, bt, sy, sl, f, u, h⟩ :=
          reacts_releaseCheck (fireIf b k (chPut s k { c with driveSense := false }))
        rw [← hv, h]
        simp
      have hvk : ch v k = { c with driveSense := false } := (ch_congr hchan k).trans (ch_chPut_same hwf k _)
      obtain ⟨dr, dc, cy, ds, mm, raw, ed, lt, tu, tr, h, hd, -, hoff, -⟩ :=
        (settle_ch (s := v) (by rw [hchan]; exact chanWf_chPut hwf k _)).2 k
      refine ⟨_, hexec, ?_⟩
      rw [hd]
      exact hoff (by rw [hvk])
    case on =>
      have hexec : exec (.driveSense n true) s =
          .next (settle (releaseCheck (fireIf b k (chPut s k { c with driveSense := true })))) := by
        rw [← hb]
        refine if_pos ?_
        simp only [Bool.and_eq_true, decide_eq_true_eq, bne_iff_ne, Bool.or_eq_true, Bool.not_eq_true']
        exact ⟨⟨⟨hk, ho⟩, by simp [c, k] at hds ⊢; simp [hds]⟩, .inr ⟨hdr, hcyc⟩⟩
      generalize hf : fireIf b k (chPut s k { c with driveSense := true }) = f at hexec
      have hfc : f.chan = (chPut s k { c with driveSense := true }).chan := by rw [← hf, fireIf_chan]
      have hchan : (releaseCheck f).chan = (chPut s k { c with driveSense := true }).chan := by
        obtain ⟨l, ed, tw, td, p, e, i, tm, n, bt, sy, sl, g, u, h⟩ := reacts_releaseCheck f
        rw [h]
        exact hfc
      have hvk : ch (releaseCheck f) k = { c with driveSense := true } := (ch_congr hchan k).trans (ch_chPut_same hwf k _)
      obtain ⟨dr, dc, cy, ds, mm, raw, ed, lt, tu, tr, h, hd, -, -, hon, -⟩ :=
        (settle_ch (s := releaseCheck f) (by rw [hchan]; exact chanWf_chPut hwf k _)).2 k
      refine ⟨_, hexec, ?_, fun hen => ?_⟩
      · rw [hd]
        exact hon (by rw [hvk])
      · subst hb
        refine pend_channel (s := chPut s k { c with driveSense := true }) hk hen ?_
        exact hf ▸ (pends_releaseCheck f).trans (pends_settle _)
  case right =>
    intro s n hk hok k c
    have hwf := tablesOk_chan hok
    refine ⟨fun hl ht => if_pos ⟨hk, hl, ht⟩, fun hin ha => if_pos ?_, fun ha => if_pos ⟨hk, ha⟩,
      fun hmay => (cpRow_of_rowMay rfl hmay _).trans (if_pos hk), fun hin hw hq hfree ht => if_pos ?_,
      fun thr ilim hact hcyc h1 h2 h3 h4 => ?applied, fun thr ilim hact hcyc hthr => ?discarded, fun hact => ?aborted⟩
    · simp only [Bool.and_eq_true, decide_eq_true_eq]
      exact ⟨hin, ha⟩
    · have hbusy : (List.range 8).any (fun i => (ch s (8 * (k / 8) + i)).calActive) = false := by
        rw [List.any_eq_false]
        intro i hi
        simp [hfree i (List.mem_range.mp hi)]
      simp only [Bool.and_eq_true, decide_eq_true_eq, Bool.not_eq_true']
      exact ⟨⟨⟨⟨hin, hw⟩, hq⟩, hbusy⟩, ht⟩
    case applied =>
      have hgo : (decide (n.toNat < nCh s) && (ch s n.toNat).calActive &&
          decide ((ch s n.toNat).calStart + cycUs 2000 ≤ s.time.cyc)) = true := by
        simp only [Bool.and_eq_true, decide_eq_true_eq]
        exact ⟨⟨hk, hact⟩, hcyc⟩
      refine ⟨_, (if_pos hgo).trans ((if_neg Bool.false_ne_true).trans (if_neg (by omega))), ?_⟩
      rw [ch, gradNotice_chan, nvEnqueue_chan]
      simp only [corrected, fireIf_chan]
      have := ch_chPut_same hwf k
      simp only [ch] at this
      rw [this]
      exact ⟨rfl, rfl, rfl, rfl, rfl, rfl, rfl, rfl⟩
    case discarded =>
      have hgo : (decide (n.toNat < nCh s) && (ch s n.toNat).calActive &&
          decide ((ch s n.toNat).calStart + cycUs 2000 ≤ s.time.cyc)) = true := by
        simp only [Bool.and_eq_true, decide_eq_true_eq]
        exact ⟨⟨hk, hact⟩, hcyc⟩
      refine ⟨_, (if_pos hgo).trans ((if_neg Bool.false_ne_true).trans (if_pos (by omega))), ?_⟩
      rw [ch_congr (notice_chan _ _ _ _ _), (calDiscard_ch hwf 4).1]
      exact ⟨rfl, rfl, rfl, rfl⟩
    case aborted => exact ⟨_, if_pos ⟨hk, hact⟩, abortWindow_ch hwf⟩

end Sys2Proof.Machine

namespace Sys2Proof.Machine

/-! ### Field supply of a group (R145, R167, R168, R186) -/

section
variable {s : State} {k : Nat}

/-- A channel whose front end has lost its L+. -/
def FrontOff (c d : ChanSt) : Prop :=
  d.feMode = 0 ∧ d.fePulsed = false ∧ (c.feMode ≠ 0 → c.feMode ≠ 4 → d.raw = false)

theorem frontLost_ch (hwf : mwf (fun _ => ({} : ChanSt)) s.chan = true) (n : Nat) :
    (∃ x, frontLost s n = { s with chan := x }) ∧ mwf (fun _ => ({} : ChanSt)) (frontLost s n).chan = true ∧
      (∀ m, m ≠ n → ch (frontLost s n) m = ch s m) ∧ FrontOff (ch s n) (ch (frontLost s n) n) := by
  unfold frontLost
  dsimp only
  generalize hs1 : (if ((ch s n).raw && feSampled s n) = true then rawTo n false (nowUs s) s else s) = s1
  have h1 : (∃ x, s1 = { s with chan := x }) ∧ mwf (fun _ => ({} : ChanSt)) s1.chan = true ∧ (∀ m, m ≠ n → ch s1 m = ch s m) ∧
      (ch s1 n).feMode = (ch s n).feMode := by
    rw [← hs1]
    split
    · exact ⟨⟨_, rfl⟩, chanWf_chPut hwf _ _, fun m hm => ch_chPut_other hm _, by rw [rawTo, ch_chPut_same hwf]⟩
    · exact ⟨⟨_, rfl⟩, hwf, fun _ _ => rfl, rfl⟩
  obtain ⟨⟨x, hx⟩, hw, hother, hfe⟩ := h1
  refine ⟨?_, chanWf_chPut hw _ _, fun m hm => (ch_chPut_other hm _).trans (hother m hm), ?_⟩
  · subst hx
    exact ⟨_, rfl⟩
  · rw [ch_chPut_same hw]
    refine ⟨rfl, rfl, fun h0 h4 => ?_⟩
    rw [← hfe] at h0 h4
    have hcomp : decide ((ch s1 n).feMode = 0 ∨ (ch s1 n).feMode = 4) = false := decide_eq_false (not_or.mpr ⟨h0, h4⟩)
    rw [hcomp, Bool.and_false]

/-- The front ends of a group's channels below `m` have lost their L+. -/
theorem frontLost_foldl (hwf : mwf (fun _ => ({} : ChanSt)) s.chan = true) (b m : Nat) :
    let t := (List.range m).foldl (fun a i => frontLost a (b + i)) s
    (∃ x, t = { s with chan := x }) ∧ mwf (fun _ => ({} : ChanSt)) t.chan = true ∧
      (∀ i, m ≤ i → ch t (b + i) = ch s (b + i)) ∧ ∀ i < m, FrontOff (ch s (b + i)) (ch t (b + i)) := by
  induction m with
  | zero => exact ⟨⟨_, rfl⟩, hwf, fun _ _ => rfl, fun i hi => absurd hi (Nat.not_lt_zero i)⟩
  | succ m ih =>
    intro t
    simp only [t, List.range_succ, List.foldl_append, List.foldl_cons, List.foldl_nil]
    generalize (List.range m).foldl _ s = a at ih ⊢
    obtain ⟨⟨x, hx⟩, hw, habove, hbelow⟩ := ih
    obtain ⟨⟨y, hy⟩, hw2, hother, hoff⟩ := frontLost_ch hw (b + m)
    refine ⟨⟨y, by rw [hy, hx]⟩, hw2, fun i hi => (hother _ (by omega)).trans (habove i (by omega)), fun i hi => ?_⟩
    by_cases him : i = m
    · rw [him, ← habove m (Nat.le_refl m)]
      exact hoff
    · rw [hother _ (by omega)]
      exact hbelow i (by omega)

/-- A group of the variant is an event source. -/
theorem srcPresent_group (hk : k < nGroups s) : srcPresent s (440 + k) = true := by
  have h32 : nGroups s ≤ 32 := by
    unfold nGroups
    split <;> omega
  simp only [srcPresent, show ¬ 440 + k < 256 by omega, show ¬ 440 + k < 400 by omega, show ¬ 440 + k < 416 by omega,
    show ¬ 440 + k < 432 by omega, show ¬ 440 + k < 440 by omega, show 440 + k < 472 by omega, if_true, if_false]
  simp
  omega

theorem nGroups_congr {s t : State} (hf : t.fixed = s.fixed) : nGroups t = nGroups s := by rw [nGroups, nGroups, hf]

/-- The state of a group after its event and the settling of the outputs. -/
theorem gr_settle_fireIf_grPut (hwf : mwf (fun _ => ({} : GrpSt)) s.grp = true) (c : Bool) (src : Nat) (x : GrpSt) :
    gr (settle (fireIf c src (grPut s k x))) k = x := by
  rw [gr, settle_grp, fireIf_grp]
  exact gr_grPut_same hwf k x

end

/-- Settles O38: the group through what each command puts into it, its channels through the loss of their front ends. -/
theorem groupSupply : Obligations.GroupSupply := by
  unfold Obligations.GroupSupply
  intro s g hg hok k q
  have hwf := tablesOk_chan hok
  have hgwf := tablesOk_grp hok
  refine ⟨?lost, fun hl => if_pos ⟨hg, hl⟩, fun mv hl hmv => ?low, fun mv hl hmv => ?lowClear, fun uj huj => ?surge,
    fun hl hheart => ?hardOff⟩
  case lost =>
    obtain ⟨⟨x, hx⟩, hw, -, hoff⟩ := frontLost_foldl hwf (8 * k) 8
    have hexec : exec (.fieldSupplyLost g) s = _ := if_pos hg
    generalize (List.range 8).foldl (fun a i => frontLost a (8 * k + i)) s = s1 at hx hw hoff hexec
    generalize hs2 : grPut s1 k { q with lost := true, reload := false, hardOff := false, low := true, lowSeen := q.lowSeen || !q.low } = s2
    have hgr2 : gr s2 k = { q with lost := true, reload := false, hardOff := false, low := true, lowSeen := q.lowSeen || !q.low } := by
      rw [← hs2]
      exact gr_grPut_same (by rw [hx]; exact hgwf) _ _
    have hv : ∀ b, ∃ v, fireIf b (440 + k) s2 = v ∧ v.chan = s1.chan ∧ v.mem = s.mem ∧ gr v k = gr s2 k := fun b => by
      refine ⟨_, rfl, ?_, ?_, ?_⟩
      · rw [fireIf_chan, ← hs2]; rfl
      · rw [fireIf_mem, ← hs2, hx]; rfl
      · rw [gr, fireIf_grp]; rfl
    obtain ⟨v, hvf, hvc, hvm, hvg⟩ := hv (!q.low && fbit (force s (aGRP k)) 8)
    rw [hgr2] at hvg
    have hgt : gr (settle v) k = gr v k := gr_congr (settle_grp v) k
    refine ⟨settle v, hexec.trans (by rw [← hvf, ← hs2]), ?_⟩
    rw [hgt, hvg]
    refine ⟨rfl, rfl, rfl, rfl, fun i hi => ?_, (settle_mem v).trans hvm⟩
    have hvw : mwf (fun _ => ({} : ChanSt)) v.chan = true := by rw [hvc]; exact hw
    have hout : outOff v (8 * k + i) = true := by
      have hdiv : (8 * k + i) / 8 = k := by omega
      simp [outOff, hdiv, hvg]
    obtain ⟨dr, dc, cy, ds, mm, raw, ed, lt, tu, tr, h, hd, -, -, -, hlow⟩ := (settle_ch hvw).2 (8 * k + i)
    obtain ⟨hfe, hpu, hraw⟩ := hoff i hi
    have hch : ch v (8 * k + i) = ch s1 (8 * k + i) := ch_congr hvc _
    rw [hd, hch]
    refine ⟨hfe, hpu, fun h0 h4 => ?_⟩
    rcases hlow hout with hr | hr
    · exact hr.trans ((congrArg ChanSt.raw hch).trans (hraw h0 h4))
    · exact hr
  case low =>
    refine ⟨_, if_pos ⟨hg, hl, hmv⟩, ?_⟩
    rw [gr_settle_fireIf_grPut hgwf]
    refine ⟨rfl, rfl, fun hen => ?_⟩
    exact pends_settle _ _ (mem_fireIf_pend (s := grPut s g.toNat _) (srcPresent_group hg) hen)
  case lowClear =>
    refine ⟨_, if_pos ⟨hg, hl, hmv⟩, ?_⟩
    rw [gr_congr (settle_grp _), gr_grPut_same hgwf]
    exact ⟨rfl, rfl⟩
  case surge =>
    have hsat : ∀ n, satN 65535 n = min 65535 n := fun n => by
      unfold satN
      split <;> omega
    refine ⟨_, if_pos ⟨hg, huj⟩, ?_⟩
    rw [gr_congr (gradNotice_grp _ _ _ _)]
    have hgr := gr_grPut_same hgwf k { q with
      surge := true, surgeLast := satN 0xFFFF uj, surgeCount := satN 0xFFFF (q.surgeCount + 1) }
    refine (congrArg (fun x : GrpSt => x.surge = true ∧ x.surgeCount = min 65535 (q.surgeCount + 1) ∧ x.surgeLast = min 65535 uj)
      hgr).mpr ?_
    exact ⟨rfl, hsat _, hsat _⟩
  case hardOff =>
    have hstop : heartStopped s 35 = true := by
      rcases hheart with hp | ⟨c, hc, hcyc⟩
      · simp [heartStopped, hp]
      · simp only [heartStopped, hc, Bool.or_eq_true, decide_eq_true_eq]
        exact .inr hcyc
    refine ⟨_, if_pos ⟨hg, hl, hstop⟩, ?_, settle_mem _⟩
    rw [gr_congr (settle_grp _), gr_grPut_same hgwf]

end Sys2Proof.Machine

/-! ## The Sluice sequencer -/

namespace Sys2Proof.Machine

/-! ### Starts and releases (R177, R180, R182) -/

section
variable {s : State} {k : Nat}

theorem sg_sgPut_same (h : mwf (fun _ => ({} : SlcGrp)) s.slc.grp = true) (g : Nat) (x : SlcGrp) : sg (sgPut s g x) g = x :=
  mget_mput_same _ h

theorem sg_sgPut_other {g m : Nat} (h : m ≠ g) (x : SlcGrp) : sg (sgPut s g x) m = sg s m := mget_mput_other _ h

theorem sg_congr {s t : State} (h : t.slc = s.slc) (g : Nat) : sg t g = sg s g := by rw [sg, sg, h]

/-- A map from a test of each bit. -/
theorem getLsbD_bits32 (f : Nat → Bool) {e : Nat} (he : e < 32) : (bits32 f).getLsbD e = f e := by
  have hbit : ∀ i < 32, (1#32 <<< i).getLsbD e = decide (e = i) := fun i hi => by
    rw [BitVec.getLsbD_shiftLeft, BitVec.getLsbD_one]
    simp only [he, decide_true, Bool.true_and]
    by_cases h : e = i
    · simp [h]
    · simp only [h, decide_false, Bool.and_eq_false_iff, Bool.not_eq_false', decide_eq_true_eq, decide_eq_false_iff_not]
      omega
  have key : ∀ n ≤ 32, ((List.range n).foldl (fun v i => if f i then v ||| (1#32 <<< i) else v) (0 : Word)).getLsbD e =
      (decide (e < n) && f e) := by
    intro n
    induction n with
    | zero => intro _; simp
    | succ n ih =>
      intro hn
      rw [List.range_succ, List.foldl_append, List.foldl_cons, List.foldl_nil]
      have hstep := ih (by omega)
      generalize (List.range n).foldl _ (0 : Word) = v at hstep ⊢
      by_cases h : e = n
      · subst h
        simp only [Nat.lt_irrefl, decide_false, Bool.false_and] at hstep
        cases hf : f e
        · simp [hstep]
        · simp [BitVec.getLsbD_or, hbit e he]
      · have hlt : decide (e < n + 1) = decide (e < n) := by
          simp only [decide_eq_decide]
          omega
        rw [hlt, ← hstep]
        split
        · simp [BitVec.getLsbD_or, hbit n (by omega), h]
        · rfl
  rw [bits32, key 32 (by decide)]
  simp [he]

/-- A group after a start of its sequence (R177). -/
def Started (cause : Nat) (x : SlcGrp) : Prop :=
  x.phase = .running ∧ x.step = 0 ∧ x.cause = BitVec.ofNat 4 cause ∧ x.held = 0

theorem slcStartGrp_idle {g : Nat} (h : (sg s g).phase = .idle ∧ g < nGroups s) (cause : Nat) (u : Bool) :
    ∃ x b, Started cause x ∧ slcStartGrp cause u s g = fireIf b (440 + g) (sgPut s g x) :=
  ⟨_, _, ⟨rfl, rfl, rfl, rfl⟩, if_pos h⟩

theorem slcStartGrp_spec (hwf : mwf (fun _ => ({} : SlcGrp)) s.slc.grp = true) (cause : Nat) (u : Bool) (g : Nat) :
    let t := slcStartGrp cause u s g
    mwf (fun _ => ({} : SlcGrp)) t.slc.grp = true ∧ t.slc = { s.slc with grp := t.slc.grp } ∧ t.fixed = s.fixed ∧
      (∀ m, m ≠ g → sg t m = sg s m) ∧ ((sg s g).phase = .idle → g < nGroups s → Started cause (sg t g)) ∧
      (¬ ((sg s g).phase = .idle ∧ g < nGroups s) → sg t g = sg s g) := by
  intro t
  by_cases h : (sg s g).phase = .idle ∧ g < nGroups s
  · obtain ⟨x, b, hx, ht⟩ := slcStartGrp_idle h cause u
    have hsg : ∀ m, sg t m = sg (sgPut s g x) m := fun m => (congrArg (sg · m) ht).trans (sg_congr (fireIf_slc _ _ _) m)
    have hslc : t.slc = (sgPut s g x).slc := (congrArg State.slc ht).trans (fireIf_slc _ _ _)
    refine ⟨?_, ?_, (congrArg State.fixed ht).trans (fireIf_fixed _ _ _), fun m hm => (hsg m).trans (sg_sgPut_other hm x),
      fun _ _ => ?_, fun hn => absurd h hn⟩
    · rw [hslc]
      exact mwf_mput _ _ _ hwf
    · rw [hslc]
      rfl
    · rw [hsg, sg_sgPut_same hwf]
      exact hx
  · have ht : t = s := if_neg h
    rw [ht]
    exact ⟨hwf, rfl, rfl, fun _ _ => rfl, fun hi hg => absurd ⟨hi, hg⟩ h, fun _ => rfl⟩

/-- Starts of the listed groups: each that was IDLE runs, and no other changes. -/
theorem slcStartGrps_spec (cause : Nat) (u : Nat → Bool) (l : List Nat) (hl : l.Nodup) :
    ∀ {s : State}, mwf (fun _ => ({} : SlcGrp)) s.slc.grp = true →
    let t := l.foldl (fun a g => slcStartGrp cause (u g) a g) s
    t.slc = { s.slc with grp := t.slc.grp } ∧
      ∀ g, (g ∈ l ∧ g < nGroups s ∧ (sg s g).phase = .idle → Started cause (sg t g)) ∧
        (¬ (g ∈ l ∧ g < nGroups s ∧ (sg s g).phase = .idle) → sg t g = sg s g) := by
  induction l with
  | nil => exact fun _ => ⟨rfl, fun g => ⟨fun h => absurd h.1 List.not_mem_nil, fun _ => rfl⟩⟩
  | cons x l ih =>
    intro s hwf
    obtain ⟨hx, hnd⟩ := List.nodup_cons.mp hl
    obtain ⟨hwf1, hslc1, hfix, hother, hstart, hstay⟩ := slcStartGrp_spec hwf cause (u x) x
    obtain ⟨hslc2, hgrp⟩ := ih hnd hwf1
    rw [List.foldl_cons]
    refine ⟨hslc2.trans (by rw [hslc1]), fun g => ?_⟩
    obtain ⟨hin, hout⟩ := hgrp g
    rw [nGroups_congr hfix] at hin hout
    by_cases hg : g = x
    · subst hg
      have heq := hout (fun h => hx h.1)
      rw [heq]
      exact ⟨fun ⟨_, hn, hi⟩ => hstart hi hn, fun h => hstay (fun ⟨hi, hn⟩ => h ⟨List.mem_cons_self .., hn, hi⟩)⟩
    · rw [hother g hg] at hin hout
      have hmem : g ∈ x :: l ↔ g ∈ l := by simp [hg]
      rw [hmem]
      exact ⟨hin, hout⟩

theorem setRole_slc (r : Role) (cause : Nat) (s : State) : (setRole r cause s).slc = s.slc := by
  unfold setRole
  split <;> rfl

theorem enterShadow_slc (cause : Nat) (s : State) : (enterShadow cause s).slc = s.slc := by
  unfold enterShadow
  rw [notice_slc]
  exact (setRole_slc _ _ _).trans (fireIf_slc _ _ _)

theorem releaseCheck_slc (s : State) : (releaseCheck s).slc = s.slc := by
  unfold releaseCheck
  dsimp only
  split
  · split
    · exact enterShadow_slc 7 s
    · rfl
  · rfl

/-- A group after what its step puts into it, with the settling of the outputs. -/
theorem sg_settle_sgPut (hwf : mwf (fun _ => ({} : SlcGrp)) s.slc.grp = true) (x : SlcGrp) : sg (settle (sgPut s k x)) k = x :=
  (sg_congr (settle_slc _) k).trans (sg_sgPut_same hwf k x)

theorem fld_eq (w : Word) (lo n : Nat) : fld w lo n = w.toNat / 2 ^ lo % 2 ^ n := rfl

end

/-- Settles O39: starts and releases through what they do to each group, each step through what it puts into its own. -/
theorem sluiceSequences : Obligations.SluiceSequences := by
  unfold Obligations.SluiceSequences
  constructor
  case left =>
    intro s v
    refine ⟨fun hmay => (cpRow_of_rowMay rfl hmay _).trans ?key, fun harm i hi hmay => ?missed, fun hmay harm hok hst => ?start,
      fun hmay harm => ?release⟩
    case key =>
      have hfld : fld v 0 16 = v.toNat % 65536 := by simp [fld_eq]
      rw [hfld]
      rfl
    case missed =>
      simp only [List.mem_cons, List.not_mem_nil, or_false] at hi
      rcases hi with rfl | rfl
      · exact (cpRow_of_rowMay rfl hmay _).trans (if_neg (by rw [harm]; exact Bool.false_ne_true))
      · exact (cpRow_of_rowMay rfl hmay _).trans (if_neg (by rw [harm]; exact Bool.false_ne_true))
    case start =>
      have hexec : exec (.slcStart v) s = .next (settle (slcTriggerMask 4 v { s with slc := { s.slc with armed := false } })) :=
        (cpRow_of_rowMay rfl hmay _).trans (if_pos harm)
      generalize hs1 : slcRecord 4 (lowestBit v) { s with slc := { s.slc with armed := false } } = s1
      have hmask : slcTriggerMask 4 v { s with slc := { s.slc with armed := false } } =
          ((List.range 32).filter (fun g => v.getLsbD g)).foldl (slcStartGrp 4 true) s1 := by
        rw [← hs1]
        exact if_pos hst
      have hsg : ∀ g, sg s1 g = sg s g := fun g => by rw [← hs1]; rfl
      have hwf : mwf (fun _ => ({} : SlcGrp)) s1.slc.grp = true := by rw [← hs1]; exact tablesOk_slcGrp hok
      obtain ⟨hslc, hgrp⟩ := slcStartGrps_spec 4 (fun _ => true) _ (List.nodup_range.filter (fun g => v.getLsbD g)) hwf
      rw [← hmask] at hslc hgrp
      have hsettle : ∀ {t : State}, (settle t).slc = t.slc := fun {t} => settle_slc t
      refine ⟨_, hexec, ?_, ?_, ?_, fun g hg => ?_⟩
      · rw [hsettle, hslc, ← hs1]
        rfl
      · rw [hsettle, hslc, ← hs1]
        rfl
      · rw [hsettle, hslc, ← hs1]
        rfl
      · rw [sg_congr hsettle]
        obtain ⟨hin, hout⟩ := hgrp g
        have hn : nGroups s1 = nGroups s := by rw [← hs1]; rfl
        have h32 : g < 32 := by
          have : nGroups s ≤ 32 := by unfold nGroups; split <;> omega
          omega
        rw [hsg, hn] at hin hout
        simp only [List.mem_filter, List.mem_range, h32, hg, true_and] at hin hout
        exact ⟨hin, hout⟩
    case release =>
      have hexec : exec (.slcRelease v) s = _ := (cpRow_of_rowMay rfl hmay _).trans (if_pos harm)
      refine ⟨_, hexec, rfl, rfl, fun g hg => ?_⟩
      simp only [releasable, BitVec.getLsbD_or, getLsbD_bits32 _ hg]
  case right =>
    intro s g hok k q m p width done
    have hwf := tablesOk_slcGrp hok
    have hput : ∀ x, sg (settle (sgPut s k x)) k = x := sg_settle_sgPut hwf
    have hput' : ∀ x, sg (sgPut s k x) k = x := sg_sgPut_same hwf k
    have hlt := (stepWord q).isLt
    have hmask : stepMask q = m := by
      apply BitVec.eq_of_toNat_eq
      simp only [stepMask, fld_eq, BitVec.toNat_ofNat, m]
      omega
    have hpulse : pulseBit q = p := rfl
    have hwidth : fld (stepWord q) 16 16 = width := by
      simp only [fld_eq, width]
      omega
    have hwait : waitinEnd q = q.stepCyc + 20000000 * ((stepWord q).toNat / 1048576) := by
      simp only [waitinEnd, cycMs, fld_eq]
      omega
    have hms : cycMs width = 200000 * width := rfl
    refine ⟨fun h => ?setch, fun h => ?clrch, fun h => ?hold, fun h => ?pulse, fun h ht => ?pulseEnd, fun h => ?wait,
      fun h ht => ?waitEnd, fun h => ?waitin, fun h hw ht => ?satisfied, fun h hw ht => ?timeout, fun h => ?ends, fun h hb => ?bad⟩
    case setch => exact ⟨_, if_pos h, (hput _).trans (by change nextStep { q with cmd := q.cmd ||| stepMask q } (q.step + 1) (q.stepCyc + 200) = _; rw [hmask]; rfl)⟩
    case clrch => exact ⟨_, if_pos h, (hput _).trans (by change nextStep { q with cmd := q.cmd &&& ~~~stepMask q } (q.step + 1) (q.stepCyc + 200) = _; rw [hmask]; rfl)⟩
    case hold => exact ⟨_, if_pos h, (hput _).trans (by change nextStep { q with held := q.held ||| stepMask q } (q.step + 1) (q.stepCyc + 200) = _; rw [hmask]; rfl)⟩
    case pulse => exact ⟨_, if_pos h, hput _⟩
    case pulseEnd =>
      refine ⟨_, if_pos ?_, (hput _).trans ?_⟩
      · rw [Bool.and_eq_true]
        exact ⟨h, decide_eq_true (by rw [hwidth, hms]; exact ht)⟩
      · change nextStep { q with cmd := q.cmd &&& ~~~pulseBit q } (q.step + 1) (q.stepCyc + cycMs (fld (stepWord q) 16 16)) = _
        rw [hwidth]
        rfl
    case wait => exact ⟨_, if_pos h, hput' _⟩
    case waitEnd =>
      refine ⟨_, if_pos ?_, (hput' _).trans ?_⟩
      · rw [Bool.and_eq_true]
        exact ⟨h, decide_eq_true (by rw [hwidth, hms]; exact ht)⟩
      · change nextStep q (q.step + 1) (q.stepCyc + cycMs (fld (stepWord q) 16 16)) = _
        rw [hwidth]
        rfl
    case waitin => exact ⟨_, if_pos h, hput' _⟩
    case satisfied =>
      refine ⟨_, if_pos ?_, hput' _⟩
      simp only [Bool.and_eq_true, decide_eq_true_eq]
      refine ⟨⟨h, hw⟩, ?_⟩
      have hdiv : width / 16 = (stepWord q).toNat / 1048576 := by
        simp only [width]
        omega
      exact (hwait.trans (by rw [← hdiv])).symm ▸ ht
    case timeout =>
      refine ⟨_, if_pos ?_, (hput' _).trans ?_⟩
      · rw [Bool.and_eq_true]
        exact ⟨h, decide_eq_true (hwait.symm ▸ ht)⟩
      · change ({ nextStep q (fld (stepWord q) 14 5) (waitinEnd q) with timeout := true } : SlcGrp) = _
        rw [hwait]
        rfl
    all_goals
      have hend : ∀ b x, sg (settle (releaseCheck (fireIf b (440 + k) (sgPut s k x)))) k = x := fun b x => by
        rw [sg_congr (settle_slc _), sg_congr (releaseCheck_slc _), sg_congr (fireIf_slc _ _ _)]
        exact hput' x
    case ends =>
      simp only [stepIs, Bool.and_eq_true, Bool.not_eq_true', decide_eq_true_eq] at h
      obtain ⟨⟨hdue, hbad⟩, hop⟩ := h
      refine ⟨_, if_pos ?_, (hend _ _).trans ?_⟩
      · simp only [Bool.and_eq_true, Bool.or_eq_true, decide_eq_true_eq]
        exact ⟨hdue, .inr hop⟩
      · rw [hbad]
    case bad =>
      refine ⟨_, if_pos ?_, (hend _ _).trans ?_⟩
      · simp only [Bool.and_eq_true, Bool.or_eq_true, decide_eq_true_eq]
        exact ⟨h, .inl hb⟩
      · rw [hb]

end Sys2Proof.Machine

/-! ## The CP flash -/

namespace Sys2Proof.Machine

/-! ### Reports leave the NV controller's state but for its queues -/

/-- Of the NV controller only the queues and the next sequence number may change. -/
def Queues (s t : State) : Prop := ∃ q w n, t.nv = { s.nv with queue := q, waiting := w, nextSeq := n }

protected theorem Queues.of_nv {s t : State} (h : t.nv = s.nv) : Queues s t := ⟨_, _, _, h⟩

protected theorem Queues.trans {s t u : State} (h : Queues s t) (k : Queues t u) : Queues s u := by
  obtain ⟨q, w, n, h⟩ := h
  obtain ⟨q2, w2, n2, k⟩ := k
  exact ⟨q2, w2, n2, by rw [k, h]⟩

theorem Queues.of_step {s t u : State} (k : Queues t u) (h : t.nv = s.nv) : Queues s u := (Queues.of_nv h).trans k

theorem Queues.before {s t u : State} (k : Queues t u) (h : Queues s t) : Queues s u := h.trans k

theorem Queues.ite {s a b : State} {p : Prop} [Decidable p] (ha : Queues s a) (hb : Queues s b) : Queues s (if p then a else b) := by
  split
  exacts [ha, hb]

theorem Queues.foldl {β : Type} (f : State → β → State) (hf : ∀ a b, Queues a (f a b)) (l : List β) (s : State) :
    Queues s (l.foldl f s) := by
  induction l generalizing s with
  | nil => exact .of_nv rfl
  | cons b l ih => exact (hf s b).trans (ih _)

theorem queues_fireIf (c : Bool) (src : Nat) (s : State) : Queues s (fireIf c src s) := .ite (.of_nv rfl) (.of_nv rfl)

theorem queues_nvEnqueue (r : NvReq) (s : State) : Queues s (nvEnqueue r s) := by
  unfold nvEnqueue
  exact .ite (.of_nv rfl) (.ite ⟨_, _, _, rfl⟩ (.ite ⟨_, _, _, rfl⟩ (.ite (.of_nv rfl) ⟨_, _, _, rfl⟩)))

theorem queues_ringPut (n : Notice) (s : State) : Queues s (ringPut n s) := by
  unfold ringPut
  dsimp only
  refine .trans ?_ (queues_fireIf _ _ _)
  exact .ite (Queues.of_step (queues_nvEnqueue _ _) rfl) (.of_nv rfl)

theorem queues_notice (kind src reason : Nat) (d : Word) (s : State) : Queues s (notice kind src reason d s) :=
  .ite (queues_ringPut _ _) (.of_nv rfl)

theorem queues_noticeIf (c : Bool) (kind src reason : Nat) (d : Word) (s : State) : Queues s (noticeIf c kind src reason d s) :=
  .ite (queues_notice _ _ _ _ _) (.of_nv rfl)

theorem queues_gradNotice (c : Bool) (reason : Nat) (d : Word) (s : State) : Queues s (gradNotice c reason d s) :=
  .ite ((queues_notice _ _ _ _ _).trans (.of_nv rfl)) (.of_nv rfl)

theorem queues_rfxReport (s : State) (e : Nat) : Queues s (rfxReport s e) :=
  (queues_noticeIf _ _ _ _ _ _).before ((queues_fireIf _ _ _).of_step rfl)

theorem queues_driveCh (s : State) (n : Nat) (v : Bool) : Queues s (driveCh s n v) := by
  have h2 : ∀ c b src, Queues s (fireIf b src (chPut s n c)) := fun c b src => Queues.of_step (queues_fireIf _ _ _) rfl
  exact .ite ((h2 _ _ _).trans (.ite (.of_nv rfl) (.of_nv rfl))) (h2 _ _ _)

theorem queues_settle (s : State) : Queues s (settle s) := by
  have heval : Queues s (rfxEval s) := Queues.of_step (.foldl _ queues_rfxReport _ _) rfl
  have hdrive : ∀ s, Queues s (driveAll s) := fun s => .foldl _ (fun a n => by
    refine .ite ?_ (.trans ?_ (queues_driveCh _ _ _)) <;> exact .ite (.of_nv rfl) (.of_nv rfl)) _ _
  exact heval.trans ((hdrive _).trans (.ite (.of_nv rfl) (.of_nv rfl)))

/-! ### The commands (R323, R324) -/

/-- What an erase changes: the counts of R378 apart, notices. -/
theorem flWear_spec (l : List Nat) (s : State) :
    (flWear l s).mem = s.mem ∧ (flWear l s).nv.flBusy = s.nv.flBusy ∧ (flWear l s).nv.flash = s.nv.flash := by
  unfold flWear
  induction l generalizing s with
  | nil => exact ⟨rfl, rfl, rfl⟩
  | cons k l ih =>
    rw [List.foldl_cons]
    obtain ⟨hm, hb, hf⟩ := ih (gradNotice _ _ _ _)
    obtain ⟨q, w, n, hq⟩ := queues_gradNotice (decide (mget (fun _ => 0) s.nv.flErases k + 1 = 9000)) 7
      (wordOf (65536 * (k / 64) + k % 64))
      { s with nv := { s.nv with flErases := mput (fun _ => 0) s.nv.flErases k (mget (fun _ => 0) s.nv.flErases k + 1) } }
    exact ⟨hm.trans (gradNotice_mem ..), hb.trans (by rw [hq]), hf.trans (by rw [hq])⟩

/-- On the bank that it comes from a command only reports (R324). -/
theorem flStart_own {v : Word} {src : BitVec 2} (er : Bool) {s : State} (hkey : fld v 16 16 = 0xC35A) (hown : src.toNat = fld v 0 1) :
    flStart er v src s = fire 488 s.time.ns { s with nv := { s.nv with flOwn := true } } :=
  (if_neg (not_not_intro hkey)).trans (if_pos hown)

theorem flStart_busy {v : Word} {src : BitVec 2} (er : Bool) {s : State} (hkey : fld v 16 16 = 0xC35A) (hown : src.toNat ≠ fld v 0 1)
    (hbusy : s.nv.flBusy.isSome = true) : flStart er v src s = s :=
  (if_neg (not_not_intro hkey)).trans ((if_neg hown).trans (if_pos hbusy))

/-- Without an operation in progress the command starts one. -/
theorem flStart_free {v : Word} {src : BitVec 2} {s : State} (hkey : fld v 16 16 = 0xC35A) (hown : src.toNat ≠ fld v 0 1)
    (hfree : s.nv.flBusy = none) :
    let bank := fld v 0 1
    let addr := fld (force s (aNV + 0x80)) 0 22 + 0x400000 * bank
    flStart false v src s = flTouch bank (addr / 65536 % 64) { s with nv := { s.nv with
      flBusy := some (BitVec.ofNat 1 bank, false, addr / 32)
      flash := mputs (fun _ => 0xFFFFFFFF) s.nv.flash
        ((List.range 8).map (fun i => (addr / 32 * 8 + i, force s (aNV + 0xA0 + 4 * i)))) } } ∧
    flStart true v src s = flTouch bank (addr / 65536 % 64) (flWear [addr / 65536] { s with nv := { s.nv with
      flBusy := some (BitVec.ofNat 1 bank, true, addr / 65536)
      flOpen := s.nv.flOpen.filter (fun p => !(p.1 && decide (p.2 = addr / 65536)) && !(!p.1 && decide (p.2 / 2048 = addr / 65536)))
      flash := s.nv.flash.filter (fun p => decide (p.1 / 16384 ≠ addr / 65536)) } }) := by
  have hno : ¬ s.nv.flBusy.isSome = true := by simp [hfree]
  exact ⟨(if_neg (not_not_intro hkey)).trans ((if_neg hown).trans ((if_neg hno).trans (if_neg Bool.false_ne_true))),
    (if_neg (not_not_intro hkey)).trans ((if_neg hown).trans ((if_neg hno).trans (if_pos rfl)))⟩

/-- Settles O52: each command by its case, and its end. -/
theorem cpFlash : Obligations.CpFlash := by
  unfold Obligations.CpFlash
  intro s v src hkey hmay bank addr
  have hrow : ∀ o, cpRow (aNV + 0x84) true s o = o := cpRow_of_rowMay (i := .flProgram v src) rfl hmay
  refine ⟨fun hown hfree => ?free, fun hown hbusy => ?busy, fun hown i hi => ?own, fun x ok => ?done⟩
  case free =>
    obtain ⟨hprog, herase⟩ := flStart_free (s := s) hkey hown hfree
    refine ⟨⟨_, (hrow _).trans (congrArg _ hprog), rfl, rfl, rfl⟩, _, (hrow _).trans (congrArg _ herase), ?_⟩
    obtain ⟨hm, hb, hf⟩ := flWear_spec [addr / 65536] { s with nv := { s.nv with
      flBusy := some (BitVec.ofNat 1 bank, true, addr / 65536)
      flOpen := s.nv.flOpen.filter (fun p => !(p.1 && decide (p.2 = addr / 65536)) && !(!p.1 && decide (p.2 / 2048 = addr / 65536)))
      flash := s.nv.flash.filter (fun p => decide (p.1 / 16384 ≠ addr / 65536)) } }
    exact ⟨hb, hf, hm⟩
  case busy =>
    exact ⟨(hrow _).trans (congrArg _ (flStart_busy false hkey hown hbusy)),
      (hrow _).trans (congrArg _ (flStart_busy true hkey hown hbusy))⟩
  case own =>
    have hfire : (488 : BitVec 10) ∈ (fire 488 s.time.ns { s with nv := { s.nv with flOwn := true } }).ev.pend := mem_fire_pend rfl _
    have hend : ∀ er, exec i s = cpRow (aNV + 0x84) true s (.next (flStart er v src s)) → ∃ t, exec i s = .next t ∧
        t.nv.flOwn = true ∧ t.nv.flBusy = s.nv.flBusy ∧ t.nv.flash = s.nv.flash ∧ (488 : BitVec 10) ∈ t.ev.pend ∧ t.mem = s.mem :=
      fun er h => ⟨_, h.trans ((hrow _).trans (congrArg _ (flStart_own er hkey hown))), rfl, rfl, rfl, hfire, rfl⟩
    rcases List.mem_cons.mp hi with rfl | hi
    · exact hend false rfl
    · obtain rfl := List.mem_singleton.mp hi
      exact hend true rfl
  case done =>
    exact ⟨_, rfl, rfl, rfl, rfl, mem_fire_pend rfl _, rfl⟩

end Sys2Proof.Machine

/-! ## The local panel -/

namespace Sys2Proof.Machine

/-! ### The rows of a pass (R384, R390, R396) -/

/-- A freeze other than of master 0 leaves the panel alone. -/
theorem reacts_freezeMaster (m : Nat) (a : Word) (wr : Bool) (s : State) :
    ∃ p, Reacts { s with prot := p } (freezeMaster m a wr s) := by
  unfold freezeMaster
  extract_lets _ s1 s2
  have hfire : Reacts s1 s2 := (reports_fire _ _ _).reacts
  refine ⟨s1.prot, ?_⟩
  split
  · exact hfire.trans (reacts_fatalFault ..)
  · exact hfire.trans (reacts_containedFault ..)

theorem freezeMaster_pnl (m : Nat) (a : Word) (wr : Bool) (s : State) : (freezeMaster m a wr s).pnl = s.pnl := by
  obtain ⟨p, _, _, _, _, _, _, _, _, _, _, _, _, _, _, h⟩ := reacts_freezeMaster m a wr s
  rw [h]

/-- What the writing of rows keeps: the data memory, the panel's phase, its fault and its count of passes, and of the queue all but
whether a taken rectangle has stopped. -/
def RowsKept (s t : State) : Prop :=
  t.mem = s.mem ∧ t.pnl.phase = s.pnl.phase ∧ t.pnl.fault = s.pnl.fault ∧ t.pnl.passes = s.pnl.passes ∧
  t.pnl.queue.map (fun r => (r.taken, r.tag)) = s.pnl.queue.map (fun r => (r.taken, r.tag)) ∧
  (s.pnl.queue.any (·.taken) = false → t.pnl.queue = s.pnl.queue)

protected theorem RowsKept.refl (s : State) : RowsKept s s := ⟨rfl, rfl, rfl, rfl, rfl, fun _ => rfl⟩

/-- Whether a rectangle is taken is kept with the queue. -/
theorem any_taken_congr {l m : List Rect} (h : l.map (fun r => (r.taken, r.tag)) = m.map (fun r => (r.taken, r.tag))) :
    l.any (·.taken) = m.any (·.taken) := by
  have e : ∀ l : List Rect, l.any (·.taken) = (l.map (fun r => (r.taken, r.tag))).any (·.1) := fun l => by rw [List.any_map]; rfl
  rw [e, e, h]

theorem filter_taken_congr {l m : List Rect} (h : l.map (fun r => (r.taken, r.tag)) = m.map (fun r => (r.taken, r.tag))) :
    (l.filter (fun r => !r.taken)).map (·.tag) = (m.filter (fun r => !r.taken)).map (·.tag) := by
  have e : ∀ l : List Rect, (l.filter (fun r => !r.taken)).map (·.tag) =
      ((l.map (fun r => (r.taken, r.tag))).filter (fun p => !p.1)).map (·.2) := fun l => by
    rw [List.filter_map, List.map_map]; rfl
  rw [e, e, h]

protected theorem RowsKept.trans {s t u : State} (h : RowsKept s t) (k : RowsKept t u) : RowsKept s u := by
  obtain ⟨hm, hp, hf, hn, hq, ht⟩ := h
  obtain ⟨km, kp, kf, kn, kq, kt⟩ := k
  refine ⟨km.trans hm, kp.trans hp, kf.trans hf, kn.trans hn, kq.trans hq, fun h => ?_⟩
  exact (kt ((any_taken_congr hq).trans h)).trans (ht h)

theorem RowsKept.of_eq {s t : State} (hm : t.mem = s.mem) (hp : t.pnl.phase = s.pnl.phase) (hf : t.pnl.fault = s.pnl.fault)
    (hn : t.pnl.passes = s.pnl.passes) (hq : t.pnl.queue = s.pnl.queue) : RowsKept s t :=
  ⟨hm, hp, hf, hn, by rw [hq], fun _ => hq⟩

theorem RowsKept.before {s t u : State} (k : RowsKept t u) (h : RowsKept s t) : RowsKept s u := h.trans k

theorem RowsKept.foldl {β : Type} (f : State → β → State) (hf : ∀ a b, RowsKept a (f a b)) (l : List β) (s : State) :
    RowsKept s (l.foldl f s) := by
  induction l generalizing s with
  | nil => exact .refl s
  | cons b l ih => exact (hf s b).trans (ih _)

/-- A taken rectangle stops. -/
theorem rowsKept_stopRect {i : Nat} {r : Rect} {s t : State} (hr : s.pnl.queue[i]? = some r) (ht : r.taken = true)
    (hm : t.mem = s.mem) (hp : t.pnl = s.pnl) : RowsKept s (stopRect i t) := by
  have e : stopRect i t = { t with pnl := { t.pnl with queue := t.pnl.queue.set i { r with stopped := true } } } := by
    unfold stopRect
    rw [hp, hr]
  have hi : i < s.pnl.queue.length := List.getElem?_eq_some_iff.mp hr |>.1
  rw [e]
  refine ⟨hm, by rw [hp], by rw [hp], by rw [hp], ?_, fun h => ?_⟩
  · rw [hp, List.map_set]
    have hmap : (s.pnl.queue.map (fun r => (r.taken, r.tag)))[i]'(by simpa using hi) = (r.taken, r.tag) := by
      rw [List.getElem_map, (List.getElem?_eq_some_iff.mp hr).2]
    have hset := List.set_getElem_self (as := s.pnl.queue.map (fun r => (r.taken, r.tag))) (i := i) (by simpa using hi)
    rw [hmap] at hset
    exact hset
  · have hmem : r ∈ s.pnl.queue := List.mem_of_getElem? hr
    simp only [List.any_eq_false, Bool.not_eq_true] at h
    exact absurd ht (by simp [h r hmem])

theorem rowsKept_copyRow (y : Nat) (s : State) (i : Nat) : RowsKept s (copyRow y s i) := by
  unfold copyRow
  split
  · exact .refl s
  · next r hr =>
    split
    · exact .refl s
    · next hno =>
      have ht : r.taken = true := by
        simp only [Bool.or_eq_true, Bool.not_eq_true', not_or, Bool.not_eq_false] at hno
        tauto
      split
      · exact rowsKept_stopRect hr ht rfl rfl
      · split
        · exact rowsKept_stopRect hr ht (freezeMaster_mem ..) (freezeMaster_pnl ..)
        · exact .of_eq rfl rfl rfl rfl rfl

theorem rowsKept_passRow (s : State) (y : Nat) : RowsKept s (passRow s y) :=
  (RowsKept.foldl _ (rowsKept_copyRow y) (List.range s.pnl.queue.length) s).trans (.of_eq rfl rfl rfl rfl rfl)

theorem rowsKept_settle (s : State) : RowsKept s (settle s) := by
  refine .of_eq (settle_mem _) ?_ ?_ ?_ ?_ <;> rw [settle_pnl]

theorem rowsKept_passRowsDo (l : List Nat) (s : State) : RowsKept s (passRowsDo l s) := by
  have hrows := RowsKept.foldl passRow rowsKept_passRow l s
  unfold passRowsDo
  dsimp only
  split
  · exact hrows
  · exact hrows.trans (rowsKept_settle _)

theorem rowsKept_panelRows (s : State) : RowsKept s (panelRows s) := by
  unfold panelRows
  dsimp only
  split
  · split
    · exact .refl s
    · exact (rowsKept_passRowsDo _ _).before (.of_eq rfl rfl rfl rfl rfl)
  · exact .refl s

/-! ### Power (R385, R394, R395) -/

theorem pnlPhaseTo_pnl (p : PnlPhase) (s : State) :
    (pnlPhaseTo p s).pnl = { s.pnl with phase := p, stopCyc := s.time.cyc } := fireIf_pnl ..

theorem pnlPhaseTo_mem (p : PnlPhase) (s : State) : (pnlPhaseTo p s).mem = s.mem := fireIf_mem ..

theorem force_pnlPhaseTo (p : PnlPhase) (s : State) (a : Nat) : force (pnlPhaseTo p s) a = force s a := by
  rw [force, pnlPhaseTo, fireIf_regs]
  rfl

/-- A lit panel that is told to discharge does so, with an empty queue. -/
theorem panelDischarge_lit {s : State} (h : hasPanel s = true) (hlit : s.pnl.phase = .rising ∨ s.pnl.phase = .on) :
    (panelDischarge s).pnl.phase = .discharging ∧ (panelDischarge s).pnl.queue = [] ∧ (panelDischarge s).pnl.pass = false ∧
    (panelDischarge s).pnl.fault = s.pnl.fault ∧ (panelDischarge s).mem = s.mem := by
  obtain ⟨hm, -, hf, -⟩ := rowsKept_panelRows s
  rw [panelDischarge, if_pos ⟨h, hlit⟩]
  dsimp only
  rw [pnlPhaseTo_pnl, pnlPhaseTo_mem]
  exact ⟨rfl, rfl, rfl, hf, hm⟩

/-! ### Passes and the scrub (R384-R388) -/

theorem passEnd_spec {s : State} (hup : pnlUp s = true) (hpass : s.pnl.pass = true) (hdue : s.pnl.passCyc + passLen s ≤ s.time.cyc) :
    ∃ t, exec .passEnd s = .next t ∧ t.pnl.pass = false ∧ t.pnl.passes = min 65535 (s.pnl.passes + 1) ∧
      t.pnl.queue = (panelRows s).pnl.queue.filter (fun r => !r.taken) ∧ (s.pnl.phase = .rising → t.pnl.phase = .on) ∧
      t.mem = s.mem := by
  obtain ⟨hm, -, -, hn, -, -⟩ := rowsKept_panelRows s
  have hpasses : satN 0xFFFF ((panelRows s).pnl.passes + 1) = min 65535 (s.pnl.passes + 1) := by
    rw [hn, satN]
    split <;> omega
  refine ⟨_, if_pos (by simp [hup, hpass, hdue]), ?_⟩
  dsimp only
  split
  · rw [pnlPhaseTo_pnl, pnlPhaseTo_mem, fireIf_pnl, fireIf_mem]
    exact ⟨rfl, hpasses, rfl, fun _ => rfl, hm⟩
  · next hno =>
    rw [fireIf_pnl, fireIf_mem]
    exact ⟨rfl, hpasses, rfl, fun h => absurd h hno, hm⟩

/-- A rectangle that is submitted where the row is reached (R391). -/
theorem rectSubmit_spec {s : State} {v : Word} (hpnl : hasPanel s = true) (hmay : rowMay s (.rectSubmit v) = true)
    (hv : v.getLsbD 0 = true) (code : BitVec 2) (q : List Rect)
    (hcode : (if s.pnl.phase ≠ .on then 3 else if badRect (regRect s (fld v 8 8)) then 2 else if 8 ≤ s.pnl.queue.length then 1 else 0)
      = code) (hq : (if code = 0 then s.pnl.queue ++ [regRect s (fld v 8 8)] else s.pnl.queue) = q) :
    exec (.rectSubmit v) s = .next { s with pnl := { s.pnl with code := code, queue := q } } := by
  subst hcode hq
  exact (cpRow_of_rowMay rfl hmay _).trans (congrArg _ (if_pos (by rw [Bool.and_eq_true]; exact ⟨hpnl, hv⟩)))

/-- Settles O59: power by the discharge rule, passes by what their rows keep. -/
theorem localPanel : Obligations.LocalPanel := by
  unfold Obligations.LocalPanel
  intro s p
  refine ⟨fun hup hmay hoff => ?on, fun hpnl hmay hlit => ?off, fun hup hon => ?supply, fun hdis hdue => ?done,
    fun hmay => cpRow_of_rowMay rfl hmay _, fun v hpnl hmay hv => ?rect, fun hup => ?up⟩
  case on =>
    refine ⟨_, (cpRow_of_rowMay rfl hmay _).trans (congrArg _ (if_pos ⟨hup, hoff⟩)), ?_⟩
    rw [pnlPhaseTo_pnl, pnlPhaseTo_mem, force_pnlPhaseTo]
    exact ⟨rfl, rfl, fun h => force_regPut h _ _, rfl⟩
  case off =>
    obtain ⟨hph, hq, hps, -, hm⟩ := panelDischarge_lit (s := regPut s aPNL 0) hpnl hlit
    exact ⟨_, (cpRow_of_rowMay rfl hmay _).trans (congrArg _ (if_pos hlit)), hph, hq, hps, hm⟩
  case supply =>
    have hpnl : hasPanel s = true := by
      simp only [pnlUp, Bool.and_eq_true] at hup
      exact hup.1.1
    obtain ⟨hph, hq, -, hf, hm⟩ := panelDischarge_lit (s := { s with pnl := { s.pnl with fault := true } }) hpnl (Or.inr hon)
    exact ⟨_, if_pos ⟨hup, hon⟩, hf, hph, hq, hm⟩
  case done =>
    refine ⟨_, if_pos ⟨hdis, hdue⟩, ?_⟩
    rw [pnlPhaseTo_pnl, pnlPhaseTo_mem, force_pnlPhaseTo]
    exact ⟨rfl, fun h => force_regPut h _ _, rfl⟩
  case rect =>
    intro r
    refine ⟨fun hon => ?_, fun hon hbad => ?_, fun hon hok hfull => ?_, fun hon hok hroom => ?_⟩
    · exact rectSubmit_spec hpnl hmay hv 3 _ (if_pos hon) rfl
    · exact rectSubmit_spec hpnl hmay hv 2 _ ((if_neg (not_not_intro hon)).trans (if_pos hbad)) rfl
    · exact rectSubmit_spec hpnl hmay hv 1 _
        ((if_neg (not_not_intro hon)).trans ((if_neg (by rw [hok]; exact Bool.false_ne_true)).trans (if_pos hfull))) rfl
    · exact rectSubmit_spec hpnl hmay hv 0 _
        ((if_neg (not_not_intro hon)).trans ((if_neg (by rw [hok]; exact Bool.false_ne_true)).trans (if_neg (Nat.not_le.mpr hroom)))) rfl
  case up =>
    refine ⟨fun hpass hdue => ?start, fun hpass hdue => ?stop, ⟨_, if_pos hup, rfl, rfl, rfl⟩, fun hon => ⟨fun hmode hfull hcyc => ?full,
      fun y hy hmode hwait hage => ?scrub⟩⟩
    case start =>
      refine ⟨_, if_pos (by simp [hup, hdue, p, hpass]), rfl, rfl, fun hr => ?_, rfl, rfl, rfl, rfl, rfl, rfl, rfl, rfl⟩
      refine List.filter_eq_self.mpr fun y _ => ?_
      simp [p] at hr
      simp [hr]
    case stop =>
      obtain ⟨-, -, -, -, hq, ht⟩ := rowsKept_panelRows s
      obtain ⟨t, he, hps, hn, hqt, hph, hm⟩ := passEnd_spec hup hpass hdue
      refine ⟨t, he, hps, hn, fun hno => ?_, ?_, hph, hm⟩
      · rw [hqt, ht hno]
        refine List.filter_eq_self.mpr fun r hr => ?_
        simp only [List.any_eq_false, Bool.not_eq_true] at hno
        simp [hno r hr]
      · rw [hqt]
        exact filter_taken_congr hq
    case full =>
      refine if_pos ?_
      simp only [Bool.and_eq_true, decide_eq_true_eq, Bool.not_eq_true']
      exact ⟨⟨⟨⟨hup, hon⟩, hmode⟩, hfull⟩, hcyc⟩
    case scrub =>
      have hadd : ∀ z < 160, rowWaits s z = false → 150000000 ≤ rowAge s z →
          z ∈ (List.range 160).filter (fun y => s.pnl.scrubRows.contains y || (!rowWaits s y && decide (cycUs 750000 ≤ rowAge s y))) :=
        fun z hz hw ha => List.mem_filter.mpr ⟨List.mem_range.mpr hz, by simp only [hw, cycUs]; simp [ha]⟩
      refine ⟨_, if_pos ?_, hadd y hy hwait (by omega), rfl, hadd⟩
      simp only [Bool.and_eq_true, decide_eq_true_eq, Bool.not_eq_true', List.any_eq_true, List.mem_range]
      exact ⟨⟨⟨hup, hon⟩, hmode⟩, y, hy, hwait, hage⟩

end Sys2Proof.Machine

/-! ## The serial ports -/

namespace Sys2Proof.Machine

section
variable {s : State} {k : Nat}

theorem ua_uaPut_same (h : mwf (fun _ => ({} : UartSt)) s.cp.uart = true) (u : Nat) (x : UartSt) : ua (uaPut s u x) u = x :=
  mget_mput_same _ h

theorem uartWf_uaPut (h : mwf (fun _ => ({} : UartSt)) s.cp.uart = true) (u : Nat) (x : UartSt) :
    mwf (fun _ => ({} : UartSt)) (uaPut s u x).cp.uart = true := mwf_mput _ _ _ h

/-- The sources of a port are listed. -/
theorem srcPresent_uart {e : Nat} (h : e < 8) : srcPresent s (424 + e) = true := by
  simp only [srcPresent, show ¬ 424 + e < 256 by omega, show ¬ 424 + e < 400 by omega, show ¬ 424 + e < 416 by omega,
    show 424 + e < 432 by omega, if_true, if_false]

/-! ### The start of a transmission (R274, R276) -/

/-- A port that has nothing to send, sends already, is held or is not enabled does not start. -/
theorem uartStart_idle (h : (ua s k).tx = [] ∨ (ua s k).busy = true ∨ fbit (uartCfg s k 0) 0 = false) : uartStart k s = s := by
  refine if_pos ?_
  rcases h with h | h | h <;> simp [h]

/-- A port that can send starts its first character, or keys where it is a radio port. -/
theorem uartStart_free {x : UartSt} (hx : ua s k = x) (htx : x.tx ≠ []) (hb : x.busy = false) (hk : x.keyed = false)
    (hh : x.hold = false) (hen : fbit (uartCfg s k 0) 0 = true) (hdown : s.cp.down = false) (h2 : k < 2) :
    (fbit (uartCfg s k 0) 6 = false →
      uartStart k s = uaPut s k { x with tx := x.tx.drop 1, busy := true, phaseCyc := s.time.cyc }) ∧
    (fbit (uartCfg s k 0) 6 = true → fbit (uartCfg s k 0) 7 = false →
      uartStart k s = uaPut s k { x with keyed := true, leading := true, phaseCyc := s.time.cyc }) := by
  subst hx
  have hgo : ¬ ((ua s k).tx.isEmpty || (ua s k).busy || (ua s k).keyed || (ua s k).hold || !fbit (uartCfg s k 0) 0 || s.cp.down) = true := by
    simp [htx, hb, hk, hh, hen, hdown]
  refine ⟨fun hr => ?_, fun hr hg => ?_⟩
  · exact (if_neg hgo).trans ((if_neg (by simp [isRadio, hr])).trans (if_neg (by omega)))
  · exact (if_neg hgo).trans ((if_pos (by simp [isRadio, hr, h2])).trans (if_neg (by simp [hg])))

/-- A start leaves the hold, the lines and the data memory, and reports nothing. -/
theorem uartStart_keeps (h : mwf (fun _ => ({} : UartSt)) s.cp.uart = true) (k : Nat) :
    (ua (uartStart k s) k).hold = (ua s k).hold ∧ (ua (uartStart k s) k).lines = (ua s k).lines ∧
    (uartStart k s).ev = s.ev ∧ (uartStart k s).mem = s.mem := by
  have hput : ∀ x, ua (uaPut s k x) k = x := ua_uaPut_same h k
  have hput2 : ∀ x y, ua (uaPut (uaPut s k x) k y) k = y := fun x y => ua_uaPut_same (uartWf_uaPut h k x) k y
  unfold uartStart charStart
  dsimp only
  split
  · exact ⟨rfl, rfl, rfl, rfl⟩
  split
  · split
    · exact ⟨rfl, rfl, rfl, rfl⟩
    · rw [hput]; exact ⟨rfl, rfl, rfl, rfl⟩
  split
  · rw [hput2, hput]; exact ⟨rfl, rfl, rfl, rfl⟩
  · rw [hput]; exact ⟨rfl, rfl, rfl, rfl⟩

theorem cpDown_of_rowMay {i : Instr} {a : Nat} {wr : Bool} (hi : regRow i = some (a, wr)) (h : rowMay s i = true) : s.cp.down = false := by
  have hr := rowMay_reach hi h
  simp only [cpReach, cpRuns, Bool.and_eq_true, Bool.not_eq_true'] at hr
  exact hr.1.1.2

end

/-- Settles O48: each event of a port through what a start of its transmission does. -/
theorem serialPorts : Obligations.SerialPorts := by
  unfold Obligations.SerialPorts
  intro s u hok k x
  have hwf := tablesOk_uart hok
  have hput : ∀ y, ua (uaPut s k y) k = y := ua_uaPut_same hwf k
  have hput2 : ∀ y z, ua (uaPut (uaPut s k y) k z) k = z := fun y z => ua_uaPut_same (uartWf_uaPut hwf k y) k z
  have hk : k < 4 := u.isLt
  have hsrc0 : ∀ t, srcPresent t (424 + 2 * k) = true := fun t => srcPresent_uart (by omega)
  have hsrc1 : ∀ t, srcPresent t (425 + 2 * k) = true := fun t => by
    rw [show 425 + 2 * k = 424 + (2 * k + 1) by omega]
    exact srcPresent_uart (by omega)
  have hua : ∀ n m t, ua (fire n m t) k = ua t k := fun _ _ _ => rfl
  have hfireIf : ∀ c n t, ua (fireIf c n t) k = ua t k := fun c n t => by rw [ua, fireIf_cp]; rfl
  have hwrite : ∀ v, rowMay s (.uartDataWrite u v) = true → x.tx.length < 256 →
      exec (.uartDataWrite u v) s = .next (uartStart k (uaPut s k { x with tx := x.tx ++ [v] })) := fun v hmay hlen =>
    (cpRow_of_rowMay rfl hmay _).trans (congrArg (fun l => Host.Outcome.next (uartStart k (uaPut s k { x with tx := l }))) (if_pos hlen))
  refine ⟨fun v hmay hlen hno => ?kept, fun v h2 htx hb hky hh hen hr hmay => ?direct,
    fun v h2 htx hb hky hh hen hr hg hmay => ?keys, fun d pe fe r hmay hrx => ?data, fun hmay hrx => ?none,
    fun hl hdue hcts => ?lead, fun ht hdue htx => ?tail, fun hgov hrad hky hh hlev => ?hold, fun hh hlev => ?resume,
    fun v pe fe hen hrun hown hlen => ?rx, fun c hc hi hdue => ?gap, fun hb htx hdue => ?complete,
    fun lines h2 hne hpow hsl => ?modem⟩
  case kept =>
    rw [hwrite v hmay hlen, uartStart_idle]
    rw [hput]
    exact Or.inr hno.symm
  case direct =>
    have hlen : x.tx.length < 256 := by rw [htx]; decide
    refine ⟨_, hwrite v hmay hlen, ?_⟩
    rw [(uartStart_free (hput { x with tx := x.tx ++ [v] }) (by simp) hb hky hh hen (cpDown_of_rowMay rfl hmay) h2).1 hr, hput2, htx]
    exact ⟨rfl, rfl⟩
  case keys =>
    have hlen : x.tx.length < 256 := by rw [htx]; decide
    refine ⟨_, hwrite v hmay hlen, ?_⟩
    rw [(uartStart_free (hput { x with tx := x.tx ++ [v] }) (by simp) hb hky hh hen (cpDown_of_rowMay rfl hmay) h2).2 hr hg, hput2, htx]
    exact ⟨rfl, rfl⟩
  case data =>
    refine (cpRow_of_rowMay rfl hmay _).trans ?_
    change (match x.rx with | (b, pe, fe) :: r => _ | [] => _) = _
    rw [hrx]
    rfl
  case none =>
    refine (cpRow_of_rowMay rfl hmay _).trans ?_
    change (match x.rx with | (b, pe, fe) :: r => _ | [] => _) = _
    rw [hrx]
  case lead =>
    refine ⟨_, if_pos ?_, rfl, ?_⟩
    · simp only [Bool.and_eq_true, decide_eq_true_eq, Bool.or_eq_true, Bool.not_eq_true']
      exact ⟨⟨hl, hdue⟩, Or.inl hcts⟩
    · rw [charStart, hput2, hput]
  case tail =>
    have hdo : exec (.tailEnd u) s = .next (uartStart k (uaPut s k { x with keyed := false, tailing := false })) :=
      if_pos (by simp only [Bool.and_eq_true, decide_eq_true_eq]; exact ⟨ht, hdue⟩)
    rw [hdo, uartStart_idle]
    rw [hput]
    exact Or.inl htx
  case hold =>
    refine ⟨_, if_pos ?_, ?_⟩
    · simp only [Bool.and_eq_true, decide_eq_true_eq, Bool.not_eq_true']
      exact ⟨⟨⟨⟨hgov, hrad⟩, hky⟩, hh⟩, hlev⟩
    · rw [hua]
      rw [show ua s u.toNat = x from rfl]
      cases hlead : x.leading
      · rw [if_neg Bool.false_ne_true, hput]
        exact ⟨rfl, rfl, rfl, (Bool.or_false _).symm, mem_fire_pend (hsrc1 _) _, rfl⟩
      · rw [if_pos rfl, hput]
        exact ⟨rfl, rfl, rfl, (Bool.or_true _).symm, mem_fire_pend (hsrc1 _) _, rfl⟩
  case resume =>
    refine ⟨_, if_pos ?_, ?_⟩
    · simp only [Bool.and_eq_true, decide_eq_true_eq, Bool.or_eq_true]
      exact ⟨hh, Or.inr (by simpa using hlev)⟩
    · obtain ⟨hhold, -, -, hm⟩ := uartStart_keeps (uartWf_uaPut hwf k { x with hold := false }) k
      exact ⟨hhold.trans (by rw [hput]), hm⟩
  case rx =>
    refine ⟨_, if_neg ?_, ?_⟩
    · simp only [Bool.or_eq_true, Bool.not_eq_true', Bool.and_eq_true, decide_eq_true_eq, hrun, Bool.true_eq_false, or_false]
      rintro (h | ⟨h2, h⟩)
      · exact absurd (hen.symm.trans h) (by decide)
      · rcases hown with h3 | h3
        · omega
        · exact absurd (h.symm.trans h3) (by decide)
    · rw [hfireIf, hfireIf, hput, fireIf_mem, fireIf_mem]
      refine ⟨if_pos hlen, rfl, rfl, fun h => mem_fireIf_pend (hsrc0 _) (decide_eq_true ?_)⟩
      rw [show (ua s u.toNat).rx = x.rx from rfl, if_pos hlen, List.length_append]
      exact Nat.add_le_add_right h 1
  case gap =>
    have hdo : exec (.idleGap u) s = .next (fire (424 + 2 * k) s.time.ns (uaPut s k { x with rxCyc := none })) := by
      change (match x.rxCyc with | some t => _ | none => _) = _
      rw [hc]
      exact if_pos (by simp only [Bool.and_eq_true, decide_eq_true_eq]; exact ⟨hi, hdue⟩)
    refine ⟨_, hdo, ?_, mem_fire_pend (hsrc0 _) _, rfl⟩
    rw [hua, hput]
  case complete =>
    refine ⟨_, if_pos ?_, ?_⟩
    · simp only [Bool.and_eq_true, decide_eq_true_eq, Bool.or_eq_true, List.isEmpty_iff]
      exact ⟨⟨hb, htx⟩, hdue⟩
    · rw [hfireIf, hput, fireIf_mem]
      exact ⟨rfl, rfl, rfl, fun h => mem_fireIf_pend (hsrc1 _) (List.isEmpty_iff.mpr h)⟩
  case modem =>
    refine ⟨_, (if_neg ?_).trans (if_pos ?_), ?_⟩
    · simp [hsl]
    · simp only [Bool.and_eq_true, decide_eq_true_eq]
      exact ⟨⟨h2, hne⟩, hpow⟩
    · obtain ⟨-, hlines, hev, hm⟩ := uartStart_keeps (s := fire (425 + 2 * k) s.time.ns (uaPut s k { x with lines := lines }))
        (uartWf_uaPut hwf k _) k
      refine ⟨hlines.trans ?_, ?_, hm⟩
      · rw [hua, hput]
      · rw [hev]
        exact mem_fire_pend (hsrc1 _) _

end Sys2Proof.Machine

/-! ## The Bittern log -/

namespace Sys2Proof.Machine

/-! ### What reports leave of the log -/

/-- Of the Bittern log only the ring, its serials and the notices that wait may change. -/
def Rings (s t : State) : Prop :=
  ∃ r n v d e l, t.btn = { s.btn with ring := r, serial := n, ever := v, dirty := d, early := e, earlyLost := l }

protected theorem Rings.of_btn {s t : State} (h : t.btn = s.btn) : Rings s t := ⟨_, _, _, _, _, _, h⟩

protected theorem Rings.trans {s t u : State} (h : Rings s t) (k : Rings t u) : Rings s u := by
  obtain ⟨r, n, v, d, e, l, h⟩ := h
  obtain ⟨r2, n2, v2, d2, e2, l2, k⟩ := k
  exact ⟨r2, n2, v2, d2, e2, l2, by rw [k, h]⟩

theorem Rings.ite {s a b : State} {p : Prop} [Decidable p] (ha : Rings s a) (hb : Rings s b) : Rings s (if p then a else b) := by
  split
  exacts [ha, hb]

@[simp] theorem nvEnqueue_btn (r : NvReq) (s : State) : (nvEnqueue r s).btn = s.btn := by
  unfold nvEnqueue
  dsimp only
  (repeat' split) <;> rfl

@[simp] theorem fireIf_btn (c : Bool) (src : Nat) (s : State) : (fireIf c src s).btn = s.btn := by
  unfold fireIf
  split <;> rfl

theorem Rings.before {s t u : State} (k : Rings t u) (h : Rings s t) : Rings s u := h.trans k

theorem rings_ringPut (n : Notice) (s : State) : Rings s (ringPut n s) := by
  unfold ringPut
  dsimp only
  refine .trans ?_ (.of_btn (fireIf_btn ..))
  exact .ite ((Rings.of_btn (nvEnqueue_btn ..)).before ⟨_, _, _, _, _, _, rfl⟩) ⟨_, _, _, _, _, _, rfl⟩

theorem rings_notice (kind src reason : Nat) (d : Word) (s : State) : Rings s (notice kind src reason d s) :=
  .ite (rings_ringPut _ _) ⟨_, _, _, _, _, _, rfl⟩

theorem rings_gradNotice (c : Bool) (reason : Nat) (d : Word) (s : State) : Rings s (gradNotice c reason d s) :=
  .ite ((rings_notice _ _ _ _ _).trans (.of_btn rfl)) (.of_btn rfl)

/-! ### Tables of a function -/

/-- The pairs of a list of keys read back the function at a key of the list. -/
theorem mget_pairs {α : Type} [DecidableEq α] (d f : Nat → α) (l : List Nat) (k : Nat) :
    mget d ((l.filter (fun k => decide (f k ≠ d k))).map (fun k => (k, f k))) k = if k ∈ l then f k else d k := by
  induction l with
  | nil => rfl
  | cons a l ih =>
    rw [List.filter_cons]
    by_cases hk : a = k
    · subst hk
      by_cases hd : f a = d a
      · rw [if_neg (by simp [hd]), ih, if_pos List.mem_cons_self, hd, ite_self]
      · rw [if_pos (by simp [hd]), if_pos List.mem_cons_self, List.map_cons, mget, if_pos rfl]
    · have hmem : (k ∈ a :: l) = (k ∈ l) := by simp [Ne.symm hk]
      simp only [hmem]
      split
      · rw [List.map_cons, mget, if_neg hk, ih]
      · exact ih

/-- A table of a function reads back the function below its bound. -/
theorem mget_mtab {α : Type} [DecidableEq α] (d f : Nat → α) {n k : Nat} (hk : k < n) : mget d (mtab d n f) k = f k :=
  (mget_pairs d f _ k).trans (if_pos (List.mem_range.mpr hk))

/-- Element `m r + j` of a list of blocks of `m` elements. -/
theorem getD_blocks {α : Type} (f : Nat → Nat → α) (d : α) (m : Nat) {n r j : Nat} (hr : r < n) (hj : j < m) :
    ((List.range n).flatMap (fun r => (List.range m).map (f r))).getD (m * r + j) d = f r j := by
  have hlen : ∀ n, ((List.range n).flatMap (fun r => (List.range m).map (f r))).length = m * n := fun n => by
    simp [List.length_flatMap, Nat.mul_comm]
  induction n with
  | zero => omega
  | succ n ih =>
    rw [List.range_succ, List.flatMap_append]
    by_cases h : r < n
    · have hlt : m * r + j < m * n := by
        calc m * r + j < m * (r + 1) := by rw [Nat.mul_succ]; omega
          _ ≤ m * n := Nat.mul_le_mul_left m h
      rw [List.getD_append _ _ _ _ (by rw [hlen]; exact hlt)]
      exact ih h
    · obtain rfl : r = n := by omega
      rw [List.getD_append_right _ _ _ _ (by rw [hlen]; omega), hlen]
      simp [hj]

/-! ### Samples and rounds (R325, R331) -/

/-- What the means of a group leave: the histograms of the module, the temperatures and the data memory. -/
def SampleKept (s t : State) : Prop :=
  t.btn.supplyHist = s.btn.supplyHist ∧ t.btn.tempHist = s.btn.tempHist ∧ t.grd.base = s.grd.base ∧ t.grd.die = s.grd.die ∧
  t.mem = s.mem

protected theorem SampleKept.refl (s : State) : SampleKept s s := ⟨rfl, rfl, rfl, rfl, rfl⟩

protected theorem SampleKept.trans {s t u : State} (h : SampleKept s t) (k : SampleKept t u) : SampleKept s u := by
  obtain ⟨h1, h2, h3, h4, h5⟩ := h
  obtain ⟨k1, k2, k3, k4, k5⟩ := k
  exact ⟨k1.trans h1, k2.trans h2, k3.trans h3, k4.trans h4, k5.trans h5⟩

theorem SampleKept.foldl {β : Type} (f : State → β → State) (hf : ∀ a b, SampleKept a (f a b)) (l : List β) (s : State) :
    SampleKept s (l.foldl f s) := by
  induction l generalizing s with
  | nil => exact .refl s
  | cons b l ih => exact (hf s b).trans (ih _)

theorem sampleKept_groupMeans (s : State) (g : Nat) (m : GroupMeans) : SampleKept s (groupMeans s g m) := by
  have hch : ∀ a i, SampleKept a (match m.chans[i]? with | some c => chanMeans a (8 * g + i) c | none => a) := fun a i => by
    split
    · exact ⟨rfl, rfl, rfl, rfl, rfl⟩
    · exact .refl a
  exact SampleKept.trans ⟨rfl, rfl, rfl, rfl, rfl⟩ (.foldl _ hch _ _)

theorem sampleKept_lifeTick (temp : Int) (s : State) : SampleKept s (lifeTick temp s) := by
  unfold lifeTick
  extract_lets n sec raise
  obtain ⟨r, sn, v, d, e, l, hb⟩ := rings_gradNotice raise 14 (wordOf (sec / 3600)) { s with grd := { s.grd with
    lifeSec := sec, lifeFrac := n % 10000000000, lifeNoted := s.grd.lifeNoted || raise } }
  exact ⟨by rw [hb], by rw [hb], by rw [gradNotice_grd], by rw [gradNotice_grd], gradNotice_mem ..⟩

/-- A round takes its copies of the counts and is in progress. -/
theorem roundStart_spec (s : State) : (roundStart s).btn.busy = true ∧ (roundStart s).mem = s.mem ∧
    (roundStart s).btn.wdCopy = [s.wd.nCp, s.wd.nBackup, s.wd.nTask, s.wd.nClock, s.wd.nFatal] := by
  have hfold : ∀ (l : List Nat) (a : State), (l.foldl (fun a r => nvEnqueue (noticeRec a r) a) a).btn = a.btn ∧
      (l.foldl (fun a r => nvEnqueue (noticeRec a r) a) a).mem = a.mem := fun l => by
    induction l with
    | nil => exact fun _ => ⟨rfl, rfl⟩
    | cons r l ih => exact fun a => ⟨(ih _).1.trans (nvEnqueue_btn ..), (ih _).2.trans (nvEnqueue_mem ..)⟩
  have hif : ∀ (c : Prop) [Decidable c] (r : NvReq) (a : State), (if c then nvEnqueue r a else a).btn = a.btn ∧
      (if c then nvEnqueue r a else a).mem = a.mem := fun c _ r a => by
    split
    · exact ⟨nvEnqueue_btn .., nvEnqueue_mem ..⟩
    · exact ⟨rfl, rfl⟩
  unfold roundStart
  extract_lets _ s1 s2 s3
  have hb : (s3.btn.dirty.foldl (fun a r => nvEnqueue (noticeRec a r) a) s3).btn = s1.btn :=
    (hfold _ _).1.trans ((hif _ _ _).1.trans (hif _ _ _).1)
  have hm : (s3.btn.dirty.foldl (fun a r => nvEnqueue (noticeRec a r) a) s3).mem = s1.mem :=
    (hfold _ _).2.trans ((hif _ _ _).2.trans (hif _ _ _).2)
  rw [hb, hm]
  exact ⟨rfl, rfl, rfl⟩

/-- A saturating count is the smaller of its bound and the sum. -/
theorem satN_eq_min (m n : Nat) : satN m n = min m n := by
  unfold satN
  split <;> omega

/-! ### Clears (R336, R337) -/

/-- A clear in a scope is counted, draws a nonce, and empties what the scope names. -/
theorem clearLog_spec (scope : Nat) (s : State) :
    (clearLog scope s).btn.clears = min 65535 (s.btn.clears + 1) ∧ (clearLog scope s).btn.nonceGen = s.btn.nonceGen + 1 ∧
    (clearLog scope s).btn.opMin = s.btn.opMin ∧ (clearLog scope s).mem = s.mem ∧
    (scope.testBit 1 = true → (clearLog scope s).btn.supplyHist = [] ∧ (clearLog scope s).btn.tempHist = []) ∧
    (scope.testBit 1 = false → (clearLog scope s).btn.supplyHist = s.btn.supplyHist ∧
      (clearLog scope s).btn.tempHist = s.btn.tempHist) ∧
    (scope.testBit 2 = true → (clearLog scope s).btn.tecMax = [] ∧ (clearLog scope s).btn.busoff = []) ∧
    (scope.testBit 2 = false → (clearLog scope s).btn.tecMax = s.btn.tecMax ∧ (clearLog scope s).btn.busoff = s.btn.busoff) := by
  have hbit1 : scope.testBit 1 = decide (scope / 2 % 2 = 1) := Nat.testBit_eq_decide_div_mod_eq
  have hbit2 : scope.testBit 2 = decide (scope / 4 % 2 = 1) := Nat.testBit_eq_decide_div_mod_eq
  unfold clearLog
  extract_lets n h e b
  rw [hbit1, hbit2]
  obtain ⟨r, sn, v, d, er, l, hb⟩ := rings_notice 0x0E noSrc 0 (wordOf scope) { s with btn := { b with
    ring := if n then [] else b.ring
    dirty := if n then b.ring.foldl (fun l p => addNew p.1 l) b.dirty else b.dirty
    scanHist := if h then [] else b.scanHist
    supplyHist := if h then [] else b.supplyHist
    tempHist := if h then [] else b.tempHist
    fieldHist := if h then [] else b.fieldHist
    surgeHist := if h then [] else b.surgeHist
    curMax := if e then [] else b.curMax
    curMin := if e then [] else b.curMin
    tecMax := if e then [] else b.tecMax
    recMax := if e then [] else b.recMax
    busoff := if e then [] else b.busoff
    laneErr := if e then [] else b.laneErr
    laneRetx := if e then [] else b.laneRetx
    clears := satN 0xFFFF (b.clears + 1) } }
  unfold freshNonce
  dsimp only
  rw [hb, notice_mem]
  refine ⟨?_, rfl, rfl, rfl, fun hh => ⟨if_pos hh, if_pos hh⟩, fun hh => ?_, fun he => ⟨if_pos he, if_pos he⟩, fun he => ?_⟩
  · exact satN_eq_min _ _
  · have hno : ¬ h = true := by simp [h, hh]
    exact ⟨if_neg hno, if_neg hno⟩
  · have hno : ¬ e = true := by simp [e, he]
    exact ⟨if_neg hno, if_neg hno⟩

/-! ### Reading (R334) -/

/-- The words that a readout returns: the log's registers, then the notices of the ring. -/
theorem readout_words (f : Nat → Word) (g : Nat → Nat → Word) {n m : Nat} :
    (∀ i < n, ((List.range n).map f ++ (List.range 256).flatMap (fun r => (List.range m).map (g r))).getD i 0 = f i) ∧
    ∀ r < 256, ∀ j < m, ((List.range n).map f ++ (List.range 256).flatMap (fun r => (List.range m).map (g r))).getD (n + m * r + j) 0
      = g r j := by
  have hlen : ((List.range n).map f).length = n := by simp
  refine ⟨fun i hi => ?_, fun r hr j hj => ?_⟩
  · rw [List.getD_append _ _ _ _ (by omega)]
    simp [hi]
  · rw [List.getD_append_right _ _ _ _ (by omega), hlen, show n + m * r + j - n = m * r + j by omega]
    exact getD_blocks g 0 m hr hj

/-- Settles O53: samples, minutes, rounds and clears by what each keeps of the log. -/
theorem bitternLog : Obligations.BitternLog := by
  unfold Obligations.BitternLog
  intro s
  refine ⟨fun hlive => ?readout, fun hno => ?silent, fun r hmay => ⟨_, cpRow_of_rowMay rfl hmay _, rfl, rfl, rfl, rfl, rfl⟩,
    fun mv temp die field hal hsl => ?sample, fun hal hdue => ?minute, fun hfree => ?round, ?clear⟩
  case readout =>
    obtain ⟨hw, hr⟩ := readout_words (fun i => btnRead s (8 + 4 * i)) (fun r => noticeWord (noticeAt s r)) (n := 0x67E) (m := 8)
    exact ⟨_, if_pos (by simpa using hlive), rfl, hw, hr⟩
  case silent => exact if_neg (by simpa using hno)
  case sample =>
    have hfield : ∀ (l : List Nat) (a : State), SampleKept a (l.foldl (fun a g => match field[g]? with
        | some q => groupMeans a g q
        | none => a) a) := SampleKept.foldl _ fun a g => by
      split
      · exact sampleKept_groupMeans ..
      · exact .refl a
    refine ⟨_, if_pos (by simp [hal, hsl]), ?_⟩
    obtain ⟨h1, h2, h3, h4, h5⟩ := (hfield _ _).trans (sampleKept_lifeTick temp _)
    exact ⟨h1, h2, h3, h4, h5⟩
  case minute =>
    have hp : s.sys.powered = true ∧ s.sys.supplyLost = false := by
      simp only [alive, Bool.and_eq_true, Bool.not_eq_true'] at hal
      exact ⟨hal.1.1, hal.2⟩
    refine ⟨_, if_pos (by simp [hp.1, hp.2, cycSec, cycUs, hdue]), rfl, rfl, rfl, fun n hn => ?_⟩
    exact congrArg ChanSt.calAgeMin (mget_mtab _ _ hn)
  case round =>
    refine ⟨fun hdue => ⟨_, if_pos ?_, ?_⟩, fun v hmay hv => ⟨roundStart s, (cpRow_of_rowMay rfl hmay _).trans (congrArg _ ?_), ?_⟩⟩
    · simp only [Bool.and_eq_true, Bool.or_eq_true, decide_eq_true_eq]
      exact ⟨hfree, hdue⟩
    · exact roundStart_spec s
    · exact (if_neg (by simp [fbit, hv])).trans (if_pos hfree)
    · exact roundStart_spec s
  case clear =>
    refine ⟨fun v hmay hkey => ?_, fun i x r hx hlive hser hn hmac hrole hscope hlt => ?_⟩
    · have hscope : fld v 0 3 = v.toNat % 8 := by simp [fld]
      rw [← hscope]
      exact ⟨_, (cpRow_of_rowMay rfl hmay _).trans (congrArg _ (if_pos hkey)), clearLog_spec _ s⟩
    · refine ⟨_, ?_, clearLog_spec _ s⟩
      change (match session s i.toNat with | some x => _ | none => _) = _
      rw [hx]
      refine (if_neg (by simp [hlive])).trans ((if_neg (by simp [hser, hn, hmac])).trans (if_pos ?_))
      simp [fbit, hrole, hscope, hlt]

end Sys2Proof.Machine

/-! ## Fatal faults -/

namespace Sys2Proof.Machine

/-! ### Giving up (R211, R213) -/

/-- What leaves on the twin link changes the lanes, the frames that wait and the last number alone. -/
theorem sendOn_eq (ls : List Bool) (p : LinkPayload) (s : State) :
    ∃ a b q u, sendOn ls p s = { s with pair := { s.pair with lane0 := a, lane1 := b, txSeq := q, unacked := u } } := by
  have hfold : ∀ (l : List Bool) (x : State),
      ∃ a b, l.foldl (fun a l => laneUse l p a) x = { x with pair := { x.pair with lane0 := a, lane1 := b } } := by
    intro l
    induction l with
    | nil => exact fun _ => ⟨_, _, rfl⟩
    | cons l ls ih =>
      intro x
      obtain ⟨a, b, h⟩ := ih (laneUse l p x)
      exact ⟨a, b, h⟩
  obtain ⟨a, b, h⟩ := hfold ls { s with pair := { s.pair with
    txSeq := seqAfter s.pair.txSeq
    unacked := s.pair.unacked ++ ls.map (fun l => { hdr := txHdr s l (seqAfter s.pair.txSeq), payload := p, cyc := s.time.cyc }) } }
  exact ⟨a, b, _, _, h⟩

/-- The logic engine as a stop of the scan leaves it. -/
def stoppedLe (s : State) : LeSt :=
  { s.le with
    running := false, bundle := [], issued := false, sealedReady := false
    lsFrom := if s.le.running then s.time.cyc else s.le.lsFrom }

theorem fire_eq (src st : Nat) (s : State) : ∃ q i, fire src st s = { s with ev := q, img := { s.img with fired := i } } := ⟨_, _, rfl⟩

theorem fireIf_eq (c : Bool) (src : Nat) (s : State) : ∃ q i, fireIf c src s = { s with ev := q, img := { s.img with fired := i } } := by
  unfold fireIf
  split
  · exact fire_eq _ _ s
  · exact ⟨_, _, rfl⟩

theorem stopScan_eq (s : State) :
    ∃ e q i, stopScan s = { s with
      le := stoppedLe s, wd := { s.wd with twd := [], twdDue := 0 }, edit := e, ev := q, img := { s.img with fired := i } } := by
  unfold stopScan editCancel
  obtain ⟨q, i, h⟩ := fireIf_eq (decide (s.edit.phase = .pending) || decide (s.edit.phase = .undoPending)) 475 { s with
    wd := { s.wd with twd := [], twdDue := 0 }
    le := stoppedLe s
    edit := { s.edit with
      phase := if s.edit.phase = .pending then .staged
        else if s.edit.phase = .undoPending then .committed else s.edit.phase
      code := if decide (s.edit.phase = .pending) || decide (s.edit.phase = .undoPending) then 0x0C else s.edit.code } }
  exact ⟨_, q, i, h⟩

/-- An ACTIVE module that gives up holds its outputs and looks for the partner (R211, R213). -/
theorem giveUpOp_eq (kind src reason : Nat) (s : State) :
    ∃ e q i a b n u, giveUpOp kind src reason s = releaseCheck { s with
      le := stoppedLe s, wd := { s.wd with twd := [], twdDue := 0 }, edit := e, ev := q, img := { s.img with fired := i }
      pair := { s.pair with
        lane0 := a, lane1 := b, txSeq := n, unacked := u, mstate := if kind = 4 then .safe else .hold
        tokenOut := false, ship := none, closed := none, takenSeen := false
        giveSrc := BitVec.ofNat 10 src, giveReason := BitVec.ofNat 6 reason, giveKind := BitVec.ofNat 4 kind
        giveTick := some s.tick.num, handTries := none } } := by
  obtain ⟨e, q, i, hs⟩ := stopScan_eq s
  generalize hm : ({
    kind := BitVec.ofNat 4 kind, src := BitVec.ofNat 10 src, reason := BitVec.ofNat 6 reason
    tick := BitVec.ofNat 64 s.tick.num } : GiveUpMsg) = m
  obtain ⟨a, b, n, u, hl⟩ := sendOn_eq [false, true] (.giveUp m) (stopScan s)
  have h1 : sendOn [false, true] (.giveUp m) (stopScan s) = { s with
      le := stoppedLe s, wd := { s.wd with twd := [], twdDue := 0 }, edit := e, ev := q, img := { s.img with fired := i }
      pair := { s.pair with lane0 := a, lane1 := b, txSeq := n, unacked := u } } := by
    rw [hl, hs]
  unfold giveUpOp
  dsimp only
  rw [hm, h1]
  obtain ⟨q2, i2, h2⟩ := fire_eq 436 s.time.ns { s with
    le := stoppedLe s, wd := { s.wd with twd := [], twdDue := 0 }, edit := e, ev := q, img := { s.img with fired := i }
    pair := { s.pair with
      lane0 := a, lane1 := b, txSeq := n, unacked := u, mstate := if kind = 4 then .safe else .hold
      tokenOut := false, ship := none, closed := none, takenSeen := false
      giveSrc := BitVec.ofNat 10 src, giveReason := BitVec.ofNat 6 reason, giveKind := BitVec.ofNat 4 kind
      giveTick := some s.tick.num, handTries := none } }
  exact ⟨e, q2, i2, a, b, n, u, congrArg releaseCheck h2⟩

/-- The release of a module in HOLD that gave up for another cause than a handover (R213). -/
theorem releaseCheck_hold {s : State} (hr : s.pair.role = .active) (hm : s.pair.mstate = .hold) (hg : s.pair.giveTick.isSome = true)
    (hk : s.pair.giveKind ≠ 3) (ht : s.pair.takenSeen = false) :
    (s.pair.released = false → s.pair.tokenIn = true ∨ foreignDrive s = true →
      releaseCheck s = { s with pair := { s.pair with released := true }, sys := { s.sys with pendReset := some 4 } }) ∧
    (s.pair.released = true ∨ (s.pair.tokenIn = false ∧ foreignDrive s = false) → releaseCheck s = s) := by
  refine ⟨fun hrel hseen => (if_pos ?_).trans (if_neg fun h => hk h.1), fun hno => if_neg ?_⟩
  · refine ⟨hr, hg, hrel, ?_, by simp [hm]⟩
    simp only [Bool.or_eq_true]
    exact hseen.elim (fun h => Or.inl (Or.inr h)) Or.inr
  · rintro ⟨-, -, hrel, hseen, -⟩
    rcases hno with h | ⟨h1, h2⟩
    · exact absurd (h.symm.trans hrel) (by decide)
    · rw [ht, h1, h2] at hseen
      exact absurd hseen (by decide)

/-! ### The reaction to a fatal fault (R285) -/

section
variable {s : State} (src reason cause : Nat)

/-- The sequencers, the events and nothing else may change. -/
def Triggers (s t : State) : Prop := ∃ g q i, t = { s with slc := { s.slc with grp := g }, ev := q, img := { s.img with fired := i } }

theorem triggers_slcStartGrp (u : Bool) (s : State) (g : Nat) : Triggers s (slcStartGrp cause u s g) := by
  by_cases h : (sg s g).phase = .idle ∧ g < nGroups s
  · obtain ⟨x, b, -, ht⟩ := slcStartGrp_idle h cause u
    obtain ⟨q, i, he⟩ := fireIf_eq b (440 + g) (sgPut s g x)
    rw [ht, he]
    exact ⟨_, q, i, rfl⟩
  · rw [show slcStartGrp cause u s g = s from if_neg h]
    exact ⟨_, _, _, rfl⟩

theorem triggers_slcStartGrps (u : Nat → Bool) (l : List Nat) (s : State) :
    Triggers s (l.foldl (fun a g => slcStartGrp cause (u g) a g) s) := by
  induction l generalizing s with
  | nil => exact ⟨_, _, _, rfl⟩
  | cons g l ih =>
    obtain ⟨g1, q1, i1, h1⟩ := triggers_slcStartGrp cause (u g) s g
    obtain ⟨g2, q2, i2, h2⟩ := ih (slcStartGrp cause (u g) s g)
    rw [h1] at h2
    rw [List.foldl_cons, h1]
    exact ⟨g2, q2, i2, h2⟩

/-- A module-wide trigger records itself and starts every group that is IDLE (R177). -/
theorem slcTriggerAll_spec (s : State) :
    (∃ g q i, slcTriggerAll cause s = { s with
      slc := { s.slc with
        relPending := 0, lastCause := BitVec.ofNat 4 cause, lastGroup := 0, lastValid := true, lastTime := s.time.ns, grp := g }
      ev := q, img := { s.img with fired := i } }) ∧
    (mwf (fun _ => ({} : SlcGrp)) s.slc.grp = true → ∀ g < nGroups s, (sg s g).phase = .idle →
      Started cause (sg (slcTriggerAll cause s) g)) := by
  unfold slcTriggerAll
  extract_lets _ s1
  refine ⟨triggers_slcStartGrps cause (fun g => fbit (force s (aSLC + 0x100 + 4 * g)) 0) (List.range (nGroups s)) s1,
    fun hwf g hg hi => ?_⟩
  exact ((slcStartGrps_spec cause (fun g => fbit (force s (aSLC + 0x100 + 4 * g)) 0) (List.range (nGroups s)) List.nodup_range
    (s := s1) hwf).2 g).1 ⟨List.mem_range.mpr hg, hg, hi⟩

/-- The state in which the reaction begins. -/
def reactStart (s : State) : State :=
  { s with
    pair := { s.pair with tokenOut := false }
    fcu := { s.fcu with
      reactCyc := some s.time.cyc
      preReset := if decide (s.fcu.reactCyc = some s.time.cyc) then s.fcu.preReset else s.sys.pendReset } }

theorem fatalReact_active (hr : s.pair.role = .active) (hm : s.pair.mstate = .run) :
    fatalReact src reason cause s = giveUpOp 1 src reason (reactStart s) := by
  unfold fatalReact
  rw [hr, hm]
  rfl

theorem fatalReact_solo (hr : s.pair.role = .solo) (hm : s.pair.mstate = .run ∨ s.pair.mstate = .ready) :
    ∃ u, fatalReact src reason cause s = { slcTriggerAll cause (stopScan (reactStart s)) with
      pair := { (slcTriggerAll cause (stopScan (reactStart s))).pair with mstate := .safe }
      le := { (slcTriggerAll cause (stopScan (reactStart s))).le with uncommitted := u } } := by
  unfold fatalReact
  rw [hr]
  rcases hm with hm | hm <;> exact ⟨_, by rw [hm]; rfl⟩

theorem fatalReact_resets (h : s.pair.role = .standby ∧ s.pair.mstate = .shadow ∨ s.pair.role = .undecided ∧ s.pair.mstate = .ready) :
    fatalReact src reason cause s = { reactStart s with sys := { s.sys with pendReset := some 4 } } := by
  unfold fatalReact
  rcases h with ⟨hr, hm⟩ | ⟨hr, hm⟩ <;> rw [hr, hm] <;> rfl

/-- The reaction of R285 is that of each role and state. -/
theorem fatalReact_outcome (s : State) :
    fatalOutcome s (fatalReact src reason cause s) (BitVec.ofNat 10 src) (BitVec.ofNat 6 reason) (BitVec.ofNat 4 cause) := by
  refine ⟨fatalReact_silent .., fatalReact_mem .., fun hr hm => ?active, fun hr hm => ?solo, fun h => ?resets⟩
  case active =>
    obtain ⟨e, q, i, a, b, n, u, hg⟩ := giveUpOp_eq 1 src reason (reactStart s)
    rw [fatalReact_active src reason cause hr hm, hg]
    generalize hx : ({ reactStart s with
      le := stoppedLe (reactStart s), wd := { (reactStart s).wd with twd := [], twdDue := 0 }, edit := e, ev := q, img := { (reactStart s).img with fired := i }
      pair := { (reactStart s).pair with
        lane0 := a, lane1 := b, txSeq := n, unacked := u, mstate := if 1 = 4 then .safe else .hold
        tokenOut := false, ship := none, closed := none, takenSeen := false
        giveSrc := BitVec.ofNat 10 src, giveReason := BitVec.ofNat 6 reason, giveKind := BitVec.ofNat 4 1
        giveTick := some (reactStart s).tick.num, handTries := none } } : State) = x
    have hrest : x.pair.mstate = .hold ∧ x.pair.giveKind = 1 ∧ x.pair.giveSrc = BitVec.ofNat 10 src ∧
        x.pair.giveReason = BitVec.ofNat 6 reason ∧ x.pair.giveTick = some s.tick.num ∧ x.le.running = false ∧
        x.pair.role = .active ∧ x.pair.takenSeen = false ∧ x.pair.released = s.pair.released ∧ x.pair.tokenIn = s.pair.tokenIn ∧
        foreignDrive x = foreignDrive s ∧ x.sys = s.sys := by
      subst hx
      exact ⟨rfl, rfl, rfl, rfl, rfl, rfl, hr, rfl, rfl, rfl, rfl, rfl⟩
    obtain ⟨h1, h2, h3, h4, h5, h6, hrole, htk, hrel, htok, hfd, hsys⟩ := hrest
    obtain ⟨hgo, hno⟩ := releaseCheck_hold hrole h1 (by rw [h5]; rfl) (by rw [h2]; decide) htk
    rw [hrel, htok, hfd] at hgo hno
    by_cases hc : s.pair.released = false ∧ (s.pair.tokenIn = true ∨ foreignDrive s = true)
    · rw [hgo hc.1 hc.2]
      refine ⟨h1, h2, h3, h4, h5, h6, fun _ _ => ⟨rfl, rfl⟩, fun hti hf => ?_⟩
      rw [hti, hf] at hc
      exact absurd hc.2 (by decide)
    · have hn : s.pair.released = true ∨ (s.pair.tokenIn = false ∧ foreignDrive s = false) := by
        cases hcr : s.pair.released
        · simpa [hcr] using hc
        · exact Or.inl rfl
      rw [hno hn]
      exact ⟨h1, h2, h3, h4, h5, h6, fun hr2 hs => absurd ⟨hr2, hs⟩ hc, fun _ _ => by rw [hsys]⟩
  case solo =>
    obtain ⟨u, hf⟩ := fatalReact_solo src reason cause hr hm
    obtain ⟨e, q, i, hs⟩ := stopScan_eq (reactStart s)
    obtain ⟨⟨gs, q2, i2, h1⟩, h6⟩ := slcTriggerAll_spec cause (stopScan (reactStart s))
    rw [hf]
    refine ⟨rfl, ?_, ?_, ?_, fun hok g hg hi => ?_⟩
    · rw [h1]
    · rw [h1]
    · rw [h1, hs]
      rfl
    · rw [hs] at h6
      obtain ⟨hph, -, hc, -⟩ := h6 (tablesOk_slcGrp hok) g hg hi
      rw [← hs] at hph hc
      exact ⟨hph, hc⟩
  case resets =>
    rw [fatalReact_resets src reason cause h]
    exact ⟨rfl, rfl⟩

/-- The settling of the outputs keeps the outcome. -/
theorem fatalOutcome_settle {t : State} {sc : BitVec 10} {rs : BitVec 6} {ca : BitVec 4} (h : fatalOutcome s t sc rs ca) :
    fatalOutcome s (settle t) sc rs ca := by
  obtain ⟨r, c, b, n, e, i, x, hs⟩ := settles_settle t
  rw [hs]
  exact h

/-- The outcome rests on the pair, the data memory, the tick's number, the reset that is pending, the drive that is sensed, the groups and
the form of the tables. -/
theorem fatalOutcome_congr {s' t : State} {sc : BitVec 10} {rs : BitVec 6} {ca : BitVec 4} (hpair : s'.pair = s.pair)
    (hmem : s'.mem = s.mem) (htick : s'.tick.num = s.tick.num) (hsys : s'.sys = s.sys) (hfd : foreignDrive s' = foreignDrive s)
    (hok : tablesOk s' = tablesOk s) (hfix : s'.fixed = s.fixed) (hslc : s'.slc = s.slc) (h : fatalOutcome s' t sc rs ca) :
    fatalOutcome s t sc rs ca := by
  unfold fatalOutcome at h ⊢
  simp only [hpair, hmem, htick, hsys, hfd, hok, nGroups_congr hfix, sg_congr hslc] at h
  exact h

/-- A fatal fault from a state that differs in nothing that the reaction rests on. -/
theorem fatalFault_outcome (s : State) :
    fatalOutcome s (settle (fatalFault src reason s)) (BitVec.ofNat 10 src) (BitVec.ofNat 6 reason)
      (BitVec.ofNat 4 (if reason = 0x23 then 1 else 2)) := by
  refine fatalOutcome_settle ?_
  have h := fatalReact_outcome src reason (if reason = 0x23 then 1 else 2) (fcuRecord src reason 2 s)
  rw [fatalFault]
  obtain ⟨f, u, b, n, e, i, hr⟩ := records_fcuRecord src reason 2 s
  rw [hr] at h ⊢
  exact h

end

end Sys2Proof.Machine

/-! ## Fatal faults of the logic engine, and its self-test -/

namespace Sys2Proof.Machine

section
variable {s : State} (src reason cause : Nat)

theorem releaseCheck_le (h : s.pair.giveKind ≠ 3) : (releaseCheck s).le = s.le := by
  unfold releaseCheck
  dsimp only
  split
  · split
    · next hc => exact absurd hc.1 h
    · rfl
  · rfl

/-- The reaction leaves the logic engine, or stops its scan. -/
theorem fatalReact_le (s : State) :
    (fatalReact src reason cause s).le = s.le ∨ ∃ u, (fatalReact src reason cause s).le = { stoppedLe s with uncommitted := u } := by
  by_cases ha : s.pair.role = .active ∧ s.pair.mstate = .run
  · obtain ⟨e, q, i, a, b, n, u, hg⟩ := giveUpOp_eq 1 src reason (reactStart s)
    rw [fatalReact_active src reason cause ha.1 ha.2, hg,
      releaseCheck_le (show (BitVec.ofNat 4 1 : BitVec 4) ≠ 3 by decide)]
    exact Or.inr ⟨_, rfl⟩
  · by_cases hs : s.pair.role = .solo ∧ (s.pair.mstate = .run ∨ s.pair.mstate = .ready)
    · obtain ⟨u, hf⟩ := fatalReact_solo src reason cause hs.1 hs.2
      obtain ⟨e, q, i, hst⟩ := stopScan_eq (reactStart s)
      obtain ⟨⟨g, q2, i2, h3⟩, -⟩ := slcTriggerAll_spec cause (stopScan (reactStart s))
      rw [hf]
      refine Or.inr ⟨u, ?_⟩
      dsimp only
      rw [h3, hst]
      rfl
    · unfold fatalReact
      dsimp only
      split
      · next hr hm => exact absurd ⟨hr, hm⟩ ha
      · next hr hm => exact absurd ⟨hr, Or.inl hm⟩ hs
      · next hr hm => exact absurd ⟨hr, Or.inr hm⟩ hs
      all_goals exact Or.inl rfl

theorem fatalFault_le (s : State) :
    (fatalFault src reason s).le = s.le ∨ ∃ u, (fatalFault src reason s).le = { stoppedLe s with uncommitted := u } := by
  have h := fatalReact_le src reason (if reason = 0x23 then 1 else 2) (fcuRecord src reason 2 s)
  rw [fatalFault]
  obtain ⟨f, u, b, n, e, i, hr⟩ := records_fcuRecord src reason 2 s
  rw [hr] at h ⊢
  exact h

/-- The fault of a lockstep compare keeps what the commands set in the logic engine before it. -/
theorem fatalFault_le_keeps {x : State} (h : x.le.running = false) :
    (settle (fatalFault src reason x)).le.running = false ∧
    (x.le.sealedReady = false → (settle (fatalFault src reason x)).le.sealedReady = false) ∧
    (settle (fatalFault src reason x)).le.lsActive = x.le.lsActive := by
  rw [settle_le]
  rcases fatalFault_le src reason x with hx | ⟨u, hx⟩
  · rw [hx]
    exact ⟨h, id, rfl⟩
  · rw [hx]
    exact ⟨rfl, fun _ => rfl, rfl⟩

theorem fatalFault_tick (s : State) : (settle (fatalFault src reason s)).tick = s.tick := by
  rw [settle_tick]
  obtain ⟨_, _, _, _, _, _, _, _, _, _, _, _, _, _, h⟩ := reacts_fatalFault src reason s
  rw [h]

end

/-- A step of the self-test that fails. -/
theorem lockstepSelfTest_fails {s : State} (h : lsStepRuns s = true) : exec (.lockstepSelfTest false) s =
    .next (settle (fatalFault 476 0x21 (fire 476 s.time.ns { s with le := { s.le with lsActive := false } }))) := by
  change execLockstepSelfTest false s = _
  rw [execLockstepSelfTest, if_neg Bool.false_ne_true, if_pos h]

/-- A step of the self-test that ends; the last one ends the pass. -/
theorem lockstepSelfTest_ends {s : State} (h : lsStepDue s = true) (done : Bool) (hd : decide (999 ≤ s.le.lsStep) = done) :
    exec (.lockstepSelfTest true) s = .next { s with le := { s.le with
      lsStep := s.le.lsStep + 1, lsActive := !done, lsFrom := s.time.cyc
      lsPasses := if done then satN 0xFFFF (s.le.lsPasses + 1) else s.le.lsPasses
      lsPeriod := if done then satN 255 (s.le.lsStart - s.le.lsPrevStart.getD s.le.lsStart) else s.le.lsPeriod
      lsPrevStart := if done then some s.le.lsStart else s.le.lsPrevStart } } := by
  subst hd
  change execLockstepSelfTest true s = _
  rw [execLockstepSelfTest, if_pos rfl, if_pos h]

/-- Settles O29: each fatal fault by the reaction of R285, each step of the self-test by its guard. -/
theorem fatalFaultsAndSelfTest : Obligations.FatalFaultsAndSelfTest := by
  unfold Obligations.FatalFaultsAndSelfTest
  refine ⟨fun s => ⟨?prog, fun hrun hmiss hdone => ?refresh, fun hpow hres hini hsl => ?mismatch, fun hstep => ?fails⟩,
    fun s hticks => ⟨fun hact hsec hnow => ?start, fun hact hrun hidle hfrom hnext => ⟨fun hlt => ?step, fun heq => ?last⟩⟩⟩
  case prog => exact ⟨_, rfl, fatalFault_outcome 538 0x22 s⟩
  case refresh =>
    refine ⟨_, if_pos ?_, ?_, fatalFault_outcome 538 0x23 { s with tick := { s.tick with missed := 0 } }⟩
    · simp only [Bool.and_eq_true, decide_eq_true_eq]
      exact ⟨⟨hrun, by simpa [fld] using hmiss⟩, hdone⟩
    · rw [fatalFault_tick]
  case mismatch =>
    obtain ⟨e, q, i, hs⟩ := stopScan_eq s
    have hrest : (fire 476 s.time.ns (stopScan s)).le = stoppedLe s := by
      rw [hs]
      rfl
    have hfault := fatalFault_outcome 476 0x21 (fire 476 s.time.ns (stopScan s))
    obtain ⟨h1, h2, -⟩ := fatalFault_le_keeps 476 0x21 (x := fire 476 s.time.ns (stopScan s)) (by rw [hrest]; rfl)
    refine ⟨_, if_pos ?_, h1, h2 (by rw [hrest]; rfl), ?_⟩
    · simp only [Bool.and_eq_true, decide_eq_true_eq, Bool.not_eq_true']
      exact ⟨⟨⟨hpow, hres⟩, hini⟩, hsl⟩
    · refine fatalOutcome_congr ?_ ?_ ?_ ?_ ?_ ?_ ?_ ?_ hfault <;> rw [hs] <;> rfl
  case fails =>
    have hrun : s.le.running = false := by
      simp only [lsStepRuns, Bool.and_eq_true, Bool.not_eq_true'] at hstep
      exact hstep.1.1.2
    obtain ⟨-, -, h3⟩ := fatalFault_le_keeps 476 0x21
      (x := fire 476 s.time.ns { s with le := { s.le with lsActive := false } }) hrun
    have hfault := fatalFault_outcome 476 0x21 (fire 476 s.time.ns { s with le := { s.le with lsActive := false } })
    refine ⟨_, lockstepSelfTest_fails hstep, h3, ?_⟩
    refine fatalOutcome_congr ?_ ?_ ?_ ?_ ?_ ?_ ?_ ?_ hfault <;> rfl
  case start =>
    refine if_pos ?_
    simp only [Bool.and_eq_true, decide_eq_true_eq, Bool.not_eq_true']
    exact ⟨⟨⟨hticks, hact⟩, hsec⟩, hnow⟩
  all_goals
    have hdue : lsStepDue s = true := by
      simp only [lsStepDue, lsStepRuns, Bool.and_eq_true, decide_eq_true_eq, Bool.not_eq_true', Bool.or_eq_true]
      refine ⟨⟨⟨⟨⟨hticks, hact⟩, hrun⟩, ?_⟩, by omega⟩, hfrom⟩
      tauto
  case step =>
    rw [lockstepSelfTest_ends hdue false (decide_eq_false (by omega)), show (!false) = s.le.lsActive from hact.symm]
    rfl
  case last => exact ⟨_, lockstepSelfTest_ends hdue true (decide_eq_true (by omega)), rfl, satN_eq_min _ _, rfl, satN_eq_min _ _⟩

end Sys2Proof.Machine

/-! ## The Graduation monitor -/

namespace Sys2Proof.Machine

theorem srcPresent_grad (s : State) : srcPresent s 490 = true := rfl

/-- A notice of the monitor fires source 490. -/
theorem mem_gradNotice_pend {c : Bool} (hc : c = true) (reason : Nat) (d : Word) (s : State) :
    (490 : BitVec 10) ∈ (gradNotice c reason d s).ev.pend := by
  rw [gradNotice, if_pos hc]
  exact mem_fire_pend (srcPresent_grad _) _

/-! ### The actions of R371 -/

section
variable {s : State} {slack : Nat}

theorem codeUp_spec (s : State) : (codeUp s).grd.code = s.grd.code + 1 ∧ (codeUp s).grd.codePend = none ∧
    (codeUp s).grd = { s.grd with
      code := s.grd.code + 1, codePend := none, monthCode := max s.grd.monthCode (s.grd.code + 1)
      atLimitSeen := (codeUp s).grd.atLimitSeen } ∧ (codeUp s).mem = s.mem ∧ (codeUp s).le = s.le := by
  unfold codeUp
  dsimp only
  rw [gradNotice_grd, gradNotice_mem, gradNotice_le]
  exact ⟨rfl, rfl, rfl, rfl, rfl⟩

theorem clockTo_spec (n : Nat) (s : State) : (clockTo n s).grd.clockPend = some n ∧
    (s.grd.clockPend ≠ some n → (490 : BitVec 10) ∈ (clockTo n s).ev.pend) ∧
    (clockTo n s).grd = { s.grd with clockPend := some n, monthMhz := (clockTo n s).grd.monthMhz } ∧
    (clockTo n s).mem = s.mem ∧ (clockTo n s).le = s.le := by
  unfold clockTo
  dsimp only
  split
  · next h => exact ⟨h, fun hn => absurd h hn, by rw [← h], rfl, rfl⟩
  · split
    · rw [gradNotice_grd, gradNotice_mem, gradNotice_le]
      exact ⟨rfl, fun _ => mem_gradNotice_pend rfl _ _ _, rfl, rfl, rfl⟩
    · exact ⟨rfl, fun _ => mem_fire_pend (srcPresent_grad _) _, rfl, rfl, rfl⟩

theorem grdAct_codeUp (h : slack < 8) (hc : s.grd.code < 21) : grdAct slack s = codeUp s := if_pos ⟨h, hc⟩

theorem grdAct_slower (h : slack < 8) (hc : s.grd.code = 21) (hf : 360 < s.le.mhz) : grdAct slack s = clockTo (s.le.mhz - 5) s :=
  (if_neg (by omega)).trans (if_pos ⟨h, hc, hf⟩)

theorem grdAct_faster (h : 16 ≤ slack) (hc : s.grd.code ≤ 19) (hf : s.le.mhz < 400) : grdAct slack s = clockTo (s.le.mhz + 5) s :=
  (if_neg (by omega)).trans ((if_neg (by omega)).trans (if_pos ⟨h, hf, hc⟩))

theorem grdAct_codeDown (h : 16 ≤ slack) (hf : 400 ≤ s.le.mhz) (hc : s.fixed.codeMin < s.grd.code) : grdAct slack s = codeDown s :=
  (if_neg (by omega)).trans ((if_neg (by omega)).trans ((if_neg (by omega)).trans (if_pos ⟨h, hc⟩)))

theorem grdAct_rests (h : 8 ≤ slack) (h16 : slack < 16) : grdAct slack s = s :=
  (if_neg (by omega)).trans ((if_neg (by omega)).trans ((if_neg (by omega)).trans (if_neg (by omega))))

/-- What no action of R371 changes. -/
theorem grdAct_keeps (slack : Nat) (s : State) :
    (grdAct slack s).grd.worst = s.grd.worst ∧ (grdAct slack s).grd.evalCyc = s.grd.evalCyc ∧
    (grdAct slack s).grd.urgentSeen = s.grd.urgentSeen ∧ (grdAct slack s).grd.urgentTick = s.grd.urgentTick ∧
    (grdAct slack s).le = s.le ∧ (grdAct slack s).mem = s.mem := by
  have hclock : ∀ n, (clockTo n s).grd.worst = s.grd.worst ∧ (clockTo n s).grd.evalCyc = s.grd.evalCyc ∧
      (clockTo n s).grd.urgentSeen = s.grd.urgentSeen ∧ (clockTo n s).grd.urgentTick = s.grd.urgentTick ∧
      (clockTo n s).le = s.le ∧ (clockTo n s).mem = s.mem := fun n => by
    obtain ⟨-, -, h, hm, hl⟩ := clockTo_spec n s
    rw [h]
    exact ⟨rfl, rfl, rfl, rfl, hl, hm⟩
  unfold grdAct
  dsimp only
  split
  · obtain ⟨-, -, h, hm, hl⟩ := codeUp_spec s
    rw [h]
    exact ⟨rfl, rfl, rfl, rfl, hl, hm⟩
  split
  · exact hclock _
  split
  · exact hclock _
  split
  · exact ⟨rfl, rfl, rfl, rfl, rfl, rfl⟩
  · exact ⟨rfl, rfl, rfl, rfl, rfl, rfl⟩

end

/-! ### Records, derating and wear (R375, R376, R378) -/

theorem horizonOf_le (ms : List Int) : horizonOf ms ≤ 4095 := by
  unfold horizonOf
  dsimp only
  split
  · exact Nat.le_refl _
  · exact Nat.min_le_left _ _

/-- The last 24 month records end with the newest. -/
theorem lastN_append {α : Type} (l : List α) (m : α) {n : Nat} (hn : 0 < n) :
    (lastN n (l ++ [m])).getLast? = some m ∧ (lastN n (l ++ [m])).length ≤ n := by
  unfold lastN
  refine ⟨?_, ?_⟩
  · rw [List.getLast?_drop]
    simp
    omega
  · simp
    omega

/-- Derating lets DERATED of a group fall only, for the next tick. -/
def DeratesOnly (s t : State) : Prop :=
  mwf (fun _ => ({} : GrpSt)) t.grp = true ∧
  ∀ g, (gr t g).deratedNew ≤ (gr s g).deratedNew ∧ (gr t g).derated = (gr s g).derated

theorem derateGrp_mem (s : State) (g : Nat) : (derateGrp s g).mem = s.mem := gradNotice_mem ..

theorem derateGrp_only {s : State} (hwf : mwf (fun _ => ({} : GrpSt)) s.grp = true) (g : Nat) : DeratesOnly s (derateGrp s g) := by
  unfold derateGrp
  dsimp only
  generalize derateOf _ = d
  refine ⟨?_, fun m => ?_⟩
  · rw [gradNotice_grp]
    exact mwf_mput _ _ _ hwf
  · rw [gr_congr (gradNotice_grp _ _ _ _)]
    by_cases hm : m = g
    · subst hm
      rw [gr_grPut_same hwf]
      exact ⟨Nat.min_le_left _ _, rfl⟩
    · rw [show gr (grPut s g _) m = gr s m from mget_mput_other _ hm]
      exact ⟨Nat.le_refl _, rfl⟩

theorem derateGrps_only (l : List Nat) : ∀ {s : State}, mwf (fun _ => ({} : GrpSt)) s.grp = true →
    DeratesOnly s (l.foldl derateGrp s) := by
  induction l with
  | nil => exact fun h => ⟨h, fun _ => ⟨Nat.le_refl _, rfl⟩⟩
  | cons g l ih =>
    intro s h
    obtain ⟨hwf, hg⟩ := derateGrp_only h g
    obtain ⟨hwf2, hl⟩ := ih hwf
    exact ⟨hwf2, fun m => ⟨Nat.le_trans (hl m).1 (hg m).1, (hl m).2.trans (hg m).2⟩⟩

theorem derateCh_keeps (t : Int) (s : State) (n : Nat) : (derateCh t s n).grp = s.grp ∧ (derateCh t s n).mem = s.mem := by
  unfold derateCh
  dsimp only
  split
  · exact ⟨gradNotice_grp .., gradNotice_mem ..⟩
  · exact ⟨rfl, rfl⟩

theorem wornMark_spec (s : State) (i : Nat) : (wornMark s i).grd.wornSec = addNew i s.grd.wornSec ∧
    (wornMark s i).nv.moving = s.nv.moving ∧ (wornMark s i).mem = s.mem := by
  obtain ⟨q, w, n, hq⟩ := queues_gradNotice (!s.grd.wornSec.contains i) 6 (wordOf i)
    { s with grd := { s.grd with wornSec := addNew i s.grd.wornSec } }
  unfold wornMark
  rw [gradNotice_grd, gradNotice_mem, hq]
  exact ⟨rfl, rfl, rfl⟩

theorem mem_addNew {α : Type} [DecidableEq α] {x y : α} {l : List α} : y ∈ addNew x l ↔ y = x ∨ y ∈ l := by
  unfold addNew
  split
  · next h => exact ⟨Or.inr, fun hy => hy.elim (fun e => e ▸ h) id⟩
  · simp [or_comm]

/-- Marks of worn sectors stay, and every listed sector has one. -/
theorem wornMarks_spec (l : List Nat) (s : State) :
    (∀ i, i ∈ s.grd.wornSec ∨ i ∈ l → i ∈ (l.foldl wornMark s).grd.wornSec) ∧
    (l.foldl wornMark s).nv.moving = s.nv.moving ∧ (l.foldl wornMark s).mem = s.mem := by
  induction l generalizing s with
  | nil => exact ⟨fun i h => h.resolve_right List.not_mem_nil, rfl, rfl⟩
  | cons k l ih =>
    obtain ⟨hw, hv, hm⟩ := wornMark_spec s k
    obtain ⟨jw, jv, jm⟩ := ih (wornMark s k)
    refine ⟨fun i hi => jw i ?_, jv.trans hv, jm.trans hm⟩
    rw [hw, mem_addNew]
    rcases hi with h | h
    · exact Or.inl (Or.inr h)
    · rcases List.mem_cons.mp h with h | h
      · exact Or.inl (Or.inl h)
      · exact Or.inr h

/-- The measurement of sensor 4 is due. -/
theorem marginDue {s : State} (h : mget (fun _ => none) s.grd.taken 4 = none ∨
    ∃ m, mget (fun _ => none) s.grd.taken 4 = some m ∧ m + 43200 ≤ s.btn.opMin.toNat) :
    (match mget (fun _ => none) s.grd.taken 4 with | some t => decide (t + 43200 ≤ s.btn.opMin.toNat) | none => true) = true := by
  rcases h with h | ⟨m, h, hm⟩
  · rw [h]
  · rw [h]
    exact decide_eq_true hm

/-- Settles O58: each command through what the action of R371, its notice and its sensor's mark leave. -/
theorem graduationMonitor : Obligations.GraduationMonitor := by
  unfold Obligations.GraduationMonitor
  intro s hrun c f w
  refine ⟨fun hdue => ?eval, fun k can => ⟨fun h4 => ?slow, fun h2 hc hf => ?fatal, fun h4 hcf hact htick => ?urgent,
    fun h2 hact => ?resting⟩, fun hdue => ?month, fun temp hdue => ?derate, fun n mv hn hdue => ?drift,
    fun weak hmount htest hdue => ?margin, fun mv hdue => ?cell, fun temp ht => ?hot, fun l hdue => ?ring, fun ppb hdue => ?tcxo⟩
  case eval =>
    refine ⟨_, if_pos ?_, ?_⟩
    · simp only [Bool.and_eq_true, decide_eq_true_eq]
      exact ⟨hrun, hdue⟩
    dsimp only
    generalize hs1 : ({ s with grd := { s.grd with
      worst := 0xFF, canary := 0, evalCyc := s.time.cyc, firstCode := some (s.grd.firstCode.getD s.grd.code)
      monthCode := max s.grd.monthCode s.grd.code, monthSlack := min s.grd.monthSlack (s.grd.worst) } } : State) = s1
    obtain ⟨e1, e2, e3, e4, e5, e6, e7, e8⟩ : s1.grd.worst = 0xFF ∧ s1.grd.evalCyc = s.time.cyc ∧ s1.le = s.le ∧ s1.mem = s.mem ∧
        s1.grd.code = c ∧ s1.grd.codePend = s.grd.codePend ∧ s1.grd.clockPend = s.grd.clockPend ∧ s1.fixed = s.fixed := by
      subst hs1
      exact ⟨rfl, rfl, rfl, rfl, rfl, rfl, rfl, rfl⟩
    obtain ⟨k1, k2, -, -, k5, k6⟩ := grdAct_keeps w s1
    have ef : s1.le.mhz = f := by rw [e3]
    refine ⟨k1.trans e1, k2.trans e2, by rw [k5, e3], k6.trans e4, fun hw hc => ?_, fun hw hc hf => ?_, fun hw hf hc => ?_,
      fun hw hf hc => ?_, fun hw hw16 => ?_⟩
    · obtain ⟨h1, h2, -⟩ := codeUp_spec s1
      rw [grdAct_codeUp hw (by omega)]
      exact ⟨h1.trans (by rw [e5]), h2⟩
    · obtain ⟨h1, h2, -⟩ := clockTo_spec (f - 5) s1
      rw [grdAct_slower hw (by omega) (by omega), ef]
      exact ⟨h1, fun hn => h2 (by rw [e7]; exact hn)⟩
    · obtain ⟨h1, h2, -⟩ := clockTo_spec (f + 5) s1
      rw [grdAct_faster hw (by omega) (by omega), ef]
      exact ⟨h1, fun hn => h2 (by rw [e7]; exact hn)⟩
    · rw [grdAct_codeDown hw (by omega) (by rw [e8]; omega)]
      exact congrArg (fun n => some (n - 1)) e5
    · rw [grdAct_rests hw hw16]
      exact ⟨e5, e6, e7⟩
  case slow =>
    refine ⟨_, (if_neg (by simp [hrun])).trans ((if_neg (by omega)).trans (if_neg (by omega))), ?_⟩
    split
    · next h => exact ⟨(Nat.min_eq_right (Nat.le_of_lt h)).symm, rfl, rfl⟩
    · next h => exact ⟨(Nat.min_eq_left (Nat.not_lt.mp h)).symm, rfl, rfl⟩
  case fatal =>
    refine ⟨_, (if_neg (by simp [hrun])).trans (if_pos ⟨h2, hc, hf⟩), ?_⟩
    generalize hs1 : (if k.toNat < s.grd.worst then { s with grd := { s.grd with worst := k.toNat, canary := can } } else s) = s1
    have hfault := fatalFault_outcome 490 0x25 s1
    have hsame : s1 = { s with grd := s1.grd } := by
      subst hs1
      split <;> rfl
    refine fatalOutcome_congr ?_ ?_ ?_ ?_ ?_ ?_ ?_ ?_ hfault <;> rw [hsame] <;> rfl
  case urgent =>
    refine ⟨_, (if_neg (by simp [hrun])).trans ((if_neg ?_).trans (if_pos ⟨h4, htick, hact⟩)), ?_⟩
    · rintro ⟨-, hc, hf⟩
      exact hcf.elim (fun h => h hc) (fun h => h hf)
    generalize hs1 : (if k.toNat < s.grd.worst then { s with grd := { s.grd with worst := k.toNat, canary := can } } else s) = s1
    generalize hs2 : ({ s1 with grd := { s1.grd with urgentSeen := true, urgentTick := some s.tick.num } } : State) = s2
    obtain ⟨e1, e2, e3, e4, e5⟩ : s2.grd.code = c ∧ s2.le.mhz = f ∧ s2.mem = s.mem ∧ s2.grd.urgentSeen = true ∧
        s2.grd.urgentTick = some s.tick.num := by
      subst hs2 hs1
      split <;> exact ⟨rfl, rfl, rfl, rfl, rfl⟩
    obtain ⟨-, -, k3, k4, -, k6⟩ := grdAct_keeps k.toNat s2
    refine ⟨k3.trans e4, k4.trans e5, fun hc => ?_, fun hc hf => ?_, k6.trans e3⟩
    · rw [grdAct_codeUp (by omega) (by omega), (codeUp_spec s2).1, e1]
    · rw [grdAct_slower (by omega) (by omega) (by omega), (clockTo_spec _ s2).1, e2]
  case resting =>
    refine ⟨_, (if_neg (by simp [hrun])).trans ((if_neg (by omega)).trans (if_neg (by simp [hact]))), ?_⟩
    split <;> exact ⟨rfl, rfl, rfl⟩
  case month =>
    refine ⟨_, {
      code := max s.grd.monthCode s.grd.code
      mhz := if s.grd.monthMhz = 0 then s.le.mhz else min s.grd.monthMhz s.le.mhz
      slack := min s.grd.monthSlack s.grd.worst, temp := s.grd.monthTemp }, if_pos (by simp [hrun, hdue]), ?_⟩
    rw [gradNotice_grd, gradNotice_mem]
    obtain ⟨hl, hlen⟩ := lastN_append s.grd.months {
      code := max s.grd.monthCode s.grd.code
      mhz := if s.grd.monthMhz = 0 then s.le.mhz else min s.grd.monthMhz s.le.mhz
      slack := min s.grd.monthSlack s.grd.worst, temp := s.grd.monthTemp : Month } (n := 24) (by decide)
    exact ⟨rfl, hl, rfl, rfl, hlen, horizonOf_le _, rfl⟩
  case derate =>
    refine ⟨_, if_pos (by simp [hrun, hdue]), ?_, fun hok g _ => ?_⟩
    · exact (foldl_keeps (fun a : State => a.mem) derateGrp derateGrp_mem _ _).trans
        (foldl_keeps (fun a : State => a.mem) (derateCh temp) (fun a n => (derateCh_keeps temp a n).2) _ _)
    · have hgrp := foldl_keeps (fun a : State => a.grp) (derateCh temp) (fun a n => (derateCh_keeps temp a n).1)
        (List.range (nCh s)) (sensorTake 1 s.time.cyc s)
      obtain ⟨-, hg⟩ := derateGrps_only (List.range (nGroups s)) (s := (List.range (nCh s)).foldl (derateCh temp)
        (sensorTake 1 s.time.cyc s)) (by rw [hgrp]; exact tablesOk_grp hok)
      have h := hg g
      rw [gr_congr hgrp] at h
      exact h
  case drift =>
    refine ⟨_, if_pos (by simp [hrun, hdue, hn]), ?_⟩
    dsimp only
    split
    · next hd =>
      refine ⟨rfl, rfl, fun hok => ?_⟩
      refine (congrArg ChanSt.calDue (mget_mput_same _ (tablesOk_chan hok))).trans ?_
      rw [decide_eq_true hd, Bool.or_true]
    · next hd => exact ⟨rfl, rfl, fun _ => by rw [decide_eq_false hd, Bool.or_false]; rfl⟩
  case margin =>
    refine ⟨_, if_pos ?_, ?_⟩
    · simp only [Bool.and_eq_true]
      exact ⟨⟨⟨hrun, hmount⟩, htest⟩, marginDue hdue⟩
    dsimp only
    obtain ⟨hw, hv, hm⟩ := wornMarks_spec ((weak.filter (fun p => (weakRec s p).isSome)).map (·.1))
      { sensorTake 4 s.btn.opMin.toNat s with nv := { s.nv with
        moving := s.nv.moving ++ (weak.filter (fun p => (weakRec s p).isSome)).filterMap (weakRec s) } }
    refine ⟨hm, fun p hp r hr => ?_⟩
    have hin : p ∈ weak.filter (fun p => (weakRec s p).isSome) := List.mem_filter.mpr ⟨hp, by rw [hr]; rfl⟩
    refine ⟨hw _ (Or.inr (List.mem_map_of_mem hin)), ?_⟩
    have hmov : r ∈ s.nv.moving ++ (weak.filter (fun p => (weakRec s p).isSome)).filterMap (weakRec s) :=
      List.mem_append_right _ (List.mem_filterMap.mpr ⟨p, hin, hr⟩)
    exact hv ▸ hmov
  case cell =>
    refine ⟨_, if_pos (by simp [hrun, hdue]), ?_⟩
    rw [gradNotice_grd, gradNotice_mem]
    exact ⟨rfl, rfl, fun h => mem_gradNotice_pend (decide_eq_true h) _ _ _⟩
  case hot => exact ⟨_, if_pos (by simp [hrun, ht]), mem_gradNotice_pend rfl _ _ _, gradNotice_mem ..⟩
  case ring => exact ⟨_, if_pos (by simp [hrun, hdue]), rfl, fun i hi => mget_mtab _ _ hi⟩
  case tcxo =>
    refine ⟨_, if_pos (by simp [hrun, hdue]), ?_⟩
    rw [gradNotice_grd, gradNotice_mem]
    exact ⟨rfl, rfl, fun h => mem_gradNotice_pend (decide_eq_true h) _ _ _⟩

end Sys2Proof.Machine

/-! ## Interrupts, resets of the CP and the OEM partition -/

namespace Sys2Proof.Machine

/-! ### The claim (R267) -/

/-- A run of comparisons by priority in which the later source wins only with the higher one. -/
def betterOf (p : Nat → Nat) (b : Option Nat) (n : Nat) : Option Nat :=
  match b with
  | none => some n
  | some m => if p m < p n then some n else some m

theorem foldl_betterOf_stays (p : Nat → Nat) {n : Nat} (l : List Nat) (h : ∀ m ∈ l, ¬ p n < p m) :
    l.foldl (betterOf p) (some n) = some n := by
  induction l with
  | nil => rfl
  | cons m l ih =>
    rw [List.foldl_cons, show betterOf p (some n) m = some n from if_neg (h m List.mem_cons_self)]
    exact ih fun k hk => h k (List.mem_cons_of_mem _ hk)

/-- Before the best source every other one has a lower priority. -/
theorem foldl_betterOf_below (p : Nat → Nat) {c : Nat} (l : List Nat) (h : ∀ m ∈ l, p m < c) (b : Option Nat) (hb : ∀ m ∈ b, p m < c) :
    ∀ m ∈ l.foldl (betterOf p) b, p m < c := by
  induction l generalizing b with
  | nil => exact hb
  | cons k l ih =>
    rw [List.foldl_cons]
    refine ih (fun m hm => h m (List.mem_cons_of_mem _ hm)) _ fun m hm => ?_
    have hk := h k List.mem_cons_self
    unfold betterOf at hm
    split at hm
    · simp only [Option.mem_some_iff] at hm
      exact hm ▸ hk
    · next j =>
      split at hm
      · simp only [Option.mem_some_iff] at hm
        exact hm ▸ hk
      · simp only [Option.mem_some_iff] at hm
        exact hm ▸ hb j rfl

/-- In an ascending list the comparison finds the source of the highest priority, and among equals the lowest. -/
theorem foldl_betterOf_best (p : Nat → Nat) {n : Nat} {l : List Nat} (hs : l.Pairwise (· < ·)) (hn : n ∈ l)
    (h : ∀ m ∈ l, p m < p n ∨ p m = p n ∧ n ≤ m) : l.foldl (betterOf p) none = some n := by
  obtain ⟨l1, l2, rfl⟩ := List.append_of_mem hn
  obtain ⟨-, -, hlt⟩ := List.pairwise_append.mp hs
  have hlow : ∀ m ∈ l1, p m < p n := fun m hm => by
    have := hlt m hm n List.mem_cons_self
    rcases h m (List.mem_append_left _ hm) with h1 | ⟨-, h1⟩ <;> omega
  have hb := foldl_betterOf_below p l1 hlow none (by simp)
  have hstep : betterOf p (l1.foldl (betterOf p) none) n = some n := by
    cases hr : l1.foldl (betterOf p) none with
    | none => rfl
    | some m => exact if_pos (hb m (by rw [hr]; rfl))
  rw [List.foldl_append, List.foldl_cons, hstep]
  refine foldl_betterOf_stays p l2 fun m hm => ?_
  rcases h m (List.mem_append_right _ (List.mem_cons_of_mem _ hm)) with h1 | ⟨h1, -⟩ <;> omega

theorem claimed_eq (s : State) : claimed s = ((List.range 544).filter (claimable s)).foldl (betterOf (icPrio s)) none := by
  unfold claimed
  congr 1
  funext b n
  cases b <;> rfl

theorem claimed_best {s : State} {n : Nat} (hn : n < 544) (hc : claimable s n = true)
    (h : ∀ m < 544, claimable s m = true → icPrio s m < icPrio s n ∨ icPrio s m = icPrio s n ∧ n ≤ m) : claimed s = some n := by
  rw [claimed_eq]
  refine foldl_betterOf_best _ (List.pairwise_lt_range.filter _) (List.mem_filter.mpr ⟨List.mem_range.mpr hn, hc⟩) fun m hm => ?_
  obtain ⟨hr, hm⟩ := List.mem_filter.mp hm
  exact h m (List.mem_range.mp hr) hm

theorem claimed_none {s : State} (h : ∀ m < 544, claimable s m = false) : claimed s = none := by
  rw [claimed_eq, List.filter_eq_nil_iff.mpr fun m hm => by simp [h m (List.mem_range.mp hm)]]
  rfl

/-! ### Resets of the CP (R281) -/

theorem txAbort_mem (b e : Nat) (s : State) : (txAbort b e s).mem = s.mem := by
  unfold txAbort
  dsimp only
  split
  · exact fireIf_mem ..
  · rfl

/-- A reset of the CP. -/
theorem cpReset_spec (cause : Nat) (s : State) : (cpReset cause s).cp.down = true ∧ (cpReset cause s).cp.cause = BitVec.ofNat 4 cause ∧
    (cpReset cause s).cp.sessions = [] ∧ (cpReset cause s).ev.q0.length ≤ 512 ∧ (cpReset cause s).mon.held = none ∧
    (cpReset cause s).prot.frozen.getLsbD 1 = false ∧ (cpReset cause s).mem = s.mem := by
  unfold cpReset
  extract_lets s0 s1 msg
  have hmem : s1.mem = s.mem :=
    (foldl_keeps (fun a : State => a.mem) (fun a u => regPut a (aUART u + 0x1C) (force a (aUART u + 0x1C) &&& ~~~2)) (fun _ _ => rfl)
      (List.range 2) s0).trans (foldl_keeps (fun a : State => a.mem) _
        (fun a b => foldl_keeps (fun a : State => a.mem) (fun a e => txAbort b e a) (fun a e => txAbort_mem b e a) _ _) _ _)
  rw [settle_cp, settle_mon, settle_prot, settle_mem]
  refine ⟨rfl, rfl, rfl, ?_, rfl, ?_, hmem⟩
  · refine ((queuesOk_iff _).mp ((Keeps.settle (.refl false _)).queues ?_)).1
    exact (queuesOk_iff _).mpr ⟨Nat.zero_le _, Nat.zero_le _⟩
  · change (s1.prot.frozen &&& ~~~2).getLsbD 1 = false
    rw [BitVec.getLsbD_and]
    exact Bool.and_false _

theorem oemCheck_spec (s : State) : (oemCheck s).cp = { s.cp with oemValid := oemSig s s.upd.bank } ∧ (oemCheck s).mem = s.mem := by
  unfold oemCheck
  exact ⟨noticeIf_cp .., noticeIf_mem ..⟩

/-- Settles O47: claims by the highest priority, resets by what each leaves of the CP. -/
theorem cpAndInterrupts : Obligations.CpAndInterrupts := by
  unfold Obligations.CpAndInterrupts
  intro s
  refine ⟨fun n hmay hn hc hbest => ?claim, fun hmay hno => ?noclaim, fun src hmay hcond => ?complete, fun v hv => ⟨fun hmay => ?pop0,
    fun hmay => ?pop1⟩, ?down, fun hmay => (cpRow_of_rowMay rfl hmay _).trans (if_pos rfl), fun hdown => ?restart,
    fun hrun hval hstop => ?violation, fun hstop hlen hdue => ?again⟩
  case claim =>
    have hexec : exec .icClaim s = .next (readOut (wordOf n) { ringTake n s with ev := { s.ev with
        pend := s.ev.pend.filter (fun x => decide (x ≠ BitVec.ofNat 10 n)), run := BitVec.ofNat 10 n :: s.ev.run
        claim := BitVec.ofNat 10 n } }) := by
      refine (cpRow_of_rowMay rfl hmay _).trans ?_
      rw [claimed_best hn hc hbest]
    refine ⟨_, hexec, rfl, ?_, rfl, rfl, ?_⟩
    · change BitVec.ofNat 10 n ∉ s.ev.pend.filter (fun x => decide (x ≠ BitVec.ofNat 10 n))
      simp
    · change (ringTake n s).mem = s.mem
      unfold ringTake
      split <;> rfl
  case noclaim =>
    have hexec : exec .icClaim s = .next (readOut 0x3FF { s with ev := { s.ev with claim := 0x3FF } }) := by
      refine (cpRow_of_rowMay rfl hmay _).trans ?_
      rw [claimed_none hno]
    exact ⟨_, hexec, rfl, rfl, rfl⟩
  case complete =>
    refine (cpRow_of_rowMay rfl hmay _).trans ?_
    dsimp only
    rw [hcond, Bool.false_and, if_neg Bool.false_ne_true]
  case pop0 =>
    refine (cpRow_of_rowMay rfl hmay _).trans ?_
    rw [show fbit v 0 = true from hv]
    rfl
  case pop1 =>
    refine (cpRow_of_rowMay rfl hmay _).trans ?_
    rw [show fbit v 0 = true from hv]
    rfl
  case down =>
    have hfail : ∀ reason, ∃ t, cpwdFail reason s = t ∧ t.cp.down = true ∧ t.cp.cause = 1 ∧ t.cp.sessions = [] ∧ t.ev.q0.length ≤ 512 ∧
        t.mon.held = none ∧ t.prot.frozen.getLsbD 1 = false ∧ t.mem = s.mem := fun reason => by
      obtain ⟨h1, h2, h3, h4, h5, h6, h7⟩ := cpReset_spec 1 (containedFault 537 reason (wdCopied { s with wd := { s.wd with
        nCp := satN 0xFFFF (s.wd.nCp + 1) } }))
      exact ⟨_, rfl, h1, h2, h3, h4, h5, h6, h7.trans (containedFault_mem ..)⟩
    refine ⟨fun hpow hres hsl hwd hdue => ?_, fun v hmay hv => ?_, fun hrun => ⟨?_, ?_, ?_⟩⟩
    · obtain ⟨t, ht, h⟩ := hfail 0x14
      refine ⟨t, (if_pos ?_).trans (congrArg _ ht), h⟩
      simp only [Bool.and_eq_true, decide_eq_true_eq, Bool.not_eq_true']
      exact ⟨⟨⟨⟨hpow, hres⟩, hwd⟩, hsl⟩, hdue⟩
    · obtain ⟨t, ht, h⟩ := hfail 0x15
      exact ⟨t, (cpRow_of_rowMay rfl hmay _).trans ((if_neg hv).trans (congrArg _ ht)), h⟩
    · obtain ⟨h1, h2, h3, h4, h5, h6, h7⟩ := cpReset_spec 2 (containedFault 537 0x13 s)
      exact ⟨_, congrArg Host.Outcome.next (if_pos hrun), h1, h2, h3, h4, h5, h6, h7.trans (containedFault_mem ..)⟩
    · obtain ⟨h1, h2, h3, h4, h5, h6, h7⟩ := cpReset_spec 3 (containedFault 537 0x12 s)
      exact ⟨_, congrArg Host.Outcome.next (if_pos hrun), h1, h2, h3, h4, h5, h6, h7.trans (containedFault_mem ..)⟩
    · exact ⟨_, congrArg Host.Outcome.next (if_pos hrun), cpReset_spec 4 s⟩
  case restart =>
    refine ⟨_, if_pos hdown, ?_⟩
    rw [settle_cp, settle_mem, (oemCheck_spec _).1, (oemCheck_spec _).2]
    refine ⟨rfl, ?_, rfl⟩
    dsimp only
    unfold oemSig
    split <;> split <;> rfl
  case violation =>
    refine ⟨_, if_pos (by simp [hrun, hval, hstop]), ?_⟩
    rw [notice_cp, notice_mem]
    exact ⟨rfl, rfl, rfl⟩
  case again => exact if_pos (by simp [hstop, hlen, cycSec, cycUs, hdue])

end Sys2Proof.Machine

/-! ## Ethernet, USB and service access -/

namespace Sys2Proof.Machine

/-- The sources of an Ethernet port exist in every variant. -/
theorem srcPresent_eth (s : State) (e : Bool) {k : Nat} (hk : k < 4) : srcPresent s (416 + k + 4 * b2n e) = true := by
  have he : b2n e ≤ 1 := by cases e <;> decide
  simp only [srcPresent, show ¬ 416 + k + 4 * b2n e < 256 by omega, show ¬ 416 + k + 4 * b2n e < 400 by omega,
    show ¬ 416 + k + 4 * b2n e < 416 by omega, show 416 + k + 4 * b2n e < 432 by omega, if_true, if_false]

theorem mem_fire_eth (s : State) (st : Nat) (e : Bool) {k : Nat} (hk : k < 4) :
    BitVec.ofNat 10 (416 + k + 4 * b2n e) ∈ (fire (416 + k + 4 * b2n e) st s).ev.pend := mem_fire_pend (srcPresent_eth s e hk) st

/-- A failed token check leaves the sessions. -/
theorem tokenFail_spec (i : Nat) (s : State) : (tokenFail i s).cp.sessions = s.cp.sessions ∧ (tokenFail i s).mem = s.mem := by
  unfold tokenFail
  dsimp only
  rw [noticeIf_cp, noticeIf_mem]
  exact ⟨rfl, rfl⟩

/-- A frame that a port takes in. -/
theorem ethernetFrame_live {s : State} {e : Bool} (len : Nat) (tagged fcs : Bool) (hon : ethOn s e = true) (hrun : cpRuns s = true)
    (hfr : s.prot.frozen.getLsbD 4 = false) :
    exec (.ethernetFrame e len tagged fcs) s =
      let i := b2n e
      let sec := s.time.cyc / cycSec 1
      let n := if s.cp.ethSec = sec then mget (fun _ => 0) s.cp.ethCount i else 0
      let base := if s.cp.ethSec = sec then s.cp.ethCount else []
      if !fcs then .next (fire (419 + 4 * i) s.time.ns s)
      else if tagged || decide (1518 < len) then .next s
      else if 20000 ≤ n then
        .next (fire (419 + 4 * i) s.time.ns { s with cp := { s.cp with
          ethDiscards := mput (fun _ => 0) s.cp.ethDiscards i (mget (fun _ => 0) s.cp.ethDiscards i + 1) } })
      else
        .next (fire (416 + 4 * i) s.time.ns { s with cp := { s.cp with
          ethRing := mput (fun _ => 0) s.cp.ethRing i (mget (fun _ => 0) s.cp.ethRing i + 1)
          ethSec := sec, ethCount := mput (fun _ => 0) base i (n + 1) } }) :=
  if_neg (by simp [hon, hrun, show frozen s 4 = false from hfr])

/-- Settles O49: frames, links and sessions by the cases of each. -/
theorem portsAndSessions : Obligations.PortsAndSessions := by
  unfold Obligations.PortsAndSessions
  intro s
  refine ⟨fun e len hon hrun hfr => ?frames, fun e up hne => ?link, fun hsl => ?usbOn, rfl, fun hpow hrec hini => ?loader,
    fun i hopen => ⟨_, _, if_pos hopen, rfl, rfl, rfl, rfl⟩, fun i x m hx hlive => ?token, fun i c hl hc => ?lock⟩
  case frames =>
    refine ⟨fun tagged => ⟨_, ethernetFrame_live len tagged false hon hrun hfr, mem_fire_eth _ _ e (k := 3) (by decide), rfl, rfl⟩,
      fun tagged h => (ethernetFrame_live len tagged true hon hrun hfr).trans ?_, fun hlen => ⟨fun hsec hmany => ?_, fun hfew => ?_⟩⟩
    · refine (if_neg (by decide)).trans (if_pos ?_)
      simpa using h
    · have hn : 20000 ≤ (if s.cp.ethSec = s.time.cyc / cycSec 1 then mget (fun _ => 0) s.cp.ethCount (b2n e) else 0) := by
        rw [if_pos (by simpa [cycSec, cycUs] using hsec)]
        exact hmany
      exact ⟨_, (ethernetFrame_live len false true hon hrun hfr).trans ((if_neg (by decide)).trans ((if_neg (by simpa using hlen)).trans
        (if_pos hn))), mem_fire_eth _ _ e (k := 3) (by decide), rfl⟩
    · have hn : ¬ 20000 ≤ (if s.cp.ethSec = s.time.cyc / cycSec 1 then mget (fun _ => 0) s.cp.ethCount (b2n e) else 0) := by
        have hsec : cycSec 1 = 200000000 := rfl
        rw [hsec]
        split
        · next h => exact fun hge => hfew.elim (fun hne => hne h) (fun hlt => absurd hlt (Nat.not_lt.mpr hge))
        · decide
      exact ⟨_, (ethernetFrame_live len false true hon hrun hfr).trans ((if_neg (by decide)).trans ((if_neg (by simpa using hlen)).trans
        (if_neg hn))), mem_fire_eth _ _ e (k := 0) (by decide), rfl, rfl, rfl⟩
  case link =>
    refine ⟨_, if_neg hne, ?_, mem_fire_eth _ _ e (k := 2) (by decide), ?_, ?_⟩
    · cases up <;> cases e <;> simp [fire, b2n]
    · cases up <;> rfl
    · cases up <;> rfl
  case usbOn =>
    refine congrArg Host.Outcome.next ?_
    dsimp only
    split
    · exact if_neg fun h => hsl h.1
    · rfl
  case loader =>
    refine ⟨_, if_pos ?_, rfl, rfl, rfl⟩
    simp only [Bool.and_eq_true, decide_eq_true_eq, and_true]
    exact ⟨⟨hpow, hrec⟩, hini⟩
  case token =>
    refine ⟨fun hn hs hm h1 h2 hr => ?_, fun hbad => ⟨tokenFail i.toNat s, ?_, tokenFail_spec _ _⟩, fun c hu hc => ?_⟩
    · change (match session s i.toNat with | some x => _ | none => _) = _
      rw [hx]
      refine (if_neg (by simp [hlive])).trans ((if_pos ?_).trans ?_)
      · simp [hn, hs, hm, h1, h2, hr]
      · rw [show cycSec (60 * m.validMin.toNat) = 12000000000 * m.validMin.toNat by simp only [cycSec, cycUs]; omega]
    · change (match session s i.toNat with | some x => _ | none => _) = _
      rw [hx]
      refine (if_neg (by simp [hlive])).trans (if_neg ?_)
      simp only [Bool.and_eq_true, decide_eq_true_eq]
      rintro ⟨⟨⟨⟨⟨h1, h2⟩, h3⟩, -⟩, -⟩, -⟩
      rcases hbad with h | h | h
      · exact h h1
      · exact absurd (h2.symm.trans h) (by decide)
      · exact absurd (h3.symm.trans h) (by decide)
    · change (match session s i.toNat with | some x => _ | none => _) = _
      rw [hx]
      exact if_pos (by simp [hu, hc])
  case lock =>
    change (match mget (fun _ => none) s.cp.tokLock i.toNat with | some t => _ | none => _) = _
    rw [hl]
    exact if_pos hc

end Sys2Proof.Machine

/-! ## What the record store's operations leave unchanged -/

namespace Sys2Proof.Machine

/-- The NV controller, the Bittern log, the events and the marks of worn sectors may change. -/
def Stores (s t : State) : Prop :=
  ∃ n b e i w, t = { s with nv := n, btn := b, ev := e, img := { s.img with fired := i }, grd := { s.grd with wornSec := w } }

protected theorem Stores.refl (s : State) : Stores s s := ⟨_, _, _, _, _, rfl⟩

protected theorem Stores.trans {s t u : State} (h : Stores s t) (k : Stores t u) : Stores s u := by
  obtain ⟨n, b, e, i, w, rfl⟩ := h
  obtain ⟨n2, b2, e2, i2, w2, rfl⟩ := k
  exact ⟨n2, b2, e2, i2, w2, rfl⟩

theorem Stores.before {s t u : State} (k : Stores t u) (h : Stores s t) : Stores s u := h.trans k

theorem Reports.stores {s t : State} (h : Reports s t) : Stores s t := by
  obtain ⟨b, n, e, i, rfl⟩ := h
  exact ⟨n, b, e, i, s.grd.wornSec, rfl⟩

theorem Stores.ite {s a b : State} {p : Prop} [Decidable p] (ha : Stores s a) (hb : Stores s b) : Stores s (if p then a else b) := by
  split
  exacts [ha, hb]

theorem Stores.foldl {β : Type} (f : State → β → State) (hf : ∀ a b, Stores a (f a b)) (l : List β) (s : State) :
    Stores s (l.foldl f s) := by
  induction l generalizing s with
  | nil => exact .refl s
  | cons b l ih => exact (hf s b).trans (ih _)

/-- A change of the NV controller's own state. -/
theorem Stores.nv (s : State) (n : NvSt) : Stores s { s with nv := n } := ⟨n, s.btn, s.ev, s.img.fired, s.grd.wornSec, rfl⟩

theorem stores_secPut (s : State) (i : Nat) (x : Sector) : Stores s (secPut s i x) :=
  .nv s { s.nv with sectors := mput (fun _ => {}) s.nv.sectors i x }

theorem stores_wornMark (s : State) (i : Nat) : Stores s (wornMark s i) :=
  (reports_gradNotice _ _ _ _).stores.before ⟨s.nv, s.btn, s.ev, s.img.fired, addNew i s.grd.wornSec, rfl⟩

theorem stores_secErased (i n : Nat) (s : State) : Stores s (secErased i n s) :=
  (Stores.ite (stores_wornMark _ _) (.refl _)).before (stores_secPut s i _)

theorem stores_eraseCut (s : State) : Stores s (eraseCut s) := by
  unfold eraseCut
  split
  · exact (Stores.nv _ _).before (stores_secPut s _ _)
  · exact .refl s

theorem stores_openSec (role : Nat) (h : Bool) (s : State) : Stores s (openSec role h s) := by
  unfold openSec
  refine .ite ?_ (.refl s)
  split
  · exact (Stores.nv _ _).before (stores_secPut s _ _)
  · exact .refl s

theorem stores_headAppend (h : Bool) (x : Slot) (s : State) : Stores s (headAppend h x s) := by
  unfold headAppend
  dsimp only
  have h1 : Stores s (if headFree s then s else openSec 1 h s) := .ite (.refl s) (stores_openSec _ _ _)
  split
  · exact .ite h1 (h1.trans (stores_secPut _ _ _))
  · exact h1

theorem stores_twinAppend (x : Slot) (s : State) : Stores s (twinAppend x s) := by
  unfold twinAppend
  split
  · exact .ite (.refl s) (stores_secPut _ _ _)
  · exact .refl s

theorem stores_reclaim (s : State) : Stores s (reclaim s) := by
  unfold reclaim
  split
  · next i _ =>
    have h1 := Stores.foldl (fun a r => headAppend true (some { r with moved := true }) a) (fun a r => stores_headAppend _ _ a)
      (keptWinners s i) s
    exact .ite (h1.trans (stores_secPut _ _ _)) ((Stores.nv _ _).before (h1.trans (stores_secPut _ _ _)))
  · exact .refl s

theorem stores_openHead (s : State) : Stores s (openHead s) := .ite ((stores_openSec _ _ _).trans (stores_reclaim _)) (.refl s)

theorem stores_openTwin (s : State) : Stores s (openTwin s) :=
  .ite (.ite ((stores_openSec _ _ _).trans (stores_reclaim _)) (stores_openHead s)) (.refl s)

theorem stores_twinFollow (s : State) : Stores s (twinFollow s) := .ite (.ite (stores_openTwin s) (.refl s)) (.nv s _)

theorem stores_headReady (s : State) : Stores s (headReady s) := .ite (.refl s) (stores_openHead s)

theorem stores_twinReady (s : State) : Stores s (twinReady s) := by
  unfold twinReady
  split
  · exact .ite (stores_openTwin s) (.refl s)
  · exact .refl s

theorem stores_logSaved (k : Nat) (s : State) : Stores s (logSaved k s) := ⟨s.nv, (logSaved k s).btn, s.ev, s.img.fired, s.grd.wornSec, rfl⟩

theorem stores_finishRec (s : State) : Stores s (finishRec s) := by
  unfold finishRec
  split
  · next r twin _ =>
    refine (Stores.nv _ _).before (.ite ?_ ((stores_logSaved _ _).before (stores_headAppend _ _ _)))
    exact (stores_twinAppend _ _).before (.ite (.refl s) (stores_openSec _ _ _))
  · exact .refl s

theorem stores_holdWrite (s : State) (p : NvReq × Bool) : Stores s (holdWrite s p) :=
  .ite (.refl s) ((stores_logSaved _ _).before ((Stores.nv _ _).before (stores_headAppend _ _ _)))

theorem stores_wdCopied (s : State) : Stores s (wdCopied s) := ⟨s.nv, (wdCopied s).btn, s.ev, s.img.fired, s.grd.wornSec, rfl⟩

theorem stores_holdUp (s : State) : Stores s (holdUp s) := by
  unfold holdUp
  extract_lets _ s1 s2 s3
  have h1 : Stores s s1 := (stores_eraseCut _).before (.nv s _)
  have h3 : Stores s s3 := ((h1.trans (stores_finishRec _)).trans (stores_wdCopied _)).trans (.foldl _ stores_holdWrite _ _)
  exact .ite h1 (h3.trans (.nv _ _))

end Sys2Proof.Machine

/-! ## Protection, watchdogs, the clock monitor and resets -/

namespace Sys2Proof.Machine

section
variable {s : State}

/-! ### A master is frozen (R298) -/

/-- The protection unit after a violation. -/
def violated (m : Nat) (a : Word) (wr : Bool) (p : ProtSt) : ProtSt :=
  { p with
    frozen := p.frozen ||| (1#7 <<< m)
    violAddr := mput (fun _ => 0) p.violAddr m a
    violWrite := if wr then p.violWrite ||| (1#7 <<< m) else p.violWrite &&& ~~~(1#7 <<< m)
    violCount := mput (fun _ => 0) p.violCount m (satN 255 (mget (fun _ => 0) p.violCount m + 1))
    violValid := p.violValid ||| (1#7 <<< m) }

theorem freezeMaster_prot (m : Nat) (a : Word) (wr : Bool) (s : State) : (freezeMaster m a wr s).prot = violated m a wr s.prot := by
  unfold freezeMaster
  dsimp only
  split
  · obtain ⟨_, _, _, _, _, _, _, _, _, _, _, _, _, _, h⟩ := reacts_fatalFault 540 0x30
      (fire 540 s.time.ns { s with prot := violated m a wr s.prot })
    exact (congrArg State.prot h).trans rfl
  · obtain ⟨_, _, _, _, _, _, _, _, _, _, _, _, _, _, h⟩ := reacts_containedFault 540 (0x30 + m)
      (fire 540 s.time.ns { s with prot := violated m a wr s.prot })
    exact (congrArg State.prot h).trans rfl

theorem freezeMaster_pend (m : Nat) (a : Word) (wr : Bool) (s : State) : (540 : BitVec 10) ∈ (freezeMaster m a wr s).ev.pend := by
  unfold freezeMaster
  dsimp only
  split
  · exact pends_fatalFault _ _ _ _ (mem_fire_pend rfl _)
  · exact pends_containedFault _ _ _ _ (mem_fire_pend rfl _)

theorem violated_bits {m : Nat} (hm : m < 7) (a : Word) (wr : Bool) (p : ProtSt) :
    (violated m a wr p).frozen.getLsbD m = true ∧ (violated m a wr p).violWrite.getLsbD m = wr ∧
    (violated m a wr p).violValid.getLsbD m = true := by
  have hbit : (1#7 <<< m).getLsbD m = true := by simp [hm]
  refine ⟨?_, ?_, ?_⟩
  · simp only [violated, BitVec.getLsbD_or, hbit, Bool.or_true]
  · cases wr
    · simp only [violated, Bool.false_eq_true, if_false, BitVec.getLsbD_and, BitVec.getLsbD_not, hbit, Bool.not_true, Bool.and_false]
    · simp only [violated, if_true, BitVec.getLsbD_or, hbit, Bool.or_true]
  · simp only [violated, BitVec.getLsbD_or, hbit, Bool.or_true]

/-- A CP access to an unassigned address is no violation (R398). -/
theorem permitted_cp_unassigned {a : Nat} {wr : Bool} (h : permitted s 1 a wr = false) : assigned a = true := by
  cases ha : assigned a
  · unfold permitted at h
    rw [if_neg (by decide)] at h
    split at h
    · exact absurd h (by decide)
    · rw [if_neg (fun hc => hc.1 rfl), if_pos (by simp [ha])] at h
      exact absurd h (by decide)
  · rfl

/-! ### Resets (R305, R351) -/

theorem records_updTo (p : UpdPhase) (r : Nat) (s : State) : Records s (updTo p r s) := by
  unfold updTo updNote
  split
  · exact ⟨_, _, _, _, _, _, rfl⟩
  · refine .trans ?_ (reports_fire _ _ _).records
    exact .trans ⟨_, _, _, _, _, _, rfl⟩ (reports_notice _ _ _ _ _).records

theorem records_fallCall (r : Nat) (s : State) : Records s (fallCall r s) := by
  unfold fallCall
  split
  · exact .trans ⟨_, _, _, _, _, _, rfl⟩ (records_updTo _ _ _)
  · exact .refl s

theorem records_fatalFall (c : BitVec 4) (s : State) : Records s (fatalFall c s) := by
  unfold fatalFall
  split
  · exact records_fallCall _ _
  · exact .refl s

/-- A reset of the module leaves it in INIT with its cause, its counts of resets, and the words that the reset keeps. -/
theorem resetNow_spec (c : BitVec 4) (s : State) :
    let t := resetNow c s
    t.pair.mstate = .init ∧ t.sys.cause = c ∧ t.sys.pendReset = none ∧ t.sys.inReset = false ∧
    t.wd.nBackup = (if c = 3 then min 65535 (s.wd.nBackup + 1) else s.wd.nBackup) ∧
    t.wd.nFatal = (if c = 4 then min 65535 (s.wd.nFatal + 1) else s.wd.nFatal) ∧ t.pair.tokenOut = false ∧ t.tick.on = false ∧
    t.le.running = false ∧ t.mem.words = s.mem.words.filter (fun p => keptWord p.1) := by
  intro t
  generalize hx : eraseCut (finishRec (fatalCount c s)) = x
  have hst : Stores (fatalCount c s) x := hx ▸ (stores_finishRec _).trans (stores_eraseCut _)
  obtain ⟨n, b, e, i, w, hxs⟩ := hst
  have hmem : x.mem = s.mem := by
    rw [hxs]
    unfold fatalCount
    split
    · rfl
    · split <;> rfl
  have hB : x.wd.nBackup = if c = 3 then min 65535 (s.wd.nBackup + 1) else s.wd.nBackup := by
    rw [hxs]
    unfold fatalCount
    split
    · exact satN_eq_min _ _
    · split <;> rfl
  have hF : x.wd.nFatal = if c = 4 then min 65535 (s.wd.nFatal + 1) else s.wd.nFatal := by
    rw [hxs]
    unfold fatalCount
    split
    · next h3 => rw [if_neg (by rw [h3]; decide)]; rfl
    · split
      · exact satN_eq_min _ _
      · rfl
  generalize hy : afterReset (fatalCount c s) = y
  obtain ⟨h1, h2, h3, h4, h5, h6, h7, h8, h9⟩ : y.pair.mstate = .init ∧ y.sys.pendReset = none ∧ y.sys.inReset = false ∧
      y.wd.nBackup = x.wd.nBackup ∧ y.wd.nFatal = x.wd.nFatal ∧ y.pair.tokenOut = false ∧ y.tick.on = false ∧
      y.le.running = false ∧ y.mem.words = x.mem.words.filter (fun p => keptWord p.1) := by
    rw [← hy, afterReset, hx]
    exact ⟨rfl, rfl, rfl, rfl, rfl, rfl, rfl, rfl, rfl⟩
  have ht : ∃ k, t = settle (fatalFall c (noticeIf k 0x08 noSrc 0 (notice 0x04 noSrc 0 (wordOf c.toNat) { y with
      sys := { y.sys with cause := c, wake := s.sys.wake && decide (c = 5) && decide (s.pair.mstate = .sleep) } }).slc.hardoff
      (notice 0x04 noSrc 0 (wordOf c.toNat) { y with
      sys := { y.sys with cause := c, wake := s.sys.wake && decide (c = 5) && decide (s.pair.mstate = .sleep) } }))) := by
    rw [← hy]
    exact ⟨_, rfl⟩
  obtain ⟨k, ht⟩ := ht
  generalize hz : ({ y with
    sys := { y.sys with cause := c, wake := s.sys.wake && decide (c = 5) && decide (s.pair.mstate = .sleep) } } : State) = z at ht
  have hrec := ((reports_notice 0x04 noSrc 0 (wordOf c.toNat) z).records.trans
    (reports_noticeIf k 0x08 noSrc 0 (notice 0x04 noSrc 0 (wordOf c.toNat) z).slc.hardoff _).records).trans (records_fatalFall c _)
  rw [ht]
  generalize fatalFall c _ = u at hrec ⊢
  obtain ⟨f, up, b2, n2, e2, i2, hu⟩ := hrec
  obtain ⟨_, _, _, _, _, _, _, hs⟩ := settles_settle u
  rw [hs, hu, ← hz]
  exact ⟨h1, rfl, h2, h3, h4.trans hB, h5.trans hF, h6, h7, h8, by rw [← hmem]; exact h9⟩

end

end Sys2Proof.Machine

/-! ## Faults, watchdogs and the clock monitor -/

namespace Sys2Proof.Machine

/-- The release check of a module that did not hand over changes RELEASED and the reset that is pending alone. -/
theorem releaseCheck_eq {s : State} (h : s.pair.giveKind ≠ 3) :
    ∃ r p, releaseCheck s = { s with pair := { s.pair with released := r }, sys := { s.sys with pendReset := p } } := by
  unfold releaseCheck
  dsimp only
  split
  · split
    · next hc => exact absurd hc.1 h
    · exact ⟨_, _, rfl⟩
  · exact ⟨_, _, rfl⟩

/-- The FCU's self path starts every group and leaves the module in SAFE (R294). -/
theorem fcuParity_spec {s : State} {w : BitVec 6} (hw : w.toNat < 34) (hpow : s.sys.powered = true) (hres : s.sys.inReset = false)
    (hsl : s.pair.mstate ≠ .sleep) (hbad : s.fcu.parityBad.getLsbD w.toNat = false) :
    ∃ t, exec (.fcuParity w) s = .next t ∧
      t.pair.mstate = .safe ∧ t.pair.tokenOut = false ∧ t.fcu.selfBit = true ∧ t.fcu.selfReg = w ∧
      t.le.running = false ∧ t.slc.lastCause = 3 ∧ t.mem = s.mem ∧
      (s.pair.role = .active → s.pair.mstate = .run → t.pair.giveKind = 4) := by
  have hover : (selfOverrides s).mem = s.mem ∧ (selfOverrides s).pair.role = s.pair.role := by
    unfold selfOverrides
    split
    · exact ⟨rfl, rfl⟩
    · dsimp only
      split <;> exact ⟨rfl, rfl⟩
  have hexec : exec (.fcuParity w) s = _ := if_pos ⟨hw, hpow, by rw [hres]; decide, hsl, hbad⟩
  obtain ⟨f, u, b, n, e, i, hr⟩ := records_fcuRecord 541 0x26 3 (selfOverrides s)
  obtain ⟨⟨g, q, j, hs1⟩, -⟩ := slcTriggerAll_spec 3 (selfMark w.toNat (fcuRecord 541 0x26 3 (selfOverrides s)))
  generalize slcTriggerAll 3 (selfMark w.toNat (fcuRecord 541 0x26 3 (selfOverrides s))) = s1 at hs1 hexec
  obtain ⟨k1, k2, k3, k4, k5⟩ : s1.pair.tokenOut = false ∧ s1.fcu.selfBit = true ∧ s1.fcu.selfReg = w ∧ s1.slc.lastCause = 3 ∧
      s1.mem = s.mem := by
    rw [hs1]
    refine ⟨rfl, rfl, ?_, rfl, ?_⟩
    · exact (BitVec.ofNat_toNat 6 w).trans (BitVec.setWidth_eq w)
    · rw [hr]
      exact hover.1
  refine ⟨_, hexec, ?_⟩
  dsimp only
  by_cases ha : s.pair.role = .active ∧ inRun s = true
  · rw [if_pos ha]
    obtain ⟨e1, q1, i1, a1, b1, n1, u1, hg⟩ := giveUpOp_eq 4 541 0x26 s1
    generalize giveUpOp 4 541 0x26 s1 = s2 at hg ⊢
    obtain ⟨r, p, hrel⟩ := releaseCheck_eq (s := { s1 with
      le := stoppedLe s1, wd := { s1.wd with twd := [], twdDue := 0 }, edit := e1, ev := q1, img := { s1.img with fired := i1 }
      pair := { s1.pair with
        lane0 := a1, lane1 := b1, txSeq := n1, unacked := u1, mstate := if 4 = 4 then .safe else .hold
        tokenOut := false, ship := none, closed := none, takenSeen := false
        giveSrc := BitVec.ofNat 10 541, giveReason := BitVec.ofNat 6 0x26, giveKind := BitVec.ofNat 4 4
        giveTick := some s1.tick.num, handTries := none } }) (show (BitVec.ofNat 4 4 : BitVec 4) ≠ 3 by decide)
    rw [hrel] at hg
    obtain ⟨_, _, _, _, _, _, _, hs⟩ := settles_settle { s2 with
      pair := { s2.pair with mstate := .safe }, le := { s2.le with uncommitted := s.le.uncommitted || inRun s } }
    rw [hs, hg]
    exact ⟨rfl, rfl, k2, k3, rfl, k4, k5, fun _ _ => rfl⟩
  · rw [if_neg ha]
    obtain ⟨e1, q1, i1, hg⟩ := stopScan_eq s1
    generalize stopScan s1 = s2 at hg ⊢
    obtain ⟨_, _, _, _, _, _, _, hs⟩ := settles_settle { s2 with
      pair := { s2.pair with mstate := .safe }, le := { s2.le with uncommitted := s.le.uncommitted || inRun s } }
    rw [hs, hg]
    exact ⟨rfl, k1, k2, k3, rfl, k4, k5, fun hr hm => absurd ⟨hr, by simp [inRun, hm]⟩ ha⟩

/-- An expiry marks its class, counts and fires its source, whatever the reaction to the fault is (R301). -/
theorem twdExpire_spec {s : State} {k : Nat} (hk : k < 8) (reason : Nat) (h : s.wd.expired.getLsbD k = false) :
    (twdExpire k reason s).wd.expired.getLsbD k = true ∧ (twdExpire k reason s).wd.nTask = min 65535 (s.wd.nTask + 1) ∧
    BitVec.ofNat 10 (480 + k) ∈ (twdExpire k reason s).ev.pend ∧ (twdExpire k reason s).mem = s.mem := by
  unfold twdExpire
  dsimp only
  rw [h]
  generalize hx : fireIf (!false) (480 + k) _ = x
  have hpend : BitVec.ofNat 10 (480 + k) ∈ x.ev.pend := by
    rw [← hx]
    refine mem_fireIf_pend ?_ rfl
    simp only [srcPresent, show ¬ 480 + k < 256 by omega, show ¬ 480 + k < 400 by omega, show ¬ 480 + k < 416 by omega,
      show ¬ 480 + k < 432 by omega, show ¬ 480 + k < 440 by omega, show ¬ 480 + k < 472 by omega, show ¬ 480 + k < 478 by omega,
      show ¬ 480 + k < 480 by omega, show 480 + k < 497 by omega, show ¬ 480 + k = 491 by omega, if_true, if_false]
  have hwd : x.wd.expired = s.wd.expired ||| (1#8 <<< k) ∧ x.wd.nTask = satN 0xFFFF (s.wd.nTask + 1) := by
    rw [← hx, fireIf_wd]
    exact ⟨rfl, rfl⟩
  have hmem : x.mem = s.mem := by
    rw [← hx, fireIf_mem]
    rfl
  obtain ⟨_, _, _, _, _, _, _, _, _, _, _, _, _, _, hr⟩ := reacts_containedFault (480 + k) reason x
  refine ⟨?_, ?_, pends_containedFault _ _ _ _ hpend, (containedFault_mem ..).trans hmem⟩
  · rw [hr]
    dsimp only
    rw [hwd.1, BitVec.getLsbD_or]
    simp [hk]
  · rw [hr]
    exact hwd.2.trans (satN_eq_min _ _)

theorem clkBad_eq (dev : Int) : clkBad dev = decide (200 < dev.natAbs) := by
  rw [clkBad, ← Bool.decide_or]
  exact decide_eq_decide.mpr (by omega)

/-- Settles O50: violations by what freezes, each watchdog and clock by its case, the FCU's self path by its own rule. -/
theorem faultsAndWatchdogs : Obligations.FaultsAndWatchdogs := by
  unfold Obligations.FaultsAndWatchdogs
  intro s
  refine ⟨fun addr hrun hfr => ⟨fun wr hun => ?busErr, fun has hbusy => ?busyRead⟩, fun m addr wr hm h1 hfr hperm hrun => ?violation,
    fun v hmay hkey => (cpRow_of_rowMay rfl hmay _).trans (if_neg hkey), fun v hmay hkey h2 => ?clear,
    fun k hrun hen hst hcount hpos hexp => ?task, fun hran hno => ⟨fun hsl => ?backup, fun hsl hbit => ?wake⟩,
    fun hran hon hhalf hsl hini => ?half, fun dev hdev hpow hsl hbf => ?devOk, fun dev hdev hpow hres hsl hbf => ?devBad,
    fun c hc hpow hres hsup hwait => ?clkWait, fun c hc hpow hres hsup hdue => ?clkDue, fun bad hpow hres hsl hbf => ?backupClk,
    fun w hw hpow hres hsl hbad => fcuParity_spec hw hpow hres hsl hbad,
    fun hmay => cpRow_of_rowMay rfl hmay _, fun hmay => cpRow_of_rowMay rfl hmay _⟩
  case busErr => exact if_pos ⟨rfl, hrun, hfr, hun⟩
  case busyRead =>
    refine (if_neg ?_).trans (if_pos ⟨rfl, hrun, hfr, rfl, hbusy⟩)
    rintro ⟨-, -, -, h⟩
    exact absurd (has.symm.trans h) (by decide)
  case violation =>
    have hm7 : m.toNat < 7 := by
      have h := m.isLt
      have hne : m.toNat ≠ 7 := fun h7 => hm (BitVec.eq_of_toNat_eq h7)
      omega
    have hm1 : m.toNat = 1 → m = 1 := fun h => BitVec.eq_of_toNat_eq h
    have hm0 : m.toNat = 0 → m = 0 := fun h => BitVec.eq_of_toNat_eq h
    refine ⟨_, (if_neg ?_).trans ((if_neg ?_).trans (if_pos ⟨hm7, hfr, hperm, hrun.imp (fun h h0 => h (hm0 h0)) id⟩)), ?_⟩
    · rintro ⟨h, -, -, hun⟩
      rw [h] at hperm
      exact absurd ((permitted_cp_unassigned hperm).symm.trans hun) (by decide)
    · rintro ⟨h, -, -, hw, hb⟩
      rcases h1 (hm1 h) with h2 | h2
      · exact absurd (h2.symm.trans hw) (by decide)
      · exact absurd (h2.symm.trans hb) (by decide)
    · rw [settle_prot, settle_mem, freezeMaster_prot, freezeMaster_mem]
      obtain ⟨b1, b2, b3⟩ := violated_bits hm7 addr wr s.prot
      refine ⟨b1, rfl, b2, b3, pends_settle _ _ (freezeMaster_pend ..), rfl, fun h0 hsolo hrun2 => ?_⟩
      have hout := fatalFault_outcome 540 0x30 (fire 540 s.time.ns { s with prot := violated m.toNat addr wr s.prot })
      obtain ⟨-, -, -, hsafe, -⟩ := hout
      have hfm : freezeMaster m.toNat addr wr s = fatalFault 540 0x30 (fire 540 s.time.ns { s with prot := violated m.toNat addr wr s.prot }) := by
        unfold freezeMaster
        rw [if_pos (by rw [h0]; rfl)]
        rfl
      rw [hfm]
      exact (hsafe hsolo (Or.inl hrun2)).1
  case clear =>
    refine (cpRow_of_rowMay rfl hmay _).trans ((if_pos hkey).trans (congrArg Host.Outcome.next (if_neg ?_)))
    have hbit : (v.truncate 7 &&& 0x7E : BitVec 7).getLsbD 2 = false := by
      rw [BitVec.getLsbD_and, show (v.truncate 7).getLsbD 2 = v.getLsbD 2 by simp, h2, Bool.false_and]
    rw [hbit, Bool.and_false]
    decide
  case task =>
    obtain ⟨e1, e2, e3, e4⟩ := twdExpire_spec k.isLt 0x1A hexp
    refine ⟨_, if_pos ?_, ?_⟩
    · simp only [Bool.and_eq_true, decide_eq_true_eq, Bool.not_eq_true']
      exact ⟨⟨⟨⟨⟨hrun, hen⟩, hst⟩, hcount⟩, hpos⟩, hexp⟩
    · rw [settle_wd, settle_mem]
      exact ⟨e1, e2, pends_settle _ _ e3, e4⟩
  case backup =>
    refine (if_neg (by simp [hran])).trans ((if_neg hsl).trans ?_)
    simp [callReset, hno]
  case wake =>
    refine (if_neg (by simp [hran])).trans ((if_pos hsl).trans (congrArg Host.Outcome.next ((if_pos hbit).trans ?_)))
    simp [callReset, hno]
  case half =>
    refine ⟨_, if_pos ?_, rfl, mem_fire_pend rfl _, rfl⟩
    simp only [Bool.and_eq_true, decide_eq_true_eq, Bool.not_eq_true']
    exact ⟨⟨⟨⟨hran, hon⟩, hhalf⟩, hsl⟩, hini⟩
  case devOk =>
    refine (if_neg (by simp [hpow, hsl, hbf])).trans (if_pos ?_)
    rw [clkBad_eq, decide_eq_false (by omega)]
    rfl
  case devBad =>
    have hexec : exec (.clockFail dev) s = _ := (if_neg (by simp [hpow, hsl, hbf])).trans ((if_neg (by
      rw [clkBad_eq, decide_eq_true hdev]; decide)).trans (if_neg (by rw [hres]; decide)))
    obtain ⟨f, u, b, n, e, i, hr⟩ := records_fcuRecord 496 0x24 2 s
    obtain ⟨e1, q1, i1, hs⟩ := stopScan_eq (fcuRecord 496 0x24 2 s)
    refine ⟨_, hexec, ?_⟩
    rw [hs, hr]
    exact ⟨rfl, rfl, rfl, rfl, rfl, satN_eq_min _ _, rfl, rfl, rfl⟩
  case clkWait =>
    refine (if_pos (by rw [hc]; rfl)).trans (congrArg Host.Outcome.next ?_)
    unfold clockRestart
    dsimp only
    rw [hc]
    exact if_neg (by simp [cycMs, Nat.not_le.mpr hwait])
  case clkDue =>
    have hgo : ∃ x, exec .clockRecovery s = .next (resetNow 4 x) ∧ x.wd.nFatal = s.wd.nFatal ∧ x.mem = s.mem := by
      refine ⟨{ s with
        wd := { s.wd with clkBad := false, clkFailCyc := none, clkRestart := true }
        grp := mtab (fun _ => ({} : GrpSt)) (nGroups s) (fun g => { gr s g with hardOff := !(gr s g).lost }) }, ?_, rfl, rfl⟩
      refine (if_pos (by rw [hc]; rfl)).trans (congrArg Host.Outcome.next ?_)
      unfold clockRestart
      dsimp only
      rw [hc]
      exact if_pos (by simp [hpow, hres, hsup, cycMs, hdue])
    obtain ⟨x, hx, hn, hm⟩ := hgo
    obtain ⟨h1, h2, -, h4, -, h6, -, -, -, h10⟩ := resetNow_spec 4 x
    exact ⟨_, hx, h1, h2, h4, by rw [h6, hn]; rfl, by rw [h10, hm]⟩
  case backupClk =>
    have hne : ¬ (!s.sys.powered || s.sys.inReset || decide (s.pair.mstate = .sleep) || decide (s.wd.backupFail = bad)) = true := by
      rw [hbf]
      cases bad <;> simp [hpow, hres, hsl]
    have hpend : (496 : BitVec 10) ∈ (fire 496 s.time.ns { s with wd := { s.wd with backupFail := bad } }).ev.pend := mem_fire_pend rfl _
    have hexec : exec (.backupClock bad) s = _ := if_neg hne
    refine ⟨_, hexec, ?_⟩
    dsimp only
    cases bad
    · exact ⟨rfl, hpend, rfl⟩
    · rw [if_pos rfl, settle_wd, settle_mem, noticeIf_wd, noticeIf_mem, containedFault_mem]
      obtain ⟨_, _, _, _, _, _, _, _, _, _, _, _, _, _, hr⟩ := reacts_containedFault 496 0x16
        (fire 496 s.time.ns { s with wd := { s.wd with backupFail := true } })
      refine ⟨by rw [hr]; rfl, ?_, rfl⟩
      exact pends_settle _ _ (pends_noticeIf _ _ _ _ _ _ _ (pends_containedFault _ _ _ _ hpend))

end Sys2Proof.Machine

/-! ## Loss of the logic supply during a pass of the panel -/

namespace Sys2Proof.Machine

/-- A solo module in RUN whose panel has a row of a pass to write. The rectangle lies in the Sluice block, from which the update engine
may not read, and FCU_REACT escalates violations: the row that the discharge still writes then starts every group (R285, R298, R396). -/
def lossWitness : State :=
  { State.reset with
    regs := { written := [], force := [(aFCU + 0x184, 0x02000000)] }
    pair := { mstate := .run, role := .solo }
    time := { cyc := 20000 }
    sys := { powered := true }
    pnl := {
      phase := .on, pass := true, passRows := [0]
      queue := [{ x0 := 0, y0 := 0, w := 2, h := 1, src := 0x40090000, stride := 1, tag := 0, taken := true }] } }

/-- The command leaves the sequencer of a group out of IDLE. -/
def leavesSequencer (o : Out) : Bool :=
  match o with
  | .next t => !t.slc.grp.isEmpty
  | _ => false

/-- The model's run: the sequences that the loss has stopped start again. -/
theorem supplyLoss_lossWitness : leavesSequencer (exec .supplyLoss lossWitness) = true := by decide +kernel

/-- Refutes O54: the loss of the supply stops every sequence and then discharges the panel, whose rows are written up to that instant; a
read for one of them that master protection refuses can start the sequences again. -/
theorem not_powerAndReset : ¬ Obligations.PowerAndReset := by
  unfold Obligations.PowerAndReset
  intro h
  obtain ⟨hloss, -⟩ := h lossWitness
  obtain ⟨t, ht, -, -, -, -, hgrp, -⟩ := hloss rfl rfl
  have hrun := supplyLoss_lossWitness
  rw [ht, leavesSequencer, hgrp] at hrun
  exact absurd hrun (by decide)

end Sys2Proof.Machine

/-! ## Station time -/

namespace Sys2Proof.Machine

theorem pends_lockState (l h : Bool) (s : State) : Pends s (lockState l h s) := Pends.of_step (pends_fireIf _ _ _) rfl

theorem lockState_time (l h : Bool) (s : State) : (lockState l h s).time = { s.time with locked := l, holdover := h } :=
  fireIf_time _ _ _

theorem lockState_mem (l h : Bool) (s : State) : (lockState l h s).mem = s.mem := fireIf_mem _ _ _

/-- A set that loads at once: station time moves by `d` and is valid (R233). -/
theorem loadTime_time (d : Int) (src : BitVec 2) (s : State) :
    (loadTime d src s).time = { s.time with
      ns := ((s.time.ns : Int) + d).toNat, valid := true, ppsSec := none, setSrc := src, sets := satN 15 (s.time.sets + 1), pending := none } := by
  rw [loadTime]
  exact fire_time _ _ _

theorem loadTime_mem (d : Int) (src : BitVec 2) (s : State) : (loadTime d src s).mem = s.mem := by
  rw [loadTime]
  exact fire_mem _ _ _

theorem loadTime_pend (d : Int) (src : BitVec 2) (s : State) : (489 : BitVec 10) ∈ (loadTime d src s).ev.pend := by
  rw [loadTime]
  exact mem_fire_pend rfl _

/-- A set before TICK_GO loads at once. -/
theorem setTime_idle {s : State} (hon : s.tick.on = false) (hgo : s.tick.goAt = none) (d : Int) (src : BitVec 2) :
    setTime d src s = loadTime d src s := if_pos (by simp [hon, hgo])

/-- A set while ticks run waits for the next boundary. -/
theorem setTime_running {s : State} (hon : s.tick.on = true) (d : Int) (src : BitVec 2) :
    setTime d src s = { s with time := { s.time with pending := some (d, src) } } := if_neg (by simp [hon])

/-- A TIME_CMD SET that no state refuses. -/
theorem exec_timeSet {s : State} (hmay : rowMay s (.timeSet 0xC35A) = true) (hp : s.pair.mstate ≠ .shadow)
    (hv : s.time.valid = false) (hs : s.time.sets = 0) (hn : s.time.pending = none) :
    exec (.timeSet 0xC35A) s = .next (settle (setTime ((timeSetVal s : Int) - s.time.ns) 1 (timeResult 0 s))) := by
  have hfree : ¬(s.time.valid = true ∨ s.time.sets ≠ 0 ∨ s.time.pending.isSome = true) := by simp [hv, hs, hn]
  refine (cpRow_of_rowMay rfl hmay _).trans (congrArg Host.Outcome.next ?_)
  exact (if_neg (not_not.mpr rfl)).trans ((if_neg hp).trans (if_neg hfree))

/-- The count of good edges that locks the loop (R236). -/
theorem ppsGood_locks (p q : Prop) [Decidable p] [Decidable q] (n : Nat) :
    decide (10 ≤ if (decide q && decide p) = true then n + 1 else 0) = decide (p ∧ q ∧ 9 ≤ n) := by
  by_cases hp : p <;> by_cases hq : q <;> simp [hp, hq]

/-- Settles O44: sets through `loadTime` and `setTime`, the loop through `lockState`. -/
theorem stationTime : Obligations.StationTime := by
  unfold Obligations.StationTime
  intro s val ofs
  refine ⟨fun key hkey i hi hmay => ?badKey, fun hmay hp hv hs hn => ⟨fun hon hgo => ?setNow, fun hon => ?setLater⟩,
    fun hmay hlo hhi => ?slew, fun hmay hout => ?slewFar, fun hmay => cpRow_of_rowMay rfl hmay _, fun hsl hl => ?slewed,
    fun hpow hres hm => ?pps, fun c hd hh hres hc hle => ?holdover,
    fun u utc age c hc hen hu hv hs hn hl hage hcp hm huart hon => ?tod, fun hv hns hsec => ?out,
    fun hmay => cpRow_of_rowMay rfl hmay _, fun hmay => cpRow_of_rowMay rfl hmay _⟩
  case badKey =>
    simp only [List.mem_cons, List.not_mem_nil, or_false] at hi
    rcases hi with rfl | rfl | rfl <;>
      exact (cpRow_of_rowMay rfl hmay _).trans (congrArg Host.Outcome.next (if_pos hkey))
  case setNow =>
    refine ⟨_, exec_timeSet hmay hp hv hs hn, ?_⟩
    rw [setTime_idle (s := timeResult 0 s) hon hgo, settle_time, settle_mem, loadTime_time, loadTime_mem]
    refine ⟨?_, rfl, rfl, rfl, pends_settle _ _ (loadTime_pend _ _ _), rfl⟩
    simp only [timeResult, timeSetVal, val]
    omega
  case setLater =>
    refine ⟨_, exec_timeSet hmay hp hv hs hn, ?_⟩
    rw [setTime_running (s := timeResult 0 s) hon, settle_time]
    exact ⟨rfl, rfl, rfl⟩
  case slew =>
    refine (cpRow_of_rowMay rfl hmay _).trans (congrArg Host.Outcome.next ?_)
    exact (if_neg (not_not.mpr rfl)).trans (if_neg (by rintro (h | h) <;> exact absurd h (by simp only [ofs] at hlo hhi; omega)))
  case slewFar =>
    exact (cpRow_of_rowMay rfl hmay _).trans (congrArg Host.Outcome.next ((if_neg (not_not.mpr rfl)).trans (if_pos hout)))
  case slewed => exact if_pos (by simp [hsl, hl])
  case pps =>
    refine ⟨_, if_neg (by simp [hpow, hres, hm]), ?_⟩
    rw [lockState_time, lockState_mem]
    refine ⟨rfl, rfl, rfl, rfl, ?_, fun hd => if_neg fun h => hd (of_decide_eq_true h)⟩
    exact ppsGood_locks _ _ _
  case holdover =>
    refine ⟨_, if_pos (by simpa [hd, hh, hres, hc, cycSec, cycUs] using hle), ?_⟩
    rw [lockState_time, lockState_mem]
    exact ⟨rfl, rfl, mem_fireIf_pend rfl (by simp [hh]), rfl⟩
  case tod =>
    refine ⟨settle (setTime (1000000000 * ((utc : Int) + timeCfg s 8 8) + 5 * ((s.time.cyc : Int) - c) - s.time.ns) 2 s), ?_, ?_⟩
    · change (match s.time.ppsCyc with | some c => _ | none => _) = _
      rw [hc]
      exact if_pos (by simp [hen, timeCfg, hu, hv, hs, hn, hl, hage, hcp, hm, huart])
    · rw [settle_mem, settle_time, setTime_running hon]
      exact ⟨rfl, rfl⟩
  case out => exact if_pos (by simp [hv, hns, hsec])

end Sys2Proof.Machine

/-! ## The schedule of a station bus -/

namespace Sys2Proof.Machine

/-! ### Operations on one bus -/

/-- Only the tables of the buses, the event queues, the Bittern log and the NV controller may change. -/
def Talks (s t : State) : Prop :=
  ∃ x b n e i, t = { s with bus := x, btn := b, nv := n, ev := e, img := { s.img with fired := i } }

protected theorem Talks.refl (s : State) : Talks s s := ⟨_, _, _, _, _, rfl⟩

protected theorem Talks.trans {s t u : State} (h : Talks s t) (k : Talks t u) : Talks s u := by
  obtain ⟨x, b, n, e, i, rfl⟩ := h
  obtain ⟨x2, b2, n2, e2, i2, rfl⟩ := k
  exact ⟨x2, b2, n2, e2, i2, rfl⟩

theorem Reports.talks {s t : State} (h : Reports s t) : Talks s t := by
  obtain ⟨b, n, e, i, rfl⟩ := h
  exact ⟨_, b, n, e, i, rfl⟩

theorem Talks.ite {s a b : State} {p : Prop} [Decidable p] (ha : Talks s a) (hb : Talks s b) : Talks s (if p then a else b) := by
  split
  exacts [ha, hb]

theorem Talks.foldl {β : Type} (f : State → β → State) (hf : ∀ a b, Talks a (f a b)) (l : List β) (s : State) :
    Talks s (l.foldl f s) := by
  induction l generalizing s with
  | nil => exact .refl s
  | cons b l ih => exact (hf s b).trans (ih _)

theorem Talks.mem {s t : State} (h : Talks s t) : t.mem = s.mem := by
  obtain ⟨_, _, _, _, _, rfl⟩ := h
  rfl

theorem Talks.pair {s t : State} (h : Talks s t) : t.pair = s.pair := by
  obtain ⟨_, _, _, _, _, rfl⟩ := h
  rfl

theorem Talks.node {s t : State} (h : Talks s t) : t.node = s.node := by
  obtain ⟨_, _, _, _, _, rfl⟩ := h
  rfl

theorem Talks.tick {s t : State} (h : Talks s t) : t.tick = s.tick := by
  obtain ⟨_, _, _, _, _, rfl⟩ := h
  rfl

theorem talks_buPut (s : State) (b : Nat) (x : BusSt) : Talks s (buPut s b x) :=
  ⟨(buPut s b x).bus, s.btn, s.nv, s.ev, s.img.fired, rfl⟩

theorem talks_busLose (b : Nat) (s : State) : Talks s (busLose b s) := by
  unfold busLose
  dsimp only
  split
  · exact (talks_buPut _ _ _).trans (reports_fireIf _ _ _).talks
  · exact .refl s

theorem talks_errCount (b : Nat) (tec rec : Byte) (off : Bool) (s : State) : Talks s (errCount b tec rec off s) := by
  unfold errCount
  dsimp only
  refine .trans ?_ (reports_fireIf _ _ _).talks
  have hlose : Talks s (if off = true then busLose b s else s) := .ite (talks_busLose b s) (.refl s)
  exact (hlose.trans (talks_buPut _ b _)).trans ⟨_, _, _, _, _, rfl⟩

theorem talks_errSent (b : Nat) (s : State) : Talks s (errSent b s) := .ite (.refl s) (talks_errCount ..)

theorem talks_errHeard (b : Nat) (s : State) : Talks s (errHeard b s) := .ite (.refl s) (talks_errCount ..)

theorem talks_busHeard (b age : Nat) (s : State) : Talks s (busHeard b age s) := (talks_busLose b s).trans (talks_buPut _ _ _)

theorem talks_supersede (k : BitVec 2) (b : Nat) (s : State) : Talks s (supersede k b s) :=
  (talks_buPut _ _ _).trans (reports_fireIf _ _ _).talks

theorem talks_nodeEvent (bit k : Nat) (s : State) : Talks s (nodeEvent bit k s) :=
  ((reports_fireIf _ _ _).trans (reports_fireIf _ _ _)).talks

/-! ### The record of one bus -/

/-- The table of the buses has its canonical form. -/
def BusWf (s : State) : Prop := mwf (fun _ => ({} : BusSt)) s.bus = true

theorem BusWf.congr {s t : State} (h : BusWf s) (hb : t.bus = s.bus) : BusWf t := by
  rw [BusWf, hb]
  exact h

theorem busWf_buPut {s : State} (h : BusWf s) (b : Nat) (x : BusSt) : BusWf (buPut s b x) := mwf_mput _ b x h

theorem bu_congr {s t : State} (h : t.bus = s.bus) (b : Nat) : bu t b = bu s b := by rw [bu, bu, h]

theorem bu_buPut_same {s : State} (h : BusWf s) (b : Nat) (x : BusSt) : bu (buPut s b x) b = x := mget_mput_same _ h

theorem bu_buPut_other (s : State) {a b : Nat} (h : a ≠ b) (x : BusSt) : bu (buPut s b x) a = bu s a := mget_mput_other _ h

/-- A frame that has lost the bus leaves its schedule and its schedule's count changed, and the bus free of it (R230). -/
theorem busLose_bus {s : State} (h : BusWf s) (b : Nat) :
    BusWf (busLose b s) ∧ ∃ m q n, bu (busLose b s) b = { bu s b with cur := none, busyTo := m, sched := q, superseded := n } := by
  unfold busLose
  dsimp only
  split
  · exact ⟨(busWf_buPut h b _).congr (fireIf_bus _ _ _), _, _, _, (bu_congr (fireIf_bus _ _ _) b).trans (bu_buPut_same h b _)⟩
  · next hc => exact ⟨h, (bu s b).busyTo, (bu s b).sched, (bu s b).superseded, by rw [← hc]⟩

/-- The counters and the state of a controller after errors that are no bus-off. -/
theorem errCount_bus {s : State} (h : BusWf s) (b : Nat) (tec rec : Byte) :
    BusWf (errCount b tec rec false s) ∧
      bu (errCount b tec rec false s) b = { bu s b with txErrs := tec, rxErrs := rec, state := errState tec rec } := by
  unfold errCount
  dsimp only
  refine ⟨(busWf_buPut h b _).congr (fireIf_bus _ _ _), ?_⟩
  rw [bu_congr (fireIf_bus _ _ _)]
  refine (bu_buPut_same h b _).trans ?_
  simp

theorem errHeard_bus {s : State} (h : BusWf s) (b : Nat) :
    BusWf (errHeard b s) ∧ ∃ r st, bu (errHeard b s) b = { bu s b with rxErrs := r, state := st } := by
  unfold errHeard
  dsimp only
  split
  · exact ⟨h, _, _, rfl⟩
  · obtain ⟨hwf, hb⟩ := errCount_bus h b (bu s b).txErrs (if 127 < (bu s b).rxErrs.toNat then BitVec.ofNat 8 (119 + Config.freeRec s.time.cyc % 9)
      else (bu s b).rxErrs - 1)
    exact ⟨hwf, _, _, hb⟩

/-- A frame of another node leaves the receive and transmit sides of the bus as they are. -/
theorem busHeard_bus {s : State} (h : BusWf s) (b age : Nat) :
    BusWf (busHeard b age s) ∧
      ∃ m q n p, bu (busHeard b age s) b = { bu s b with cur := none, busyTo := m, sched := q, superseded := n, spans := p } := by
  obtain ⟨hwf, m, q, n, hb⟩ := busLose_bus h b
  unfold busHeard
  dsimp only
  rw [hb]
  exact ⟨busWf_buPut hwf b _, _, _, _, _, bu_buPut_same hwf b _⟩

theorem supersede_bus {s : State} (h : BusWf s) (k : BitVec 2) (b : Nat) :
    BusWf (supersede k b s) ∧ ∃ n, bu (supersede k b s) b = { bu s b with
      sched := (bu s b).sched.filter (fun f => decide (f.kind ≠ k)), superseded := n } := by
  unfold supersede
  dsimp only
  exact ⟨(busWf_buPut h b _).congr (fireIf_bus _ _ _), _, (bu_congr (fireIf_bus _ _ _) b).trans (bu_buPut_same h b _)⟩

/-- The mark of a bus in a map of buses. -/
theorem getLsbD_or_busBit (m : BitVec 4) (b : BitVec 2) : (m ||| busBit b.toNat).getLsbD b.toNat = true := by
  have := b.isLt
  simp [busBit, BitVec.getLsbD_shiftLeft]
  omega

/-! ### Reference frames that are heard (R222) -/

/-- The end of dual-active running leaves the buses, the data memory and the evidence of the partner. -/
theorem mergeEnd_rest (s : State) :
    (mergeEnd s).bus = s.bus ∧ (mergeEnd s).mem = s.mem ∧ (mergeEnd s).pair.refHeard = s.pair.refHeard := by
  have hshadow : ∀ c (u : State), (enterShadow c u).bus = u.bus ∧ (enterShadow c u).mem = u.mem ∧
      (enterShadow c u).pair.refHeard = u.pair.refHeard := fun c u => by
    obtain ⟨_, _, _, _, _, _, _, _, _, _, _, _, _, _, h⟩ := reacts_enterShadow c u
    refine ⟨by rw [h], by rw [h], ?_⟩
    unfold enterShadow
    rw [notice_pair]
    change (setRole .standby c (editCancel u)).pair.refHeard = _
    have hcancel : (editCancel u).pair = u.pair := fireIf_pair _ _ _
    unfold setRole
    split
    · rw [hcancel]
    · rw [fire_pair, ← hcancel]
  unfold mergeEnd
  split
  · dsimp only
    split
    · obtain ⟨hb, hm, hr⟩ := hshadow 8 (stopScan (fire 439 s.time.ns s))
      obtain ⟨e, q, i, heq⟩ := stopScan_eq (fire 439 s.time.ns s)
      obtain ⟨_, _, _, _, hf⟩ := reports_fire 439 s.time.ns s
      rw [pairNotice, notice_bus, notice_mem, notice_pair, settle_bus, settle_mem, settle_pair, hb, hm]
      refine ⟨?_, ?_, hr.trans ?_⟩ <;> rw [heq, hf]
    · rw [pairNotice, notice_bus, notice_mem, notice_pair]
      obtain ⟨_, _, _, _, h⟩ := reports_fire 439 s.time.ns s
      rw [h]
      exact ⟨rfl, rfl, rfl⟩
  · exact ⟨rfl, rfl, rfl⟩

/-! ### Frames that are queued on every bus -/

/-- The reference master of a bus, and the frame of an activation, rest on no other bus. -/
theorem refMaster_congr {s : State} {x : SMap BusSt} {b : Nat} (h : bu { s with bus := x } b = bu s b) :
    refMaster { s with bus := x } b = refMaster s b := by
  unfold refMaster busHeld
  rw [h]
  rfl

/-- The buses after an activate frame has been queued on those of a list. -/
theorem foldl_queueActivate (kind : Nat) {s : State} (h : BusWf s) (l : List Nat) (hl : l.Nodup) :
    ∃ x, (l.foldl (fun a b =>
        if refMaster a b then buPut a b { bu a b with sched := (bu a b).sched ++ [actFrame s kind] } else a) s) = { s with bus := x } ∧
      ∀ b, (bu { s with bus := x } b).sched =
        if b ∈ l ∧ refMaster s b = true then (bu s b).sched ++ [actFrame s kind] else (bu s b).sched := by
  suffices H : ∀ (y : SMap BusSt), BusWf { s with bus := y } →
      (∀ b ∈ l, bu { s with bus := y } b = bu s b) →
      ∃ x, (l.foldl (fun a b =>
        if refMaster a b then buPut a b { bu a b with sched := (bu a b).sched ++ [actFrame s kind] } else a)
          { s with bus := y }) = { s with bus := x } ∧
        ∀ b, (bu { s with bus := x } b).sched =
          if b ∈ l ∧ refMaster s b = true then (bu s b).sched ++ [actFrame s kind] else (bu { s with bus := y } b).sched from
    H s.bus h fun _ _ => rfl
  induction l with
  | nil => exact fun y _ _ => ⟨y, rfl, fun b => by simp⟩
  | cons c l ih =>
    intro y hy hsame
    obtain ⟨hc, hl⟩ := List.nodup_cons.mp hl
    rw [List.foldl_cons, refMaster_congr (hsame c List.mem_cons_self), hsame c List.mem_cons_self]
    have hne : ∀ b ∈ l, b ≠ c := fun b hb he => hc (he ▸ hb)
    by_cases hm : refMaster s c = true
    · rw [if_pos hm]
      have hput := busWf_buPut hy c { bu s c with sched := (bu s c).sched ++ [actFrame s kind] }
      obtain ⟨x, hx, hb⟩ := ih hl _ hput fun b hb =>
        (bu_buPut_other { s with bus := y } (hne b hb) _).trans (hsame b (List.mem_cons_of_mem _ hb))
      refine ⟨x, hx, fun b => (hb b).trans ?_⟩
      by_cases hbc : b = c
      · subst hbc
        rw [if_neg (fun k => hc k.1), if_pos ⟨List.mem_cons_self, hm⟩]
        exact congrArg BusSt.sched (bu_buPut_same hy b _)
      · simp only [List.mem_cons, hbc, false_or]
        congr 1
        exact congrArg BusSt.sched (bu_buPut_other { s with bus := y } hbc _)
    · rw [if_neg hm]
      obtain ⟨x, hx, hb⟩ := ih hl y hy fun b hb => hsame b (List.mem_cons_of_mem _ hb)
      refine ⟨x, hx, fun b => (hb b).trans ?_⟩
      by_cases hbc : b = c
      · subst hbc
        rw [if_neg (fun k => hm k.2), if_neg (fun k => hm k.2)]
      · simp only [List.mem_cons, hbc, false_or]

end Sys2Proof.Machine

/-! ## The schedule of a station bus: the obligation -/

namespace Sys2Proof.Machine

/-! ### Nodes -/

/-- The table of the nodes has its canonical form. -/
def NodeWf (s : State) : Prop := mwf (fun _ => ({} : NodeSt)) s.node = true

theorem NodeWf.congr {s t : State} (h : NodeWf s) (hn : t.node = s.node) : NodeWf t := by
  rw [NodeWf, hn]
  exact h

theorem nd_congr {s t : State} (h : t.node = s.node) (k : Nat) : nd t k = nd s k := by rw [nd, nd, h]

theorem nd_ndPut_same {s : State} (h : NodeWf s) (k : Nat) (x : NodeSt) : nd (ndPut s k x) k = x := mget_mput_same _ h

/-- A good frame touches the run of good frames and the phase of its node alone (R249). -/
theorem nodeGood_spec {s : State} (h : NodeWf s) (k : Nat) :
    (∃ r p, nd (nodeGood k s) k = { nd s k with goodRun := r, phase := p }) ∧ (nodeGood k s).mem = s.mem := by
  unfold nodeGood
  dsimp only
  split
  · exact ⟨⟨_, _, (nd_congr (talks_nodeEvent 29 k _).node k).trans (nd_ndPut_same h k _)⟩, (talks_nodeEvent 29 k _).mem⟩
  · exact ⟨⟨_, _, nd_ndPut_same h k _⟩, rfl⟩

/-- A node's own violation counts where no correction is owed, and leaves the frames that wait (R247, R248). -/
theorem nodeViolation_spec {s : State} (h : NodeWf s) (k : Nat) (ofs : Int) :
    (nd (nodeViolation k ofs s) k).rx = (nd s k).rx ∧
      ((nd s k).waiting = false → (nd (nodeViolation k ofs s) k).consec = min 3 ((nd s k).consec + 1) ∧
        (nd (nodeViolation k ofs s) k).violations = min 65535 ((nd s k).violations + 1)) := by
  have hput : ∀ x, nd (ndPut s k x) k = x := nd_ndPut_same h k
  unfold nodeViolation
  dsimp only
  split
  · next hw => exact ⟨rfl, fun hf => by simp [hf] at hw⟩
  · split
    · rw [show ∀ (u : State) a y, nd (buPut u a y) k = nd u k from fun _ _ _ => rfl, hput]
      exact ⟨rfl, fun _ => ⟨rfl, satN_eq_min _ _⟩⟩
    · rw [hput]
      exact ⟨rfl, fun _ => ⟨rfl, satN_eq_min _ _⟩⟩

/-- A node's frame has been heard on its bus, and its node takes the record `x`. -/
def nodeHeard (s : State) (k : Nat) (x : NodeSt) (dur : Nat) : State :=
  errHeard (k / 36) (busHeard (k / 36) dur (ndPut s k x))

theorem nodeHeard_spec {s : State} (h : NodeWf s) (k : Nat) (x : NodeSt) (dur : Nat) :
    NodeWf (nodeHeard s k x dur) ∧ nd (nodeHeard s k x dur) k = x ∧ (nodeHeard s k x dur).mem = s.mem := by
  have ht : Talks (ndPut s k x) (nodeHeard s k x dur) := (talks_busHeard _ _ _).trans (talks_errHeard _ _)
  refine ⟨NodeWf.congr (s := ndPut s k x) (mwf_mput _ k x h) ht.node, ?_, ht.mem⟩
  rw [nd_congr ht.node, nd_ndPut_same h]

/-- The record of node `k` after an input frame of the classes given (R246, R247). -/
def nodeTakes (s : State) (k : Nat) (ofs : Int) (due late pushed : Bool) (r : NodeRx) : NodeSt :=
  { nd s k with
    lastOfs := ofs
    pushedTotal := if pushed then satN 0xFFFF ((nd s k).pushedTotal + 1) else (nd s k).pushedTotal
    consec := if late then (nd s k).consec else 0
    goodRun := if late && due then 0 else (nd s k).goodRun
    rx := (nd s k).rx ++ [r] }

/-- What a node's frame leaves on its bus touches no node. -/
theorem heard_rest (b age : Nat) (s : State) : Talks s (errHeard b (busHeard b age s)) :=
  (talks_busHeard b age s).trans (talks_errHeard b _)

/-! ### The obligation -/

/-- Bus `b` after the identifier `n` of another module's reference frame: one of a lower number is noted (R241). -/
def lowerNoted (b n : Nat) (s : State) : State :=
  if n < 1 + seatBit s then buPut s b { bu s b with lowerHeard := some s.tick.num } else s

theorem lowerNoted_spec {s : State} (h : BusWf s) (b n : Nat) : BusWf (lowerNoted b n s) ∧ (lowerNoted b n s).mem = s.mem ∧
    (n < 1 + seatBit s → (bu (lowerNoted b n s) b).lowerHeard = some s.tick.num) := by
  unfold lowerNoted
  split
  · exact ⟨busWf_buPut h b _, rfl, fun _ => congrArg BusSt.lowerHeard (bu_buPut_same h b _)⟩
  · next hn => exact ⟨h, rfl, fun k => absurd k hn⟩

/-- A reference frame of another module has been heard; one that is complete has occupied the bus (R217, R247). -/
def refNoted (b n : Nat) (byte0 : Option Byte) (s : State) : State :=
  let s1 := lowerNoted b n s
  let s2 := { s1 with pair := { s1.pair with refHeard := true } }
  if byte0.isSome then errHeard b (busHeard b (frameNs s b false false false 8) s2) else s2

theorem refNoted_spec {s : State} (h : BusWf s) (b n : Nat) (byte0 : Option Byte) :
    (refNoted b n byte0 s).pair.refHeard = true ∧ (refNoted b n byte0 s).mem = s.mem ∧
      (n < 1 + seatBit s → (bu (refNoted b n byte0 s) b).lowerHeard = some s.tick.num) := by
  obtain ⟨hwf, hmem, hlow⟩ := lowerNoted_spec h b n
  unfold refNoted
  extract_lets s1 _ s2
  split
  · have ht := heard_rest b (frameNs s b false false false 8) s2
    obtain ⟨hwf2, _, _, _, _, hb2⟩ := busHeard_bus (s := s2) hwf b (frameNs s b false false false 8)
    obtain ⟨-, _, _, hb3⟩ := errHeard_bus hwf2 b
    refine ⟨by rw [ht.pair], ht.mem.trans hmem, fun hn => ?_⟩
    rw [hb3, hb2]
    exact hlow hn
  · exact ⟨rfl, hmem, hlow⟩

/-- Another module's reference frame, of the seat that this module does not have. -/
theorem exec_referenceFrameHeard {s : State} {b : BitVec 2} {id : BitVec 11} (byte0 : Option Byte) (hh : canHears s b.toNat = true)
    (hid : id.toNat = 1 ∨ id.toNat = 2) (hne : id.toNat ≠ 1 + seatBit s) :
    exec (.referenceFrameHeard b id byte0) s = .next (settle (if byte0.any (fun v => v.getLsbD 7) then
      mergeEnd (refNoted b.toNat id.toNat byte0 s) else refNoted b.toNat id.toNat byte0 s)) := by
  have hc : (canHears s b.toNat && (decide (id.toNat = 1) || decide (id.toNat = 2)) && decide (id.toNat ≠ 1 + seatBit s)) = true := by
    simpa [hh, hne] using hid
  change execReferenceFrameHeard b id byte0 s = _
  unfold execReferenceFrameHeard refNoted lowerNoted
  dsimp only
  rw [if_pos hc]

/-- The reference frame names its seat and its tick (R243). -/
theorem refFrame_spec (s : State) (delay : Nat) :
    (refFrame s delay).kind = 0 ∧ (refFrame s delay).id = BitVec.ofNat 29 (1 + seatBit s) ∧ (refFrame s delay).data.length = 8 ∧
      (refFrame s delay).data[1]? = some (BitVec.ofNat 8 s.tick.num) :=
  ⟨rfl, rfl, rfl, rfl⟩

/-- A module that sends on a bus has its ticks running, and the bus. -/
theorem sendsRef_parts {s : State} {b : Nat} (h : sendsRef s b = true) : b < nBus s ∧ tickRuns s = true := by
  simp only [sendsRef, Bool.and_eq_true, decide_eq_true_eq] at h
  tauto

/-- Settles O45: the records of the bus and of the node through the rules of their operations. -/
theorem busSchedule : Obligations.BusSchedule := by
  unfold Obligations.BusSchedule
  intro s hok
  have hbus : BusWf s := tablesOk_bus hok
  have hnode : NodeWf s := tablesOk_node hok
  refine ⟨fun b delay hs hd hns => ?sends, fun b delay hb hrun hs hd hns => ?silent, fun b id byte0 hh hid hne => ?heard,
    fun b hs hd href hrun hns => ?free, fun hrun hph hdec h60 h1 hsec => ?arm, fun k sof eof busy data hk hsch hfmt hh hon => ?node⟩
  case sends =>
    obtain ⟨hb, hrun⟩ := sendsRef_parts hs
    obtain ⟨hwf, n, hsup⟩ := supersede_bus hbus 0 b.toNat
    have hx := bu_buPut_same hwf b.toNat { bu (supersede 0 b.toNat s) b.toNat with
      sched := refFrame s delay :: (bu (supersede 0 b.toNat s) b.toNat).sched, schedRun := true, free := false, sent := []
      busyTo := max (bu (supersede 0 b.toNat s) b.toNat).busyTo (s.tick.t0 + 10000 + delay) }
    refine ⟨_, (if_neg ?_).trans (if_pos hs), (talks_supersede 0 b.toNat s).mem, getLsbD_or_busBit _ b, ?_, ?_, refFrame s delay, ?_,
      refFrame_spec s delay⟩
    · simp [hb, hrun, hd, hns]
    · exact (congrArg BusSt.schedRun (bu_congr (s := buPut _ _ _) rfl b.toNat)).trans (congrArg BusSt.schedRun hx)
    · exact (congrArg BusSt.free (bu_congr (s := buPut _ _ _) rfl b.toNat)).trans (congrArg BusSt.free hx)
    · refine ((congrArg BusSt.sched (bu_congr (s := buPut _ _ _) rfl b.toNat)).trans (congrArg BusSt.sched hx :)).trans ?_
      rw [hsup]
  case silent =>
    have hx := bu_buPut_same hbus b.toNat { bu s b.toNat with schedRun := false, free := false }
    refine ⟨_, (if_neg ?_).trans (if_neg (by simp [hs])), rfl, getLsbD_or_busBit _ b, ?_, ?_⟩
    · simp [hb, hrun, hd, hns]
    · exact (congrArg BusSt.schedRun (bu_congr (s := buPut _ _ _) rfl b.toNat)).trans (congrArg BusSt.schedRun hx)
    · exact (congrArg BusSt.sched (bu_congr (s := buPut _ _ _) rfl b.toNat)).trans (congrArg BusSt.sched hx :)
  case heard =>
    have hid' : id.toNat = 1 ∨ id.toNat = 2 := hid.imp (congrArg BitVec.toNat) (congrArg BitVec.toNat)
    refine ⟨_, exec_referenceFrameHeard byte0 hh hid' hne, ?_⟩
    obtain ⟨hr, hm, hlow⟩ := refNoted_spec hbus b.toNat id.toNat byte0
    obtain ⟨hmb, hmm, hmr⟩ := mergeEnd_rest (refNoted b.toNat id.toNat byte0 s)
    rw [settle_pair, settle_mem, bu_congr (settle_bus _)]
    split
    · rw [bu_congr hmb]
      exact ⟨hmr.trans hr, hmm.trans hm, hlow⟩
    · exact ⟨hr, hm, hlow⟩
  case free =>
    have hx := bu_buPut_same hbus b.toNat { bu s b.toNat with
      sched := (bu s b.toNat).sched ++ (if goDue s && refMaster s b.toNat then [actFrame s 2] else []), free := true }
    refine ⟨_, if_pos ?_, getLsbD_or_busBit _ b, ?_, ?_, rfl⟩
    · simp [hs, hd, refSent, href, hrun, hns]
    · exact (congrArg BusSt.free (bu_congr (s := buPut _ _ _) rfl b.toNat)).trans (congrArg BusSt.free hx)
    · exact (congrArg BusSt.sched (bu_congr (s := buPut _ _ _) rfl b.toNat)).trans (congrArg BusSt.sched hx :)
  case arm =>
    obtain ⟨x, hx, hb⟩ := foldl_queueActivate 1 hbus (List.range (nBus s)) List.nodup_range
    have hq : queueActivate 1 s = { s with bus := x } := hx
    refine ⟨_, if_pos (by simp [hrun, hph, hdec, h60, h1, hsec]), rfl, by rw [hq], fun b hlt => ?_⟩
    rw [bu_congr (s := { s with bus := x }) (by rw [hq]), hb]
    simp [hlt]
  case node =>
    intro i base tick first last start len guard due pushed rx
    have hgo : ∀ late edge, (!(due && decide (start ≤ first) && decide (last ≤ start + len)) &&
          !(due && !(due && decide (start ≤ first) && decide (last ≤ start + len)) && decide (start - guard ≤ first) &&
            decide (last ≤ start + len + guard))) = late →
        (due && !(due && decide (start ≤ first) && decide (last ≤ start + len)) && decide (start - guard ≤ first) &&
            decide (last ≤ start + len + guard)) = edge →
        exec (.nodeInputFrame k sof eof busy data) s = .next
          (let s2 := nodeHeard s i (nodeTakes s i (first - start) due late pushed
              { late := late, edge := edge, pushed := pushed, data := data, eof := (s.tick.t0 : Int) + eof, tick := tick }) (eof - sof).toNat
           if !late then nodeGood i s2 else if pushed then s2 else nodeViolation i (first - start) s2) := by
      rintro _ _ rfl rfl
      exact if_neg (by simp [hk, hsch, hfmt, hh, hon])
    refine ⟨fun hd h1 h2 => ?_, fun hd hw h1 h2 => ?_, fun hl => ?_⟩
    · refine ⟨_, hgo false false (by simp [hd, h1, h2]) (by simp [h1, h2]), ?_⟩
      obtain ⟨hwf, hx, hmem⟩ := nodeHeard_spec hnode i (nodeTakes s i (first - start) due false pushed
        { late := false, edge := false, pushed := pushed, data := data, eof := (s.tick.t0 : Int) + eof, tick := tick }) (eof - sof).toNat
      obtain ⟨⟨r, p, hg⟩, hgm⟩ := nodeGood_spec hwf i
      refine ⟨?_, ?_, ?_, hgm.trans hmem⟩ <;> refine (congrArg _ (hg.trans (by rw [hx]))).trans rfl
    · have hout : (decide (start ≤ first) && decide (last ≤ start + len)) = false := by
        simpa [imp_iff_not_or] using hw
      refine ⟨_, hgo false true ?_ ?_, ?_⟩
      · simp [hd, hout, h1, h2]
      · simp [hd, hout, h1, h2]
      obtain ⟨hwf, hx, -⟩ := nodeHeard_spec hnode i (nodeTakes s i (first - start) due false pushed
        { late := false, edge := true, pushed := pushed, data := data, eof := (s.tick.t0 : Int) + eof, tick := tick }) (eof - sof).toNat
      obtain ⟨⟨r, p, hg⟩, -⟩ := nodeGood_spec hwf i
      constructor <;> refine (congrArg _ (hg.trans (by rw [hx]))).trans rfl
    · have hguard : 0 ≤ guard := by simp only [guard]; omega
      have hwin : (due && decide (start ≤ first) && decide (last ≤ start + len)) = false := by
        rcases hl with h | h | h
        · simp [h]
        · simp [show ¬ start ≤ first by omega]
        · simp [show ¬ last ≤ start + len by omega]
      have hedge : (due && decide (start - guard ≤ first) && decide (last ≤ start + len + guard)) = false := by
        rcases hl with h | h | h
        · simp [h]
        · simp [show ¬ start - guard ≤ first by omega]
        · simp [show ¬ last ≤ start + len + guard by omega]
      obtain ⟨hwf, hx, -⟩ := nodeHeard_spec hnode i (nodeTakes s i (first - start) due true pushed
        { late := true, edge := false, pushed := pushed, data := data, eof := (s.tick.t0 : Int) + eof, tick := tick }) (eof - sof).toNat
      refine ⟨_, hgo true false ?_ ?_, ?_⟩
      · rw [hwin, Bool.not_false, Bool.and_true, hedge]
        rfl
      · rw [hwin, Bool.not_false, Bool.and_true, hedge]
      dsimp only
      rw [if_neg (by simp)]
      by_cases hp : pushed = true
      · rw [if_pos hp, hx]
        exact ⟨rfl, fun _ => rfl, fun h => absurd (hp.symm.trans h) (by simp)⟩
      · rw [if_neg hp]
        obtain ⟨hrx, hcount⟩ := nodeViolation_spec hwf i (first - start)
        rw [hx] at hrx hcount
        exact ⟨hrx, fun h => absurd h hp, fun _ hw => hcount hw⟩

end Sys2Proof.Machine

/-! ## Receive FIFOs, transmit entries and error states -/

namespace Sys2Proof.Machine

/-! ### Tables that take a value other than the default -/

/-- An entry that is not the default reads back, in whatever form the table stands. -/
theorem mget_mput_ne {α : Type} [DecidableEq α] (d : Nat → α) (m : SMap α) {k : Nat} {v : α} (hv : v ≠ d k) :
    mget d (mput d m k v) k = v := by
  induction m with
  | nil => simp [mput, mget, hv]
  | cons p m ih =>
    obtain ⟨j, w⟩ := p
    rcases lt_trichotomy k j with h | rfl | h
    · simp [mput, mget, h, hv]
    · simp [mput, mget, hv]
    · simp [mput, mget, Nat.lt_asymm h, Nat.ne_of_gt h, Nat.ne_of_lt h, ih]

/-! ### Errors of a bus that may be a bus-off -/

/-- A frame on the bus that belongs to this tick is pending again, at the front of the schedule (R230). -/
theorem busLose_cur {s : State} (h : BusWf s) {b : Nat} {c : OnBus} (hc : (bu s b).cur = some c) (ht : c.tick = s.tick.num) :
    (bu (busLose b s) b).sched = c.frame :: (bu s b).sched := by
  unfold busLose
  dsimp only
  rw [hc]
  dsimp only
  rw [bu_congr (fireIf_bus _ _ _), bu_buPut_same h]
  simp [ht]

/-- The counters, the state and the count of bus-offs of a controller after errors; a bus on which no frame stands keeps its schedule. -/
theorem errCount_off {s : State} (h : BusWf s) (b : Nat) (tec rec : Byte) (off : Bool) :
    ∃ c m q n, bu (errCount b tec rec off s) b = { bu s b with
        cur := c, busyTo := m, sched := q, superseded := n, txErrs := tec, rxErrs := rec
        state := if off then 2 else errState tec rec
        busoff := if off then satN 0xFFFF ((bu s b).busoff + 1) else (bu s b).busoff
        schedRun := (bu s b).schedRun && !off } ∧
      ((bu s b).cur = none → c = none ∧ q = (bu s b).sched) := by
  have hlose : ∃ c m q n, BusWf (if off = true then busLose b s else s) ∧ bu (if off = true then busLose b s else s) b =
      { bu s b with cur := c, busyTo := m, sched := q, superseded := n } ∧ ((bu s b).cur = none → c = none ∧ q = (bu s b).sched) := by
    split
    · obtain ⟨hwf, m, q, n, hb⟩ := busLose_bus h b
      refine ⟨none, m, q, n, hwf, hb, fun hc => ⟨rfl, ?_⟩⟩
      have hsame : busLose b s = s := by
        unfold busLose
        dsimp only
        rw [hc]
      rw [hsame] at hb
      exact (congrArg BusSt.sched hb :).symm
    · exact ⟨_, _, _, _, h, rfl, fun hc => ⟨hc, rfl⟩⟩
  obtain ⟨c, m, q, n, hwf, hb, hkeep⟩ := hlose
  refine ⟨c, m, q, n, ?_, hkeep⟩
  unfold errCount
  dsimp only
  rw [bu_congr (fireIf_bus _ _ _)]
  refine (bu_buPut_same hwf b _).trans ?_
  rw [hb]

/-- A frame heard lets REC fall (R228). -/
theorem errHeard_rec {s : State} (h : BusWf s) (b : Nat) :
    ((bu s b).rxErrs.toNat ≤ 127 → (bu (errHeard b s) b).rxErrs.toNat = (bu s b).rxErrs.toNat - 1) ∧
      (127 < (bu s b).rxErrs.toNat → 119 ≤ (bu (errHeard b s) b).rxErrs.toNat ∧ (bu (errHeard b s) b).rxErrs.toNat ≤ 127) := by
  unfold errHeard
  dsimp only
  split
  · next h0 => simp [h0]
  · next h0 =>
    have hpos : 0 < (bu s b).rxErrs.toNat := Nat.pos_of_ne_zero fun hz => h0 (BitVec.eq_of_toNat_eq hz)
    have hlt := (bu s b).rxErrs.isLt
    obtain ⟨-, hb⟩ := errCount_bus h b (bu s b).txErrs (if 127 < (bu s b).rxErrs.toNat then
      BitVec.ofNat 8 (119 + Config.freeRec s.time.cyc % 9) else (bu s b).rxErrs - 1)
    rw [hb]
    constructor <;> intro hr
    · rw [if_neg (by omega), BitVec.toNat_sub_of_le (by rw [BitVec.le_def]; exact hpos)]
      rfl
    · simp only [if_pos hr, BitVec.toNat_ofNat]
      omega

/-- A frame sent lets TEC fall (R228), and touches no transmit entry. -/
theorem errSent_spec {s : State} (h : BusWf s) (b : Nat) :
    (bu (errSent b s) b).tx = (bu s b).tx ∧ (bu (errSent b s) b).txErrs.toNat = (bu s b).txErrs.toNat - 1 := by
  unfold errSent
  dsimp only
  split
  · next h0 => simp [h0]
  · next h0 =>
    have hpos : 0 < (bu s b).txErrs.toNat := Nat.pos_of_ne_zero fun hz => h0 (BitVec.eq_of_toNat_eq hz)
    obtain ⟨-, hb⟩ := errCount_bus h b ((bu s b).txErrs - 1) (bu s b).rxErrs
    rw [hb]
    refine ⟨rfl, ?_⟩
    rw [BitVec.toNat_sub_of_le (by rw [BitVec.le_def]; exact hpos)]
    rfl

/-! ### Frames received -/

theorem talks_intrusion (b t : Nat) (f : CanFrame) (s : State) : Talks s (intrusion b t f s) := by
  unfold intrusion
  dsimp only
  refine .ite (.ite ?_ ?_) (.refl s)
  · exact (talks_buPut _ _ _).trans (reports_fire _ _ _).talks
  · exact talks_buPut _ _ _

theorem intrusion_bus {s : State} (h : BusWf s) (b t : Nat) (f : CanFrame) :
    BusWf (intrusion b t f s) ∧ ∃ n, bu (intrusion b t f s) b = { bu s b with intrusions := n } := by
  unfold intrusion
  dsimp only
  refine iteInduction (motive := fun u => BusWf u ∧ ∃ n, bu u b = { bu s b with intrusions := n }) (fun _ => ?_) fun _ => ⟨h, _, rfl⟩
  split
  · exact ⟨(busWf_buPut h b _).congr (fire_bus _ _ _), _, (bu_congr (fire_bus _ _ _) b).trans (bu_buPut_same h b _)⟩
  · exact ⟨busWf_buPut h b _, _, bu_buPut_same h b _⟩

theorem talks_rxStore (b t : Nat) (f : CanFrame) (s : State) : Talks s (rxStore b t f s) := by
  unfold rxStore
  dsimp only
  refine .ite (.refl s) (.ite ?_ ?_)
  · exact (talks_buPut _ _ _).trans (reports_fire _ _ _).talks
  · exact talks_buPut _ _ _

/-- A frame that passes the filters enters the FIFO, which overflows at its 64 frames (R254). -/
theorem rxStore_bus {s : State} (h : BusWf s) {b : Nat} (t : Nat) {f : CanFrame} (hrtr : f.rtr = false) (hid : nodeId s b 0xC f = false)
    (hres : reservedId f = false) (hhit : filterHit s b f = true) (hfr : s.prot.frozen.getLsbD 3 = false) :
    bu (rxStore b t f s) b = { bu s b with
      fifo := if decide (64 ≤ (bu s b).fifo.length) then (bu s b).fifo else (bu s b).fifo ++ [f]
      ovf := (bu s b).ovf || decide (64 ≤ (bu s b).fifo.length) } := by
  unfold rxStore
  rw [hrtr, hid, hres, hhit, hfr, if_neg (by decide)]
  dsimp only
  split
  · exact (bu_congr (fire_bus _ _ _) b).trans (bu_buPut_same h b _)
  · exact bu_buPut_same h b _

/-- The filters and the identifiers of the schedule rest on configuration registers alone. -/
theorem filterHit_congr {s t : State} (h : Talks s t) (b : Nat) (f : CanFrame) (st : BitVec 48) :
    filterHit t b { f with stamp := st } = filterHit s b f ∧ nodeId t b 0xC { f with stamp := st } = nodeId s b 0xC f := by
  obtain ⟨_, _, _, _, _, rfl⟩ := h
  exact ⟨rfl, rfl⟩

/-! ### Transmit entries -/

theorem talks_txPut (s : State) (b e : Nat) (x : TxEntry) : Talks s (txPut s b e x) := talks_buPut _ _ _

theorem txPut_wf {s : State} (h : BusWf s) (b e : Nat) (x : TxEntry) : BusWf (txPut s b e x) := busWf_buPut h b _

theorem txEntry_txPut_same {s : State} (h : BusWf s) (b e : Nat) {x : TxEntry} (hx : x ≠ {}) : txEntry (txPut s b e x) b e = x := by
  rw [txEntry, txPut, bu_buPut_same h]
  exact mget_mput_ne _ _ hx

theorem txEntry_txPut_other {s : State} (h : BusWf s) (b : Nat) {e j : Nat} (hj : j ≠ e) (x : TxEntry) :
    txEntry (txPut s b e x) b j = txEntry s b j := by
  rw [txEntry, txPut, bu_buPut_same h]
  exact mget_mput_other _ hj

/-- What the refusal of bad identifiers does with one entry. -/
def txRefuseOne (b : Nat) (s : State) (e : Nat) : State :=
  if (txEntry s b e).pending && txBadId s b e then txPut s b e { txEntry s b e with pending := false, badId := true } else s

theorem talks_txRefuse (b : Nat) (s : State) : Talks s (txRefuse b s) :=
  .foldl (txRefuseOne b) (fun _ _ => .ite (talks_txPut _ _ _ _) (.refl _)) _ s

theorem txRefuse_self {b : Nat} {s : State} (h : ∀ j < 16, (txEntry s b j).pending = true → txBadId s b j = false) : txRefuse b s = s := by
  have hone : ∀ j < 16, txRefuseOne b s j = s := fun j hj => if_neg (by
    cases hp : (txEntry s b j).pending with
    | false => simp
    | true => simp [h j hj hp])
  suffices H : ∀ l : List Nat, (∀ j ∈ l, j < 16) → l.foldl (txRefuseOne b) s = s from H (List.range 16) fun j hj => List.mem_range.mp hj
  intro l hl
  induction l with
  | nil => rfl
  | cons j l ih =>
    rw [List.foldl_cons, hone j (hl j List.mem_cons_self)]
    exact ih fun k hk => hl k (List.mem_cons_of_mem _ hk)

theorem txBadId_congr {s t : State} (h : Talks s t) (b e : Nat) : txBadId t b e = txBadId s b e := by
  obtain ⟨_, _, _, _, _, rfl⟩ := h
  rfl

/-- An entry is refused where it pends with a bad identifier, and is left otherwise. -/
theorem txRefuseOne_spec {s : State} (h : BusWf s) (b e : Nat) :
    BusWf (txRefuseOne b s e) ∧ (∀ j ≠ e, txEntry (txRefuseOne b s e) b j = txEntry s b j) ∧
      txEntry (txRefuseOne b s e) b e = if (txEntry s b e).pending && txBadId s b e then
        { txEntry s b e with pending := false, badId := true } else txEntry s b e := by
  unfold txRefuseOne
  split
  · refine ⟨txPut_wf h b e _, fun j hj => txEntry_txPut_other h b hj _, txEntry_txPut_same h b e fun hz => ?_⟩
    exact absurd (congrArg TxEntry.badId hz) (by simp)
  · exact ⟨h, fun _ _ => rfl, rfl⟩

/-- A pending entry with a bad identifier ends with its bit BAD_ID (R240). -/
theorem txRefuse_entry {s : State} (h : BusWf s) {b e : Nat} (he : e < 16) (hp : (txEntry s b e).pending = true)
    (hbad : txBadId s b e = true) : txEntry (txRefuse b s) b e = { txEntry s b e with pending := false, badId := true } := by
  have key : ∀ (l : List Nat) (u : State), BusWf u → Talks s u →
      (txEntry u b e = txEntry s b e ∨ txEntry u b e = { txEntry s b e with pending := false, badId := true }) →
      (e ∈ l ∨ txEntry u b e = { txEntry s b e with pending := false, badId := true }) →
      txEntry (l.foldl (txRefuseOne b) u) b e = { txEntry s b e with pending := false, badId := true } := by
    intro l
    induction l with
    | nil => exact fun u _ _ _ hend => hend.resolve_left (by simp)
    | cons j l ih =>
      intro u hu ht hst hend
      obtain ⟨hwf, hother, hsame⟩ := txRefuseOne_spec hu b j
      have ht' : Talks s (txRefuseOne b u j) := ht.trans (.ite (talks_txPut _ _ _ _) (.refl _))
      rw [List.foldl_cons]
      by_cases hj : j = e
      · subst hj
        have hdone : txEntry (txRefuseOne b u j) b j = { txEntry s b j with pending := false, badId := true } := by
          rw [hsame, txBadId_congr ht, hbad]
          rcases hst with hst | hst <;> rw [hst]
          · rw [hp]
            rfl
          · rfl
        exact ih _ hwf ht' (.inr hdone) (.inr hdone)
      · rw [← hother e (Ne.symm hj)] at hst hend
        exact ih _ hwf ht' hst (hend.imp_left fun hm => (List.mem_cons.mp hm).resolve_left (Ne.symm hj))
  exact key (List.range 16) s h (.refl s) (.inl rfl) (.inl (List.mem_range.mpr he))

end Sys2Proof.Machine

/-! ## Receive FIFOs, transmit entries and error states: the obligation -/

namespace Sys2Proof.Machine

/-- The counters and states that an ERROR_STATE_CHANGE may name (R228). -/
theorem errGoes_iff (tec rec : Byte) (st : BitVec 2) :
    errGoes tec rec st = true ↔ (st = 2 ∧ tec = 255 ∨ st ≠ 2 ∧ st = errState tec rec) := by
  simp [errGoes]

theorem errState_ne_three (tec rec : Byte) : errState tec rec ≠ 3 := by
  unfold errState
  split <;> decide

/-- Entry `e` of bus `b` once it has been sent, with its start of frame `age` ns ago (R239, R254). -/
def txSentEntry (s : State) (b e age : Nat) : TxEntry :=
  { txEntry s b e with
    pending := false, done := true, stamp := sofStamp s age, esi := txFd s b e && decide ((bu s b).state = 1) }

/-- The state after that. -/
def txSent (s : State) (b e age : Nat) : State :=
  let s2 := errSent b (busHeard b age (txPut s b e (txSentEntry s b e age)))
  if canEvt s b 1 then fire (401 + 4 * b) (sofNs s age) s2 else s2

theorem txSent_spec {s : State} (h : BusWf s) (b e age : Nat) :
    (txSent s b e age).mem = s.mem ∧ (bu (txSent s b e age) b).tx = (bu (txPut s b e (txSentEntry s b e age)) b).tx ∧
      (bu (txSent s b e age) b).txErrs.toNat = (bu s b).txErrs.toNat - 1 := by
  unfold txSent
  dsimp only
  have hwf1 : BusWf (txPut s b e (txSentEntry s b e age)) := txPut_wf h b e _
  obtain ⟨hwf2, _, _, _, _, hb⟩ := busHeard_bus hwf1 b age
  obtain ⟨htx, herr⟩ := errSent_spec hwf2 b
  have h1 : (bu (txPut s b e (txSentEntry s b e age)) b).txErrs = (bu s b).txErrs :=
    (congrArg BusSt.txErrs (bu_buPut_same h b _) :)
  have ht := ((talks_txPut s b e (txSentEntry s b e age)).trans (talks_busHeard b age _)).trans (talks_errSent b _)
  rw [hb] at htx herr
  rw [← h1]
  split
  · rw [fire_mem, bu_congr (fire_bus _ _ _)]
    exact ⟨ht.mem, htx, herr⟩
  · exact ⟨ht.mem, htx, herr⟩

theorem srcPresent_bus {s : State} {b k : Nat} (hb : b < nBus s) (hk : k < 4) : srcPresent s (400 + k + 4 * b) = true := by
  have hlt : nBus s ≤ 4 := by unfold nBus; split <;> decide
  simp only [srcPresent, show ¬ 400 + k + 4 * b < 256 by omega, show ¬ 400 + k + 4 * b < 400 by omega,
    show 400 + k + 4 * b < 416 by omega, if_true, if_false, show (400 + k + 4 * b - 400) / 4 = b by omega, hb, decide_true]

theorem txSent_pend {s : State} {b e age : Nat} (hb : b < nBus s) (hev : canEvt s b 1 = true) :
    BitVec.ofNat 10 (401 + 4 * b) ∈ (txSent s b e age).ev.pend := by
  unfold txSent
  rw [if_pos hev]
  refine mem_fire_pend (srcPresent_bus (k := 1) ?_ (by decide)) _
  obtain ⟨_, _, _, _, _, h⟩ :=
    ((talks_txPut s b e (txSentEntry s b e age)).trans (talks_busHeard b age _)).trans (talks_errSent b _)
  rw [h]
  exact hb

/-- Settles O46: the record of the bus through the rules of its operations. -/
theorem canFramesAndErrors : Obligations.CanFramesAndErrors := by
  unfold Obligations.CanFramesAndErrors
  intro s b e hok i x stampOf
  have hbus : BusWf s := tablesOk_bus hok
  have he : e.toNat < 16 := e.isLt
  refine ⟨fun f age hh hfd hhit hrtr hid hres hfr => ?rx, fun f age hf hfd => ?noFd, fun v hmay hb hv => ?pop, fun hmay hb hp hid => ?req,
    fun hmay hb hp hid => ?reqBad, fun hmay hb hp => ?abort, fun age esi hh hm hp hfr hids hcur hfit hfirst => ?done,
    fun age esi hp hid hb => ?refused, fun tec rec hh hst => ?noError, fun tec rec hh hst => ?error, fun tec rec st hh hbad => ?noChange,
    fun tec rec st hh hne hgo => ?change, fun hb hst => ?recovery⟩
  case rx =>
    have ht0 : Talks s (errHeard i (busHeard i age s)) := heard_rest i age s
    have ht : Talks s (intrusion i (sofNs s age) { f with stamp := stampOf age } (errHeard i (busHeard i age s))) := ht0.trans (talks_intrusion ..)
    refine ⟨rxStore i (sofNs s age) { f with stamp := stampOf age }
      (intrusion i (sofNs s age) { f with stamp := stampOf age } (errHeard i (busHeard i age s))), if_pos ?_, ?_⟩
    · rcases hfd with h | h
      · simp [hh, i, h] at hh ⊢
      · simp [hh, i, h] at hh ⊢
    obtain ⟨hwf1, _, _, _, _, hb1⟩ := busHeard_bus hbus i age
    obtain ⟨hrec1, hrec2⟩ := errHeard_rec hwf1 i
    obtain ⟨hwf2, r, st, hb2⟩ := errHeard_bus hwf1 i
    obtain ⟨hwf3, _, hb3⟩ := intrusion_bus hwf2 i (sofNs s age) { f with stamp := stampOf age }
    obtain ⟨hhit', hid'⟩ := filterHit_congr ht i f (stampOf age)
    have hst := rxStore_bus hwf3 (b := i) (sofNs s age) (f := { f with stamp := stampOf age }) hrtr (hid'.trans hid) hres (hhit'.trans hhit)
      (by obtain ⟨_, _, _, _, _, heq⟩ := ht; rw [heq]; exact hfr)
    have hfifo : (bu (intrusion i (sofNs s age) { f with stamp := stampOf age } (errHeard i (busHeard i age s))) i).fifo = (bu s i).fifo := by
      rw [hb3, hb2, hb1]
    have hovf : (bu (intrusion i (sofNs s age) { f with stamp := stampOf age } (errHeard i (busHeard i age s))) i).ovf = (bu s i).ovf := by
      rw [hb3, hb2, hb1]
    have htx : (bu (intrusion i (sofNs s age) { f with stamp := stampOf age } (errHeard i (busHeard i age s))) i).txErrs = (bu s i).txErrs := by
      rw [hb3, hb2, hb1]
    have hrx : (bu (intrusion i (sofNs s age) { f with stamp := stampOf age } (errHeard i (busHeard i age s))) i).rxErrs =
        (bu (errHeard i (busHeard i age s)) i).rxErrs := by rw [hb3]
    rw [show (bu (busHeard i age s) i).rxErrs = (bu s i).rxErrs by rw [hb1]] at hrec1 hrec2
    rw [(talks_rxStore _ _ _ _).mem, ht.mem, hst, hfifo, hovf]
    refine ⟨rfl, fun hlt => ⟨?_, ?_⟩, htx, fun hr => ?_, fun hr => ?_, fun hge => ⟨?_, ?_⟩⟩
    · exact if_neg (by simpa using hlt)
    · simp [hlt]
    · exact (congrArg BitVec.toNat hrx).trans (hrec1 hr)
    · obtain ⟨h1, h2⟩ := hrec2 hr
      rw [← hrx] at h1 h2
      exact ⟨h1, h2⟩
    · exact if_pos (by simpa using hge)
    · simp [hge]
  case noFd => exact if_neg (by simpa [hf, i] using fun _ => hfd)
  case pop => exact (cpRow_of_rowMay rfl hmay _).trans (if_pos ⟨hb, hv⟩)
  case req =>
    refine (cpRow_of_rowMay rfl hmay _).trans ((if_neg ?_).trans (if_neg (by simp [hid, i])))
    exact fun h => h.elim (fun k => absurd k (Nat.not_le.mpr hb)) fun k => absurd (hp.symm.trans k) (by simp)
  case reqBad =>
    refine (cpRow_of_rowMay rfl hmay _).trans ((if_neg ?_).trans (if_pos hid))
    exact fun h => h.elim (fun k => absurd k (Nat.not_le.mpr hb)) fun k => absurd (hp.symm.trans k) (by simp)
  case abort =>
    exact ⟨_, (cpRow_of_rowMay rfl hmay _).trans ((if_pos hb).trans (congrArg Host.Outcome.next (if_pos hp))),
      fireIf_mem _ _ _, fireIf_bus _ _ _⟩
  case done =>
    have hexec : exec (.txDone b e age esi) s = .next (txSent s i e.toNat age) := by
      change execTxDone b e age esi s = _
      unfold execTxDone
      dsimp only
      rw [txRefuse_self hids]
      refine if_pos ?_
      have hall : (bu s i).cur.all (fun c => decide (sofNs s age < c.sof)) = true := by
        cases hc : (bu s i).cur with
        | none => rfl
        | some c => exact decide_eq_true (hcur c hc)
      simp only [Bool.and_eq_true, decide_eq_true_eq, Bool.not_eq_true']
      exact ⟨⟨⟨⟨⟨⟨hh, hm⟩, hp⟩, hfr⟩, hfit⟩, hfirst⟩, hall⟩
    obtain ⟨hmem, htx, herr⟩ := txSent_spec hbus i e.toNat age
    have hentry : txSentEntry s i e.toNat age = { x with
      pending := false, done := true, stamp := stampOf age, esi := txFd s i e.toNat && decide ((bu s i).state = 1) } := rfl
    rw [hentry] at htx
    refine ⟨txSent s i e.toNat age, hexec, hmem, htx, herr, fun hev => txSent_pend ?_ hev⟩
    simp only [canHears, Bool.and_eq_true, decide_eq_true_eq] at hh
    obtain ⟨⟨⟨⟨hb, -⟩, -⟩, -⟩, -⟩ := hh
    exact hb
  case refused =>
    have ht := talks_txRefuse i s
    have hent := txRefuse_entry hbus he hp hid
    refine ⟨txRefuse i s, ?_, ht.mem, by rw [hent], by rw [hent], by rw [hent]⟩
    change execTxDone b e age esi s = _
    unfold execTxDone
    dsimp only
    rw [show txEntry (txRefuse b.toNat s) b.toNat e.toNat = _ from hent]
    simp [i]
  case noError => exact if_neg (by simpa [i] using fun _ => hst)
  case error =>
    obtain ⟨hwf, m, q, n, hb⟩ := busLose_bus hbus i
    obtain ⟨c, m2, q2, n2, hb2, hkeep⟩ := errCount_off hwf i tec rec
      (decide (rec = (bu s i).rxErrs) && decide (tec = 255) && decide (255 < (bu s i).txErrs.toNat + 8))
    obtain ⟨hc, hq⟩ := hkeep (by rw [hb])
    refine ⟨_, if_pos (by simpa [i] using And.intro hh hst), ?_⟩
    rw [((talks_busLose i s).trans (talks_errCount i tec rec _ _)).mem, hb2]
    refine ⟨rfl, rfl, by rw [hb], rfl, fun h1 h2 h3 => if_pos (by simp [h1, h2, h3]), fun h => if_neg ?_, fun k hk htick => ⟨hc, ?_⟩⟩
    · simp only [Bool.and_eq_true, decide_eq_true_eq]
      rintro ⟨⟨h1, h2⟩, h3⟩
      rcases h with h | h | h
      exacts [h h1, h h2, by omega]
    · exact hq.trans (busLose_cur hbus hk htick)
  case noChange =>
    refine if_neg ?_
    rw [Bool.and_eq_true, Bool.and_eq_true, decide_eq_true_eq, errGoes_iff]
    rintro ⟨⟨-, hgo⟩, hne⟩
    rcases hbad with h | rfl | ⟨rfl, h⟩ | ⟨h1, h2⟩
    · exact hne h
    · rcases hgo with ⟨h, -⟩ | ⟨-, h⟩
      · exact absurd h (by decide)
      · exact errState_ne_three tec rec h.symm
    · rcases hgo with ⟨-, hg⟩ | ⟨hg, -⟩
      exacts [h hg, hg rfl]
    · rcases hgo with ⟨hg, -⟩ | ⟨-, hg⟩
      exacts [h1 hg, h2 hg]
  case change =>
    obtain ⟨c, m, q, n, hb, -⟩ := errCount_off hbus i tec rec (decide (st = 2))
    refine ⟨errCount i tec rec (decide (st = 2)) s, if_pos ?_, ?_⟩
    · rw [Bool.and_eq_true, Bool.and_eq_true, decide_eq_true_eq, errGoes_iff]
      exact ⟨⟨hh, hgo⟩, hne⟩
    rw [(talks_errCount _ _ _ _ _).mem, hb]
    by_cases h2 : st = 2
    · subst h2
      exact ⟨rfl, rfl, rfl, satN_eq_min _ _, by simp, rfl⟩
    · obtain ⟨-, hst⟩ := hgo.resolve_left fun h => h2 h.1
      refine ⟨(if_neg (by simpa using h2)).trans hst.symm, rfl, rfl, ?_, by simp, rfl⟩
      rw [if_neg h2]
      exact if_neg (by simpa using h2)
  case recovery =>
    have hx := bu_buPut_same hbus i { bu s i with
      state := 0, txErrs := 0, rxErrs := 0, holdTick := if decide (s.tick.t0 + 10000 < s.time.ns) then some s.tick.num else none }
    refine ⟨_, if_pos ⟨hb, hst⟩, ?_⟩
    rw [bu_congr (fireIf_bus _ _ _), fireIf_mem]
    exact ⟨(congrArg BusSt.state hx :), (congrArg BusSt.txErrs hx :), (congrArg BusSt.rxErrs hx :), rfl⟩

end Sys2Proof.Machine

/-! ## The output commit -/

namespace Sys2Proof.Machine

/-! ### What the commit's later steps keep -/

/-- The table of the channels has its canonical form. -/
def ChanWf (s : State) : Prop := mwf (fun _ => ({} : ChanSt)) s.chan = true

/-- The tick, the logic engine and the data memory stand, and every channel keeps its command. -/
def Cmds (s t : State) : Prop :=
  (t.tick = s.tick ∧ t.le = s.le ∧ t.mem = s.mem) ∧ (ChanWf s → ChanWf t ∧ ∀ n, (ch t n).cmd = (ch s n).cmd)

protected theorem Cmds.refl (s : State) : Cmds s s := ⟨⟨rfl, rfl, rfl⟩, fun h => ⟨h, fun _ => rfl⟩⟩

protected theorem Cmds.trans {s t u : State} (h : Cmds s t) (k : Cmds t u) : Cmds s u := by
  obtain ⟨⟨ht, hl, hm⟩, hc⟩ := h
  obtain ⟨⟨kt, kl, km⟩, kc⟩ := k
  refine ⟨⟨kt.trans ht, kl.trans hl, km.trans hm⟩, fun hwf => ?_⟩
  obtain ⟨hw, hcmd⟩ := hc hwf
  obtain ⟨kw, kcmd⟩ := kc hw
  exact ⟨kw, fun n => (kcmd n).trans (hcmd n)⟩

/-- A step that leaves the table of the channels. -/
theorem Cmds.of_chan {s t : State} (ht : t.tick = s.tick) (hl : t.le = s.le) (hm : t.mem = s.mem) (hc : t.chan = s.chan) : Cmds s t :=
  ⟨⟨ht, hl, hm⟩, fun h => ⟨by rw [ChanWf, hc]; exact h, fun n => by rw [ch, ch, hc]⟩⟩

theorem Cmds.ite {s a b : State} {p : Prop} [Decidable p] (ha : Cmds s a) (hb : Cmds s b) : Cmds s (if p then a else b) := by
  split
  exacts [ha, hb]

theorem Cmds.foldl {β : Type} (f : State → β → State) (hf : ∀ a b, Cmds a (f a b)) (l : List β) (s : State) : Cmds s (l.foldl f s) := by
  induction l generalizing s with
  | nil => exact .refl s
  | cons b l ih => exact (hf s b).trans (ih _)

theorem Reports.cmds {s t : State} (h : Reports s t) : Cmds s t := by
  obtain ⟨_, _, _, _, rfl⟩ := h
  exact .of_chan rfl rfl rfl rfl

theorem Talks.cmds {s t : State} (h : Talks s t) : Cmds s t := by
  obtain ⟨_, _, _, _, _, rfl⟩ := h
  exact .of_chan rfl rfl rfl rfl

/-- A channel whose record takes new values but for its command. -/
theorem cmds_chPut (s : State) (n : Nat) {c : ChanSt} (h : c.cmd = (ch s n).cmd) : Cmds s (chPut s n c) := by
  refine ⟨⟨rfl, rfl, rfl⟩, fun hwf => ⟨chanWf_chPut hwf n c, fun m => ?_⟩⟩
  by_cases hm : m = n
  · rw [hm, ch_chPut_same hwf, h]
  · rw [ch_chPut_other hm]

theorem cmds_rfxEval (s : State) : Cmds s (rfxEval s) := by
  obtain ⟨hchan, -, -⟩ := rfxEval_frame s
  obtain ⟨_, _, _, _, _, _, _, h⟩ := settles_rfxEval s
  exact .of_chan (by rw [h]) (by rw [h]) (by rw [h]) hchan

theorem cmds_settle (s : State) : Cmds s (settle s) := by
  refine ⟨⟨settle_tick s, settle_le s, settle_mem s⟩, fun h => ?_⟩
  obtain ⟨hwf, hd⟩ := settle_ch h
  refine ⟨hwf, fun n => ?_⟩
  obtain ⟨_, _, _, _, _, _, _, _, _, _, _, heq, -⟩ := hd n
  rw [heq]

theorem cmds_rearm (n : Nat) (cp : Bool) (s : State) : Cmds s (rearm n cp s) := .ite (cmds_chPut s n rfl) (cmds_chPut s n rfl)

theorem cmds_cpRearms (s : State) : Cmds s (cpRearms s) :=
  .foldl _ (fun a n => .ite (cmds_rearm n true a) (.refl a)) _ s

theorem cmds_releaseGroups (s : State) : Cmds s (releaseGroups s) :=
  .trans (t := { s with slc := { s.slc with relPending := 0 } }) (.of_chan rfl rfl rfl rfl)
    (.foldl _ (fun a g => Cmds.of_chan (t := sgPut a g { sg a g with phase := .idle, held := 0, cmd := 0, table := [] }) rfl rfl rfl rfl) _ _)

theorem cmds_loadOutputs (s : State) (b : Nat) : Cmds s (loadOutputs s b) :=
  .trans (talks_supersede 1 b s).cmds (.ite (talks_buPut _ _ _).cmds (.refl _))

theorem cmds_slcStartGrp (cause : Nat) (u : Bool) (s : State) (g : Nat) : Cmds s (slcStartGrp cause u s g) := by
  unfold slcStartGrp
  dsimp only
  exact .ite (.trans (t := sgPut s g _) (.of_chan rfl rfl rfl rfl) (reports_fireIf _ _ _).cmds) (.refl s)

theorem cmds_slcTriggerMask (cause : Nat) (m : Word) (s : State) : Cmds s (slcTriggerMask cause m s) := by
  have hrec : Cmds s (slcRecord cause (lowestBit m) s) := .of_chan rfl rfl rfl rfl
  exact hrec.trans (.ite (.foldl _ (cmds_slcStartGrp cause true) _ _) (.refl _))

theorem cmds_rfxEndActions (s : State) : Cmds s (rfxEndActions s) := .of_chan rfl rfl rfl rfl

theorem cmds_takeoverCommit (s : State) : Cmds s (takeoverCommit s) := by
  unfold takeoverCommit
  split
  · obtain ⟨_, _, _, _, h⟩ := sendOn_eq [txLane { s with pair := { s.pair with tokenOut := true } }]
      (.taken (BitVec.ofNat 64 s.tick.num)) { s with pair := { s.pair with tokenOut := true } }
    rw [sendFrame, h]
    exact .of_chan rfl rfl rfl rfl
  · exact .refl s

/-- What follows the commit itself. -/
def commitTail (n : Nat) (s : State) : State :=
  settle ((List.range n).foldl loadOutputs (releaseGroups (cpRearms (rfxEndActions (rfxEval s)))))

theorem cmds_commitTail (n : Nat) (s : State) : Cmds s (commitTail n s) :=
  ((((cmds_rfxEval s).trans (cmds_rfxEndActions _)).trans (cmds_cpRearms _)).trans (cmds_releaseGroups _)).trans
    ((Cmds.foldl _ cmds_loadOutputs _ _).trans (cmds_settle _))

/-! ### The commands of the image (R33) -/

/-- A contained fault leaves the committed image. -/
theorem containedFault_commQ (src reason : Nat) (s : State) : (containedFault src reason s).le.commQ = s.le.commQ := by
  have hrec : (fcuRecord src reason 1 s).le = s.le := by
    obtain ⟨_, _, _, _, _, _, h⟩ := records_fcuRecord src reason 1 s
    rw [h]
  unfold containedFault
  dsimp only
  split
  · rw [notice_le, hrec]
  · rcases fatalReact_le src reason 2 (fcuRecord src reason 1 s) with h | ⟨u, h⟩ <;> rw [h]
    · rw [hrec]
    · exact congrArg (·.commQ) hrec
  · rw [hrec]

/-- Faults that are reserved tags leave what the channels' commands rest on. -/
theorem recordReadFaults_tags (l : List (Nat × Nat)) (hl : ∀ f ∈ l, f.2 = 0x11) (s : State) :
    (recordReadFaults l s).chan = s.chan ∧ (recordReadFaults l s).regs = s.regs ∧ (recordReadFaults l s).fixed = s.fixed ∧
      (recordReadFaults l s).mem = s.mem ∧ (recordReadFaults l s).le.commQ = s.le.commQ := by
  induction l generalizing s with
  | nil => exact ⟨rfl, rfl, rfl, rfl, rfl⟩
  | cons f l ih =>
    obtain ⟨hc, hr, hf, hm, hq⟩ := ih (fun g hg => hl g (List.mem_cons_of_mem _ hg)) (memFault s f)
    have h11 : memFault s f = containedFault 537 f.2 s := by
      rw [memFault, hl f List.mem_cons_self]
      rfl
    have hq0 := containedFault_commQ 537 f.2 s
    obtain ⟨_, _, _, _, _, _, _, _, _, _, _, _, _, _, h0⟩ := reacts_containedFault 537 f.2 s
    rw [recordReadFaults, List.foldl_cons]
    refine ⟨hc.trans ?_, hr.trans ?_, hf.trans ?_, hm.trans ?_, hq.trans ?_⟩ <;> rw [h11]
    · rw [h0]
    · rw [h0]
    · rw [h0]
    · rw [h0]
    · exact hq0

/-- The command that channel `n` takes from the committed image. -/
def cmdOf (s : State) (n : Nat) : Bool :=
  match forceBit s 0x2000 n with
  | some b => b
  | none => if decide (tagClass (sealedWord s (0x2000 + n)).tag < 2) then fbit (sealedWord s (0x2000 + n)).val 0
      else fbit (chCfg s n 0x10) 0 && (ch s n).cmd

theorem commitChan_spec {s : State} (h : ChanWf s) (n : Nat) :
    (∃ x, commitChan s n = { s with chan := x }) ∧ ChanWf (commitChan s n) ∧ (∀ m, m ≠ n → ch (commitChan s n) m = ch s m) ∧
      (isOut s n = true → (ch (commitChan s n) n).cmd = cmdOf s n) := by
  unfold commitChan
  split
  · unfold commitOut
    dsimp only
    generalize hc : ({ ch s n with cmd := _, rearmPrev := _ } : ChanSt) = c
    have hcmd : c.cmd = cmdOf s n := by
      rw [← hc]
      rfl
    have hwf : ChanWf (chPut s n c) := chanWf_chPut h n c
    split
    · unfold rearm
      dsimp only
      split
      · refine ⟨⟨_, rfl⟩, chanWf_chPut hwf n _, fun m hm => ?_, fun _ => ?_⟩
        · rw [ch_chPut_other hm, ch_chPut_other hm]
        · rw [ch_chPut_same hwf, ch_chPut_same h]
          exact hcmd
      · refine ⟨⟨_, rfl⟩, chanWf_chPut hwf n _, fun m hm => ?_, fun _ => ?_⟩
        · rw [ch_chPut_other hm, ch_chPut_other hm]
        · rw [ch_chPut_same hwf, ch_chPut_same h]
          exact hcmd
    · exact ⟨⟨_, rfl⟩, hwf, fun m hm => ch_chPut_other hm c, fun _ => by rw [ch_chPut_same h]; exact hcmd⟩
  · next hn => exact ⟨⟨_, rfl⟩, chanWf_chPut h n _, fun m hm => ch_chPut_other hm _, fun ho => absurd ho hn⟩

/-- The channels after a run of commits. -/
theorem foldl_commitChan {s : State} (h : ChanWf s) (k : Nat) :
    (∃ x, (List.range k).foldl commitChan s = { s with chan := x }) ∧ ChanWf ((List.range k).foldl commitChan s) ∧
      ∀ n, (k ≤ n → ch ((List.range k).foldl commitChan s) n = ch s n) ∧
        (n < k → isOut s n = true → (ch ((List.range k).foldl commitChan s) n).cmd = cmdOf s n) := by
  induction k with
  | zero => exact ⟨⟨_, rfl⟩, h, fun n => ⟨fun _ => rfl, fun hn => absurd hn (Nat.not_lt_zero n)⟩⟩
  | succ k ih =>
    obtain ⟨⟨x, hx⟩, hwf, hn⟩ := ih
    rw [List.range_succ, List.foldl_append, List.foldl_cons, List.foldl_nil]
    generalize hu : (List.range k).foldl commitChan s = u at hx hwf hn
    obtain ⟨⟨y, hy⟩, hwf', hother, hcmd⟩ := commitChan_spec hwf k
    refine ⟨⟨y, by rw [hy, hx]⟩, hwf', fun n => ⟨fun hle => ?_, fun hlt ho => ?_⟩⟩
    · exact (hother n (by omega)).trans ((hn n).1 (by omega))
    · by_cases hk : n = k
      · subst hk
        have hsame : ch u n = ch s n := (hn n).1 (Nat.le_refl n)
        have hout : isOut u n = isOut s n := by rw [hx]; rfl
        have hof : cmdOf u n = cmdOf s n := by
          rw [cmdOf, cmdOf, hsame, hx]
          rfl
        rw [hcmd (hout.trans ho), hof]
      · rw [hother n hk]
        exact (hn n).2 (by omega) ho

theorem cmds_commitNode (s : State) (k : Nat) : Cmds s (commitNode s k) := by
  unfold commitNode
  dsimp only
  refine .ite (.refl s) (.ite ?_ ?_)
  · exact .trans (t := ndPut s k _) (.of_chan rfl rfl rfl rfl) (talks_nodeEvent 29 k _).cmds
  · exact .of_chan rfl rfl rfl rfl

/-- The sealed image is the committed one, and the faults of its words are recorded (R24, R33). -/
def imageRead (s : State) : State :=
  recordReadFaults (commitFaults { s with le := { s.le with commQ := s.le.sealedQ } }) { s with le := { s.le with commQ := s.le.sealedQ } }

/-- The committed image reaches every output channel, and the count of missed commits ends. -/
theorem commitNow_spec (s : State) : (commitNow s).tick.missed = 0 ∧ (commitNow s).tick.commitMissed = false ∧
    (ChanWf s → s.mem.upset = [] → ChanWf (commitNow s) ∧ ∀ n < nCh s, isOut s n = true →
      forceBit s 0x2000 n = none → (ch (commitNow s) n).cmd =
        cmdOf (imageRead s) n) := by
  refine ⟨rfl, rfl, fun hwf hup => ?_⟩
  unfold commitNow
  extract_lets _ s0 s1 s2 s3
  have htags : ∀ f ∈ commitFaults s0, f.2 = 0x11 := by
    intro f hf
    simp only [commitFaults, s0, hup, List.filter_nil, List.map_nil, List.nil_append, List.mem_map] at hf
    obtain ⟨p, -, rfl⟩ := hf
    rfl
  obtain ⟨hc, hr, hf, -, -⟩ := recordReadFaults_tags (commitFaults s0) htags s0
  have hwf1 : ChanWf s1 := by
    rw [ChanWf, hc]
    exact hwf
  obtain ⟨-, hwf2, hcmd⟩ := foldl_commitChan hwf1 (nCh s)
  have hnodes : Cmds s2 s3 := .foldl _ cmds_commitNode _ _
  obtain ⟨-, hkeep⟩ := hnodes.trans (Cmds.refl s3)
  obtain ⟨hwf3, hsame⟩ := hkeep hwf2
  refine ⟨hwf3, fun n hn ho _ => ?_⟩
  have hout : isOut s1 n = isOut s n := by
    unfold isOut
    rw [chMode_congr (s := s) (t := s1) hr hf]
  exact (hsame n).trans ((hcmd n).2 hn (hout.trans ho))

/-- The image is no longer sealed. -/
def sealUsed (s : State) : State := { s with le := { s.le with sealedReady := false, sealedGo := 0, sealedRst := 0 } }

theorem tick_sealUsed (s : State) : (sealUsed s).tick = s.tick := rfl

theorem ch_sealUsed (s : State) (n : Nat) : ch (sealUsed s) n = ch s n := rfl

theorem chanWf_sealUsed {s : State} (h : ChanWf s) : ChanWf (sealUsed s) := h

/-- The requests of a committed image are carried out. -/
theorem commitRequests_spec (s : State) : Cmds (sealUsed s) (commitRequests s) := by
  unfold commitRequests
  dsimp only
  have h2 : ∀ u : State, Cmds u (rfxEndActions (rfxEval u)) := fun u => (cmds_rfxEval u).trans (cmds_rfxEndActions _)
  have h1 : ∀ (m : BitVec 64) (u : State), Cmds u (rfxEndActions (rfxEval (rfxReset m u))) := fun m u =>
    .trans (t := rfxReset m u) (.of_chan rfl rfl rfl rfl) (h2 _)
  exact .ite (h1 _ _) ((h1 _ _).trans (cmds_slcTriggerMask _ _ _))

/-- What the commit's reads leave, where no word has an error. -/
theorem imageRead_spec {s : State} (hup : s.mem.upset = []) :
    (imageRead s).regs = s.regs ∧ (imageRead s).fixed = s.fixed ∧ (imageRead s).mem.upset = [] ∧ (imageRead s).le.commQ = s.le.sealedQ := by
  have htags : ∀ f ∈ commitFaults { s with le := { s.le with commQ := s.le.sealedQ } }, f.2 = 0x11 := fun f h => by
    simp only [commitFaults, hup, List.filter_nil, List.map_nil, List.nil_append, List.mem_map] at h
    obtain ⟨p, -, rfl⟩ := h
    rfl
  obtain ⟨-, hr, hfix, hmem, hq⟩ := recordReadFaults_tags _ htags { s with le := { s.le with commQ := s.le.sealedQ } }
  exact ⟨hr, hfix, (congrArg MemSt.upset hmem).trans hup, hq⟩

/-- The command of a channel that no force holds: the sealed image's, or its fail action (R33). -/
theorem cmdOf_imageRead {s : State} {n : Nat} (hup : s.mem.upset = []) (hf : forceBit s 0x2000 n = none) {w : DWord}
    (hw : mget (fun _ => goodZero) s.le.sealedQ (0x2000 + n) = w) :
    (tagClass w.tag < 2 → cmdOf (imageRead s) n = w.val.getLsbD 0) ∧
      (2 ≤ tagClass w.tag → fbit (chCfg s n 0x10) 0 = false → cmdOf (imageRead s) n = false) := by
  obtain ⟨hr, hfix, hmem, hq⟩ := imageRead_spec hup
  have hforce : forceBit (imageRead s) 0x2000 n = none := by
    unfold forceBit forceEnts force
    rw [hr]
    exact hf
  have hcfg : chCfg (imageRead s) n 0x10 = chCfg s n 0x10 := by
    unfold chCfg nCh nGroups force
    rw [hr, hfix]
  have hword : sealedWord (imageRead s) (0x2000 + n) = if tagReserved w.tag then ⟨0, tagMEMORY⟩ else w := by
    unfold sealedWord
    rw [hmem, hq, hw]
    simp [mget]
  simp only [cmdOf, hforce, hcfg, hword]
  refine ⟨fun hc => ?_, fun hc hhold => ?_⟩
  · have hres : tagReserved w.tag = false := by
      simp only [tagClass] at hc
      simp only [tagReserved, decide_eq_false_iff_not]
      omega
    rw [hres, if_neg Bool.false_ne_true, decide_eq_true hc, if_pos rfl]
    rfl
  · have hbad : ¬ tagClass (if tagReserved w.tag = true then ⟨0, tagMEMORY⟩ else w : DWord).tag < 2 := by
      split
      · decide
      · omega
    rw [decide_eq_false hbad, if_neg Bool.false_ne_true, hhold, Bool.false_and]

/-- The commit of this tick is done. -/
def commitMarked (s : State) : State :=
  { s with
    tick := { s.tick with commitDone := true, skipCommit := false }
    pair := { s.pair with immediateCommit := false } }

theorem missed_commitMarked (s : State) : (commitMarked s).tick.missed = s.tick.missed := rfl

theorem commitMissed_commitMarked (s : State) : (commitMarked s).tick.commitMissed = s.tick.commitMissed := rfl

theorem le_commitMarked (s : State) : (commitMarked s).le = s.le := rfl

theorem ch_commitMarked (s : State) (n : Nat) : ch (commitMarked s) n = ch s n := rfl

theorem chanWf_commitMarked {s : State} (h : ChanWf s) : ChanWf (commitMarked s) := h

theorem exec_outputCommit {s : State} (h : commitDue s = true) : exec .outputCommit s = .next (commitTail (nBus s) (commitMarked
    (if commitTakes s = true then commitRequests (takeoverCommit (commitNow s)) else commitMiss s))) :=
  if_neg (by simp [h])

/-- Settles O27: the later steps of a commit keep the tick, the logic engine and the commands. -/
theorem outputCommit : Obligations.OutputCommit := by
  unfold Obligations.OutputCommit
  intro s hon hres hm hd hns
  have hdue : commitDue s = true := by simp [commitDue, tickRuns, hon, hres, hm, hd, hns]
  refine ⟨fun hsr hrun hho hsk htick => ?takes, fun hno hentry => ?misses⟩
  case takes =>
    have ht : commitTakes s = true := by simp [commitTakes, inRun, hm, hsr, hrun, hho, hsk, htick]
    obtain ⟨hmiss, hcm, hcmd⟩ := commitNow_spec s
    have hto := cmds_takeoverCommit (commitNow s)
    have hreq := commitRequests_spec (takeoverCommit (commitNow s))
    have htail := cmds_commitTail (nBus s) (commitMarked (commitRequests (takeoverCommit (commitNow s))))
    refine ⟨_, (exec_outputCommit hdue).trans (by rw [if_pos ht]), ?_⟩
    obtain ⟨⟨tto, -, -⟩, cto⟩ := hto
    obtain ⟨⟨treq, lreq, -⟩, creq⟩ := hreq
    obtain ⟨⟨ttail, ltail, -⟩, ctail⟩ := htail
    rw [ttail, ltail]
    refine ⟨rfl, ?_, ?_, ?_, ?_, ?_, fun hok hup n hn ho hf => ?_⟩
    · rw [missed_commitMarked, treq, tick_sealUsed, tto, hmiss]
    · rw [commitMissed_commitMarked, treq, tick_sealUsed, tto, hcm]
    · rw [le_commitMarked, lreq, sealUsed]
    · rw [le_commitMarked, lreq, sealUsed]
    · rw [le_commitMarked, lreq, sealUsed]
    · have himg := cmdOf_imageRead hup hf rfl
      obtain ⟨hwf, hn'⟩ := hcmd (tablesOk_chan hok) hup
      obtain ⟨hwf1, h1⟩ := cto hwf
      obtain ⟨hwf2, h2⟩ := creq (chanWf_sealUsed hwf1)
      obtain ⟨-, h3⟩ := ctail (chanWf_commitMarked hwf2)
      rw [(h3 n).trans ((congrArg ChanSt.cmd (ch_commitMarked _ n)).trans <| (h2 n).trans <| (congrArg ChanSt.cmd (ch_sealUsed _ n)).trans ((h1 n).trans (hn' n hn ho hf)))]
      exact himg
  case misses =>
    have hnot : commitTakes s = false := by
      simp only [commitTakes, Bool.and_eq_false_iff, Bool.not_eq_false', decide_eq_false_iff_not, not_not]
      tauto
    have hmiss : commitMiss s = unhealthy { s with tick := { s.tick with missed := s.tick.missed + 1, commitMissed := true } } :=
      if_pos (by simp [inRun, hm, hentry])
    have htail := cmds_commitTail (nBus s) (commitMarked (commitMiss s))
    refine ⟨_, (exec_outputCommit hdue).trans (by rw [hnot, if_neg Bool.false_ne_true]), ?_⟩
    obtain ⟨⟨ttail, -, mtail⟩, -⟩ := htail
    rw [ttail, mtail, hmiss]
    exact ⟨rfl, rfl, rfl, rfl⟩

end Sys2Proof.Machine

/-! ## The start of a scan, and overruns -/

namespace Sys2Proof.Machine

/-! ### The copy engine leaves the tick -/

theorem Reacts.tick {s t : State} (h : Reacts s t) : t.tick = s.tick := by
  obtain ⟨_, _, _, _, _, _, _, _, _, _, _, _, _, _, rfl⟩ := h
  rfl

theorem StoreFrame.tick {s t : State} (h : StoreFrame s t) : t.tick = s.tick := by
  obtain ⟨_, _, _, _, _, _, rfl, -⟩ := h
  rfl

theorem tick_sramCount (a : Nat) (s : State) : (sramCount a s).tick = s.tick := by
  unfold sramCount
  dsimp only
  rw [fireIf_tick, noticeIf_tick]

theorem tick_memFault (s : State) (f : Nat × Nat) : (memFault s f).tick = s.tick := by
  have hc : ∀ u : State, (corrected u).tick = u.tick := fun u => fireIf_tick _ _ _
  unfold memFault
  split
  · rw [tick_sramCount, hc]
  · split
    · rw [tick_sramCount, hc]
      rfl
    · split
      · exact (reacts_fatalFault _ _ _).tick
      · exact (reacts_containedFault _ _ _).tick

theorem tick_recordReadFaults (l : List (Nat × Nat)) (s : State) : (recordReadFaults l s).tick = s.tick :=
  foldl_keeps (fun a : State => a.tick) memFault tick_memFault l s

theorem tick_accessRefused (m a : Nat) (wr : Bool) (s : State) : (accessRefused m a wr s).tick = s.tick := by
  unfold accessRefused
  split
  · rfl
  · obtain ⟨_, h⟩ := reacts_freezeMaster m (wordOf a) wr s
    exact h.tick

theorem tick_engAct (a : Nat) (wr : Bool) {f : State → State} (hf : ∀ u, (f u).tick = u.tick) (s : State) :
    (engAct a wr f s).tick = s.tick := by
  unfold engAct
  split
  · exact hf s
  · exact tick_accessRefused 2 _ wr s

theorem tick_migStep (e : MigEntry) (s : State) (i : Nat) : (migStep e s i).tick = s.tick := by
  have hput : ∀ u : State, (engAct (e.dst + i) true (writeWord (e.dst + i) (migConv e (readWord s (e.src + i)))) u).tick = u.tick :=
    tick_engAct _ _ fun u => (storeFrame_writeBits _ _ _ _ u).tick
  unfold migStep
  dsimp only
  split
  · exact hput s
  · exact tick_engAct _ _ (fun u => (hput _).trans (tick_recordReadFaults _ u)) s

theorem tick_migApply (s : State) : (migApply s).tick = s.tick := by
  have hrun : (migRun s.edit.mig s).tick = s.tick :=
    (foldl_keeps (fun a : State => a.tick) migApplyEntry
      (fun a e => foldl_keeps (fun b : State => b.tick) (migStep e) (tick_migStep e) _ a) _ _).trans (tick_recordReadFaults _ s)
  unfold migApply
  dsimp only
  split
  · exact hrun
  · exact hrun

/-- A swap that lands: the identity of the new version, and nothing of the data memory (R116). -/
theorem swapLand_spec (s : State) : (swapLand s).tick = s.tick ∧ (swapLand s).edit.landed = BitVec.ofNat 32 s.tick.num ∧
    (swapLand s).le.progId = s.edit.newId ∧ (swapLand s).mem = s.mem := by
  have hout : ∀ (e : EditMsg) (u : State), ∃ p, editOut e u = { u with pair := p } := fun e u => by
    unfold editOut
    split
    · exact ⟨_, rfl⟩
    · exact ⟨u.pair, rfl⟩
  unfold swapLand
  extract_lets undo s0 _ _ s1
  obtain ⟨p, hp⟩ := hout (.changes undo (BitVec.ofNat 32 s.tick.num) (swapChanges s) (swapPrev s)) s1
  obtain ⟨q, i, hf⟩ := fire_eq 474 s.time.ns (editOut (.changes undo (BitVec.ofNat 32 s.tick.num) (swapChanges s) (swapPrev s)) s1)
  rw [hf, hp]
  exact ⟨rfl, rfl, rfl, rfl⟩

theorem tick_swapNow (s : State) : (swapNow s).tick = s.tick := by
  unfold swapNow
  split
  · obtain ⟨h, -⟩ := swapLand_spec s
    exact h
  · dsimp only
    split
    · obtain ⟨h, -⟩ := swapLand_spec (migApply s)
      exact h.trans (tick_migApply s)
    · exact (settle_tick _).trans (tick_migApply s)

/-! ### The end of a scan by a trap -/

/-- A contained fault leaves the logic engine, or stops its scan. -/
theorem containedFault_stops (src reason : Nat) (s : State) : (containedFault src reason s).le = s.le ∨
    ∃ u, (containedFault src reason s).le = { stoppedLe s with uncommitted := u } := by
  have hrec : (fcuRecord src reason 1 s).le = s.le ∧ (fcuRecord src reason 1 s).time = s.time := by
    obtain ⟨_, _, _, _, _, _, h⟩ := records_fcuRecord src reason 1 s
    rw [h]
    exact ⟨rfl, rfl⟩
  obtain ⟨hle, ht⟩ := hrec
  unfold containedFault
  dsimp only
  split
  · rw [notice_le, hle]
    exact .inl rfl
  · have h := fatalReact_le src reason 2 (fcuRecord src reason 1 s)
    rw [stoppedLe, hle, ht] at h
    exact h
  · exact .inl hle

/-- What a trap of one lane leaves: the capture stands. -/
theorem recordTraps_one (t : BitVec 2 × BitVec 6) (s : State) :
    (recordTraps [t] s).le.trapValid = true ∧ (recordTraps [t] s).mem = s.mem ∧ (recordTraps [t] s).tick = s.tick := by
  change (containedFault 477 t.2.toNat (fireIf (!s.le.trapFired) 477 { s with le := _ })).le.trapValid = true ∧
    (containedFault 477 t.2.toNat (fireIf (!s.le.trapFired) 477 { s with le := _ })).mem = s.mem ∧
    (containedFault 477 t.2.toNat (fireIf (!s.le.trapFired) 477 { s with le := _ })).tick = s.tick
  refine ⟨?_, ?_, ?_⟩
  · rcases containedFault_stops 477 t.2.toNat (fireIf (!s.le.trapFired) 477 { s with le := _ }) with h | ⟨u, h⟩
    · rw [h, fireIf_le]
    · rw [h, stoppedLe, fireIf_le]
  · rw [containedFault_mem, fireIf_mem]
  · rw [(reacts_containedFault _ _ _).tick, fireIf_tick]

theorem epochClose_rest (s : State) : (epochClose s).le = s.le ∧ (epochClose s).tick = s.tick ∧ (epochClose s).mem = s.mem := by
  unfold epochClose
  split
  · dsimp only
    split <;> exact ⟨rfl, rfl, rfl⟩
  · exact ⟨rfl, rfl, rfl⟩

theorem twdJudge_rest (ks : Byte) (s : State) :
    (twdJudge ks s).le = s.le ∧ (twdJudge ks s).tick = s.tick ∧ (twdJudge ks s).mem = s.mem := by
  have hcycle : ∀ (k : Nat) (u : State), ∃ w, twdCycle k u = { u with wd := w } := fun k u => by
    unfold twdCycle
    dsimp only
    split
    · exact ⟨_, rfl⟩
    · exact ⟨u.wd, rfl⟩
  have hfold : ∀ (l : List Nat) (u : State), ∃ w, l.foldl (fun a k => twdCycle k a) u = { u with wd := w } := by
    intro l
    induction l with
    | nil => exact fun u => ⟨u.wd, rfl⟩
    | cons k l ih =>
      intro u
      obtain ⟨w, hw⟩ := hcycle k u
      obtain ⟨w2, hw2⟩ := ih (twdCycle k u)
      exact ⟨w2, by rw [List.foldl_cons, hw2, hw]⟩
  unfold twdJudge
  obtain ⟨w, hw⟩ := hfold ((List.range 8).filter (fun k => ks.getLsbD k)) { s with wd := { s.wd with twdDue := 0 } }
  rw [hw]
  exact ⟨rfl, rfl, rfl⟩

/-- One more overrun or abort may stop the scan, and touches neither the tick nor the data memory (R44). -/
theorem overrunCount_rest (s : State) : (overrunCount s).tick = s.tick ∧ (overrunCount s).mem = s.mem ∧
    ∃ x : LeSt, (overrunCount s).le = x ∧ x.trapValid = s.le.trapValid ∧ x.overTotal = s.le.overTotal ∧
      (s.le.running = false → x.running = false) := by
  unfold overrunCount
  dsimp only
  split
  · refine ⟨(reacts_fatalFault _ _ _).tick, fatalFault_mem _ _ _, _, rfl, ?_⟩
    rcases fatalFault_le 473 0x20 (unhealthy { s with le := { s.le with overConsec := satN 15 (s.le.overConsec + 1) } }) with h | ⟨u, h⟩
    · rw [h]
      exact ⟨rfl, rfl, id⟩
    · rw [h]
      exact ⟨rfl, rfl, fun _ => rfl⟩
  · exact ⟨rfl, rfl, _, rfl, rfl, rfl, id⟩

/-- A scan that a trap has aborted does not run, and its commit is skipped (R87). -/
theorem abortScan_spec (s : State) : (abortScan s).le.running = false ∧ (abortScan s).tick.skipCommit = true ∧
    (abortScan s).le.trapValid = s.le.trapValid ∧ (abortScan s).mem = s.mem := by
  unfold abortScan
  extract_lets _ _ s1 s2
  have h1 : s2.le = s1.le ∧ s2.tick = s1.tick ∧ s2.mem = s1.mem := by
    obtain ⟨hl, ht, hm⟩ := epochClose_rest (if s.le.overran = true then logScan 31 s1 else s1)
    have hlog : (if s.le.overran = true then logScan 31 s1 else s1).le = s1.le ∧ (if s.le.overran = true then logScan 31 s1 else s1).tick = s1.tick ∧
        (if s.le.overran = true then logScan 31 s1 else s1).mem = s1.mem := by split <;> exact ⟨rfl, rfl, rfl⟩
    obtain ⟨hl', ht', hm'⟩ := hlog
    exact ⟨hl.trans hl', ht.trans ht', hm.trans hm'⟩
  obtain ⟨hl, ht, hm⟩ := h1
  obtain ⟨kt, km, x, kl, ktrap, -, krun⟩ := overrunCount_rest s2
  obtain ⟨jl, jt, jm⟩ := twdJudge_rest s2.wd.twdDue (overrunCount s2)
  rw [jl, jt, jm, kl, kt, km, ht, hm, ktrap, hl]
  exact ⟨krun (by rw [hl]), rfl, rfl, rfl⟩

theorem pends_overrunCount (s : State) : Pends s (overrunCount s) :=
  .ite (Pends.of_step (pends_fatalFault 473 0x20 _) rfl) (.of_ev rfl)

/-- The logic engine after a scan has been seen to overrun (R41). -/
def overrunLe (s : State) : LeSt :=
  { s.le with overran := true, overTick := some s.le.scanTick, overTotal := satN 0xFFFF (s.le.overTotal + 1) }

/-- The overrun of a scan with its contained fault (R41, R44). -/
def overrunFault (s : State) : State :=
  containedFault 473 0x18 (fire 473 s.time.ns { s with
    le := overrunLe s, btn := { s.btn with overruns := satN 0xFFFFFFFF (s.btn.overruns + 1) } })

theorem overrunFault_spec (s : State) : (overrunFault s).le.overTotal = min 65535 (s.le.overTotal + 1) ∧
    (473 : BitVec 10) ∈ (overrunFault s).ev.pend ∧ (overrunFault s).mem = s.mem ∧
    (fcuReact s 473 ≠ 2 → (overrunFault s).le = overrunLe s ∧ (overrunFault s).regs = s.regs) := by
  unfold overrunFault
  generalize hu : ({ s with le := overrunLe s, btn := _ } : State) = u
  have hle : u.le = overrunLe s := by rw [← hu]
  have hmem : u.mem = s.mem := by rw [← hu]
  have hregs : u.regs = s.regs := by rw [← hu]
  refine ⟨?_, pends_containedFault _ _ _ _ (mem_fire_pend rfl _), by rw [containedFault_mem, fire_mem, hmem], fun hre => ⟨?_, ?_⟩⟩
  · rcases containedFault_stops 473 0x18 (fire 473 s.time.ns u) with h | ⟨v, h⟩
    · rw [h, fire_le, hle]
      exact satN_eq_min _ _
    · rw [h, stoppedLe, fire_le, hle]
      exact satN_eq_min _ _
  · rw [containedFault_le (by rw [fcuReact, force, fire_regs, hregs]; exact hre), fire_le, hle]
  · obtain ⟨_, _, _, _, _, _, _, _, _, _, _, _, _, _, h⟩ := reacts_containedFault 473 0x18 (fire 473 s.time.ns u)
    rw [h, fire_regs, hregs]

/-- Settles O28: a fresh working state after the swap, and the scan that an overrun leaves. -/
theorem scanStartAndOverrun : Obligations.ScanStartAndOverrun := by
  unfold Obligations.ScanStartAndOverrun
  refine ⟨fun s hdue => ?start, fun s hrun hover htick hnext => ?overrun⟩
  case start =>
    intro x
    have htick : x.tick = s.tick := by
      simp only [x]
      split
      · exact tick_swapNow s
      · rfl
    refine ⟨fun hlen => ?live, fun hlen => ?empty, fun hsw => if_neg (by simp [hsw]), fun hsw hmig => ?swap⟩
    case live =>
      refine ⟨scanFresh x, (if_neg (by simp [hdue])).trans (if_neg hlen), rfl, rfl, rfl, rfl, rfl, rfl, rfl, rfl, rfl, rfl, rfl, ?_, rfl, rfl, rfl⟩
      exact congrArg TickSt.num htick
    case empty =>
      obtain ⟨hrun, hskip, htrap, hmem⟩ := abortScan_spec (recordTraps [(0, 4)] (scanFresh x))
      obtain ⟨htv, htm, -⟩ := recordTraps_one (0, 4) (scanFresh x)
      exact ⟨_, (if_neg (by simp [hdue])).trans (if_pos hlen), hrun, hskip, htrap.trans htv, hmem.trans htm⟩
    case swap =>
      have hx : x = swapLand s := (if_pos hsw).trans (if_pos (by simpa using hmig))
      obtain ⟨-, hland, hid, hmem⟩ := swapLand_spec s
      rw [hx]
      exact ⟨hland, hid, hmem⟩
  case overrun =>
    refine ⟨settle (overrunCount (overrunFault s)), if_pos (by simp [hrun, hover, htick, hnext]), ?_⟩
    obtain ⟨htot, hpend, hmem, hmild⟩ := overrunFault_spec s
    obtain ⟨-, kmem, x, kl, -, ktot, -⟩ := overrunCount_rest (overrunFault s)
    rw [settle_le, settle_mem, kmem, kl]
    refine ⟨ktot.trans htot, pends_settle _ _ (pends_overrunCount _ _ hpend), hmem, fun hre hlim => ?_⟩
    obtain ⟨hle, hregs⟩ := hmild hre
    have hlow : ¬ fld (force (overrunFault s) (aLE + 0x1C)) 24 4 ≤ (overrunFault s).le.overConsec + 1 := by
      rw [hle, force, hregs]
      exact Nat.not_le.mpr hlim
    rw [← kl, overrunCount, if_neg hlow, unhealthy, hle]
    exact ⟨rfl, hrun, satN_eq_min _ _⟩

end Sys2Proof.Machine

/-! ## What the steps of a boundary keep of the tick -/

namespace Sys2Proof.Machine

/-! ### Station time under a reaction -/

theorem ns_setRole (r : Role) (cause : Nat) (s : State) : (setRole r cause s).time = s.time := by
  unfold setRole
  split
  · rfl
  · exact fire_time _ _ _

theorem ns_enterShadow (cause : Nat) (s : State) : (enterShadow cause s).time.ns = s.time.ns := by
  unfold enterShadow
  dsimp only
  rw [notice_time]
  change (setRole .standby cause (editCancel s)).time.ns = s.time.ns
  rw [ns_setRole, editCancel, fireIf_time]

theorem ns_releaseCheck (s : State) : (releaseCheck s).time.ns = s.time.ns := by
  unfold releaseCheck
  dsimp only
  split
  · split
    · exact ns_enterShadow 7 s
    · rfl
  · rfl

theorem time_stopScan (s : State) : (stopScan s).time = s.time := by
  obtain ⟨_, _, _, h⟩ := stopScan_eq s
  rw [h]

theorem time_slcTriggerAll (cause : Nat) (s : State) : (slcTriggerAll cause s).time = s.time := by
  obtain ⟨⟨_, _, _, h⟩, -⟩ := slcTriggerAll_spec cause s
  rw [h]

theorem ns_fatalReact (src reason cause : Nat) (s : State) : (fatalReact src reason cause s).time.ns = s.time.ns := by
  unfold fatalReact
  dsimp only
  generalize hs0 : ({ s with pair := _, fcu := _ } : State) = s0
  have h0 : s0.time = s.time := by rw [← hs0]
  split
  · obtain ⟨_, _, _, _, _, _, _, h⟩ := giveUpOp_eq 1 src reason s0
    rw [h, ns_releaseCheck]
    exact congrArg TimeSt.ns h0
  · change (slcTriggerAll cause (stopScan s0)).time.ns = _
    rw [time_slcTriggerAll, time_stopScan, h0]
  · change (slcTriggerAll cause (stopScan s0)).time.ns = _
    rw [time_slcTriggerAll, time_stopScan, h0]
  · rfl
  · rfl
  · exact (congrArg TimeSt.ns h0 :)

theorem ns_fatalFault (src reason : Nat) (s : State) : (fatalFault src reason s).time.ns = s.time.ns := by
  rw [fatalFault, ns_fatalReact]
  obtain ⟨_, _, _, _, _, _, h⟩ := records_fcuRecord src reason 2 s
  rw [h]

theorem ns_containedFault (src reason : Nat) (s : State) : (containedFault src reason s).time.ns = s.time.ns := by
  have hrec : (fcuRecord src reason 1 s).time = s.time := by
    obtain ⟨_, _, _, _, _, _, h⟩ := records_fcuRecord src reason 1 s
    rw [h]
  unfold containedFault
  dsimp only
  split
  · rw [notice_time, hrec]
  · rw [ns_fatalReact, hrec]
  · rw [hrec]

/-! ### The frame -/

/-- The numbers and the phases of the tick stand, and no scan has begun; with `r` so do the registers but LE_BUDGET and LE_PROG_ID. -/
structure Beats (r : Bool) (s t : State) : Prop where
  tick : ∃ m c k n f e, t.tick = { s.tick with
    missed := m, commitMissed := c, skipCommit := k, runid := n, runidFresh := f, entryTick := e }
  ns : t.time.ns = s.time.ns
  fixed : t.fixed = s.fixed
  regs : r = true → ∀ a, a ≠ aLE + 0x24 → a ≠ aLE + 0x78 → force t a = force s a
  run : s.le.running = false → t.le.running = false
  ovTick : t.le.overTick = s.le.overTick ∨ t.le.overTick = none

section
variable {r : Bool} {s t u : State}

/-- A step whose tick, time, variant and registers stand. -/
theorem Beats.of_le (ht : t.tick = s.tick) (hn : t.time.ns = s.time.ns) (hf : t.fixed = s.fixed) (hr : t.regs = s.regs)
    (hrun : s.le.running = false → t.le.running = false) (hover : t.le.overTick = s.le.overTick ∨ t.le.overTick = none) : Beats r s t where
  tick := ⟨_, _, _, _, _, _, ht⟩
  ns := hn
  fixed := hf
  regs _ a _ _ := by rw [force, force, hr]
  run := hrun
  ovTick := hover

theorem Beats.of_eq (ht : t.tick = s.tick) (hn : t.time.ns = s.time.ns) (hf : t.fixed = s.fixed) (hr : t.regs = s.regs)
    (hl : t.le = s.le) : Beats r s t :=
  .of_le ht hn hf hr (by rw [hl]; exact id) (.inl (by rw [hl]))

protected theorem Beats.refl (s : State) : Beats r s s := .of_eq rfl rfl rfl rfl rfl

protected theorem Beats.trans (h : Beats r s t) (k : Beats r t u) : Beats r s u where
  tick := by
    obtain ⟨_, _, _, _, _, _, h⟩ := h.tick
    obtain ⟨_, _, _, _, _, _, k⟩ := k.tick
    rw [k, h]
    exact ⟨_, _, _, _, _, _, rfl⟩
  ns := k.ns.trans h.ns
  fixed := k.fixed.trans h.fixed
  regs hr a h1 h2 := (k.regs hr a h1 h2).trans (h.regs hr a h1 h2)
  run := k.run ∘ h.run
  ovTick := k.ovTick.elim (fun e => h.ovTick.imp e.trans e.trans) .inr

theorem Beats.before (k : Beats r t u) (h : Beats r s t) : Beats r s u := h.trans k

theorem Beats.ite {p : Prop} [Decidable p] (ht : Beats r s t) (hu : Beats r s u) : Beats r s (if p then t else u) := by
  split
  exacts [ht, hu]

theorem Beats.foldl {β : Type} (f : State → β → State) (hf : ∀ a b, Beats r a (f a b)) (l : List β) (s : State) :
    Beats r s (l.foldl f s) := by
  induction l generalizing s with
  | nil => exact .refl s
  | cons b l ih => exact (hf s b).trans (ih _)

theorem Reports.beats (h : Reports s t) : Beats r s t := by
  obtain ⟨_, _, _, _, rfl⟩ := h
  exact .of_eq rfl rfl rfl rfl rfl

theorem Talks.beats (h : Talks s t) : Beats r s t := by
  obtain ⟨_, _, _, _, _, rfl⟩ := h
  exact .of_eq rfl rfl rfl rfl rfl

theorem Settles.beats (h : Settles s t) : Beats r s t := by
  obtain ⟨_, _, _, _, _, _, _, rfl⟩ := h
  exact .of_eq rfl rfl rfl rfl rfl

theorem StoreFrame.beats (h : StoreFrame s t) : Beats r s t := by
  obtain ⟨_, _, _, _, _, _, rfl, -⟩ := h
  exact .of_eq rfl rfl rfl rfl rfl

/-- A reaction that leaves station time, and the logic engine or its scan stopped. -/
theorem Reacts.beats (h : Reacts s t) (hn : t.time.ns = s.time.ns)
    (hl : t.le = s.le ∨ ∃ u, t.le = { stoppedLe s with uncommitted := u }) : Beats r s t := by
  have hrun : s.le.running = false → t.le.running = false := fun h => by
    rcases hl with e | ⟨_, e⟩ <;> rw [e]
    exacts [h, rfl]
  have hover : t.le.overTick = s.le.overTick := by
    rcases hl with e | ⟨_, e⟩ <;> rw [e]
    rfl
  obtain ⟨_, _, _, _, _, _, _, _, _, _, _, _, _, _, rfl⟩ := h
  exact .of_le rfl hn rfl rfl hrun (.inl hover)

end

/-! ### Faults and the copy engine -/

section
variable {r : Bool}

theorem beats_fatalFault (src reason : Nat) (s : State) : Beats r s (fatalFault src reason s) :=
  (reacts_fatalFault src reason s).beats (ns_fatalFault src reason s) (fatalFault_le src reason s)

theorem beats_containedFault (src reason : Nat) (s : State) : Beats r s (containedFault src reason s) :=
  (reacts_containedFault src reason s).beats (ns_containedFault src reason s) (containedFault_stops src reason s)

theorem beats_accessRefused (m a : Nat) (wr : Bool) (s : State) : Beats r s (accessRefused m a wr s) := by
  unfold accessRefused freezeMaster
  dsimp only
  refine .ite (.refl s) (.ite ?_ ?_)
  · exact (beats_fatalFault _ _ _).before ((reports_fire _ _ _).beats.before (.of_eq rfl rfl rfl rfl rfl))
  · exact (beats_containedFault _ _ _).before ((reports_fire _ _ _).beats.before (.of_eq rfl rfl rfl rfl rfl))

theorem beats_memFault (s : State) (f : Nat × Nat) : Beats r s (memFault s f) := by
  have hc : ∀ u : State, Beats r u (corrected u) := fun u => (reports_fireIf _ _ _).beats.before (.of_eq rfl rfl rfl rfl rfl)
  have hs : ∀ (a : Nat) (u : State), Beats r u (sramCount a u) := fun a u =>
    (reports_fireIf _ _ _).beats.before ((reports_noticeIf _ _ _ _ _ _).beats.before (.of_eq rfl rfl rfl rfl rfl))
  unfold memFault
  refine .ite ((hc s).trans (hs _ _)) (.ite ?_ (.ite (beats_fatalFault _ _ _) (beats_containedFault _ _ _)))
  exact (hs _ _).before ((hc _).before (.of_eq rfl rfl rfl rfl rfl))

theorem beats_recordReadFaults (l : List (Nat × Nat)) (s : State) : Beats r s (recordReadFaults l s) := .foldl _ beats_memFault l s

theorem beats_engAct (a : Nat) (wr : Bool) {f : State → State} (hf : ∀ u, Beats r u (f u)) (s : State) : Beats r s (engAct a wr f s) :=
  .ite (hf s) (beats_accessRefused _ _ _ s)

theorem beats_writeWord (a : Nat) (w : DWord) (s : State) : Beats r s (writeWord a w s) := (storeFrame_writeBits _ _ _ _ s).beats

theorem beats_migStep (e : MigEntry) (s : State) (i : Nat) : Beats r s (migStep e s i) := by
  have hput : ∀ u : State, Beats r u (engAct (e.dst + i) true (writeWord (e.dst + i) (migConv e (readWord s (e.src + i)))) u) :=
    beats_engAct _ _ (beats_writeWord _ _)
  unfold migStep
  exact .ite (hput s) (beats_engAct _ _ (fun u => (beats_recordReadFaults _ u).trans (hput _)) s)

theorem beats_migRun (m : MigRef) (s : State) : Beats r s (migRun m s) :=
  (beats_recordReadFaults _ s).trans (.foldl _ (fun a e => .foldl (migStep e) (beats_migStep e) _ a) _ _)

theorem beats_migApply (s : State) : Beats r s (migApply s) :=
  .ite (beats_migRun _ s) ((beats_migRun s.edit.mig s).trans (.of_eq rfl rfl rfl rfl rfl))

theorem force_regPut_other {s : State} {a b : Nat} (h : b ≠ a) (v : Word) : force (regPut s a v) b = force s b := mget_mput_other _ h

theorem beats_swapLand (s : State) : Beats r s (swapLand s) := by
  have hout : ∀ (e : EditMsg) (u : State), Beats r u (editOut e u) := fun e u => .ite (.of_eq rfl rfl rfl rfl rfl) (.refl u)
  have hput : Beats r s (regPut s (aLE + 0x24) (s.edit.newBudget.zeroExtend 32)) :=
    { tick := ⟨_, _, _, _, _, _, rfl⟩, ns := rfl, fixed := rfl, regs := fun _ a ha _ => force_regPut_other ha _
      run := id, ovTick := .inl rfl }
  unfold swapLand
  dsimp only
  refine (reports_fire _ _ _).beats.before ((hout _ _).before (hput.trans ?_))
  exact .of_le rfl rfl rfl rfl id (.inl rfl)

theorem beats_swapNow (s : State) : Beats r s (swapNow s) :=
  .ite (beats_swapLand s) (.ite ((beats_migApply s).trans (beats_swapLand _)) ((beats_migApply s).trans (settles_settle _).beats))

end

end Sys2Proof.Machine

/-! ## The boundary of a tick -/

namespace Sys2Proof.Machine

/-- A step that may change registers. -/
theorem Beats.loose {s t : State} (ht : t.tick = s.tick) (hn : t.time = s.time) (hf : t.fixed = s.fixed)
    (hrun : t.le.running = s.le.running) (hover : t.le.overTick = s.le.overTick) : Beats false s t where
  tick := ⟨_, _, _, _, _, _, ht⟩
  ns := by rw [hn]
  fixed := hf
  regs h := absurd h (by decide)
  run := by rw [hrun]; exact id
  ovTick := .inl hover

section
variable {r : Bool}

/-! ### Settings in force -/

theorem beats_settleStart (n : Nat) (c : Bool) (s : State) : Beats r s (settleStart n c s) := by
  unfold settleStart
  dsimp only
  exact (reports_fireIf _ _ _).beats.before (settles_chPut _ _ _).beats

theorem beats_settleNew (old : State) (first : Bool) (s : State) (n : Nat) : Beats r s (settleNew old first s n) := by
  unfold settleNew
  dsimp only
  exact .ite ((beats_settleStart n _ s).trans (settles_chPut _ _ _).beats) (beats_settleStart n _ s)

theorem beats_settingsTurn (old : State) (first : Bool) (s : State) : Beats r s (settingsTurn old first s) := by
  have hall : ∀ u : State, Beats r u (settleAll old first u) := fun u =>
    .foldl _ (fun a n => .ite (beats_settleNew _ _ _ _)
      (.ite (settles_chPut _ _ _).beats (.ite (settles_chPut _ _ _).beats (.refl a)))) _ u
  have hdone : ∀ u : State, Beats r u (reloadDone u) := fun u =>
    .foldl _ (fun a g => .ite (.of_eq (t := grPut a g { gr a g with reload := false }) rfl rfl rfl rfl rfl) (.refl a)) _ u
  unfold settingsTurn
  exact (hdone _).before ((hall _).before (.of_eq rfl rfl rfl rfl rfl))

theorem beats_landSettings (s : State) : Beats false s (landSettings s) := by
  have htake : ∀ (sel : Nat → Bool) (c : CfgSlot) (u : State), Beats false u (takeSettings sel c u) := fun _ _ _ => .loose rfl rfl rfl rfl rfl
  have hpart : ∀ (p : Prop) [Decidable p] (sel : Nat → Bool) (c : CfgSlot) (u : State),
      Beats false u (if p then takeSettings sel c u else u) := fun p _ sel c u => .ite (htake _ _ _) (.refl u)
  have hpart5 : ∀ (p : Prop) [Decidable p] (c : CfgSlot) (u : State), Beats false u
      (if p then { takeSettings (fun x => fabricAddr x && isRwl x) c u with
        slc := { (takeSettings (fun x => fabricAddr x && isRwl x) c u).slc with parityBad := [] } } else u) := fun p _ c u =>
    .ite (.loose rfl rfl rfl rfl rfl) (.refl u)
  have hpanel : ∀ (c : CfgSlot) (u : State), Beats false u (takePanel c u) := fun c u => by
    unfold takePanel
    extract_lets s1 chg
    have h1 : Beats false u s1 := htake _ c u
    clear_value chg s1
    exact h1.trans (.of_eq rfl rfl rfl rfl rfl)
  unfold landSettings
  split
  · dsimp only
    exact .ite (((hpart _ _ _ s).trans (hpart5 _ _ _)).trans (hpanel _ _)) ((hpart _ _ _ s).trans (hpart5 _ _ _))
  · exact .refl s

/-! ### The entry to RUN -/

theorem beats_initWord (s : State) (p : Nat × DWord) : Beats r s (initWord s p) :=
  .ite (.of_eq rfl rfl rfl rfl rfl) (.ite (.of_eq rfl rfl rfl rfl rfl) (.refl s))

theorem beats_coldMemory (s : State) : Beats r s (coldMemory s) := by
  have h1 : ∀ u : State, Beats r u (u.sys.initMem.foldl initWord u) := fun u => .foldl _ beats_initWord _ u
  unfold coldMemory
  extract_lets _ s1
  have hs1 : Beats r s s1 := .before (.foldl _ beats_initWord _ _) (.of_eq rfl rfl rfl rfl rfl)
  exact .ite hs1 (.ite (hs1.trans (.foldl _ beats_initWord _ _)) (hs1.trans (reports_notice _ _ _ _ _).beats))

theorem beats_clearRunids (s : State) : Beats r s (clearRunids s) := by
  unfold clearRunids
  split
  · exact .refl s
  · split
    · exact beats_accessRefused _ _ _ s
    · exact .of_eq rfl rfl rfl rfl rfl

theorem beats_runState (s : State) : Beats r s (runState s) where
  tick := ⟨_, _, _, _, _, _, rfl⟩
  ns := rfl
  fixed := rfl
  regs _ _ _ _ := rfl
  run _ := rfl
  ovTick := .inr rfl

theorem beats_enterRun (cold : Bool) (s : State) : Beats r s (enterRun cold s) := by
  unfold enterRun
  split
  · exact (reports_notice _ _ _ _ _).beats.before (.of_le rfl rfl rfl rfl id (.inl rfl))
  · extract_lets warm fresh differs s1 s2 s3
    have h1 : Beats r s s1 := .ite (beats_clearRunids s) (.refl s)
    have h2 : Beats r s s2 := .ite h1 (h1.trans (beats_coldMemory s1))
    have h3 : Beats r s s3 := (beats_runState _).before
      (.trans (h2.trans (reports_noticeIf differs 0x05 noSrc 2 0 s2).beats) (.of_eq rfl rfl rfl rfl rfl))
    exact h3.trans
      { tick := ⟨_, _, _, _, _, _, rfl⟩, ns := rfl, fixed := rfl, regs := fun _ _ _ _ => rfl, run := id, ovTick := .inl rfl }

theorem beats_enterShadow (cause : Nat) (s : State) : Beats r s (enterShadow cause s) := by
  have hcancel : Beats r s (editCancel s) := (reports_fireIf _ _ _).beats.before (.of_eq rfl rfl rfl rfl rfl)
  have hrole : ∀ u : State, Beats r u (setRole .standby cause u) := fun u =>
    .ite (.refl u) ((reports_fire _ _ _).beats.before (.of_eq rfl rfl rfl rfl rfl))
  unfold enterShadow
  dsimp only
  exact (reports_notice _ _ _ _ _).beats.before ((hcancel.trans (hrole _)).trans (.of_le rfl rfl rfl rfl id (.inl rfl)))

theorem beats_stopScan (s : State) : Beats r s (stopScan s) := by
  obtain ⟨_, _, _, h⟩ := stopScan_eq s
  rw [h]
  exact .of_le rfl rfl rfl rfl (fun _ => rfl) (.inl rfl)

theorem beats_mergeStanding (s : State) : Beats r s (mergeStanding s) := by
  have hmerge : Beats r s (mergeEnd s) := by
    unfold mergeEnd
    dsimp only
    refine .ite (.ite ?_ ?_) (.refl s)
    · exact (reports_notice _ _ _ _ _).beats.before ((settles_settle _).beats.before
        ((beats_enterShadow 8 _).before ((beats_stopScan _).before (reports_fire _ _ _).beats)))
    · exact (reports_notice _ _ _ _ _).beats.before (reports_fire _ _ _).beats
  exact .ite hmerge (.refl s)

/-! ### An update that lands -/

theorem beats_updTo (p : UpdPhase) (n : Nat) (s : State) : Beats r s (updTo p n s) := by
  obtain ⟨_, _, _, _, _, _, h⟩ := records_updTo p n s
  rw [h]
  exact .of_eq rfl rfl rfl rfl rfl

theorem beats_slcTriggerMask (cause : Nat) (m : Word) (s : State) : Beats r s (slcTriggerMask cause m s) := by
  have hstart : ∀ (a : State) (g : Nat), Beats r a (slcStartGrp cause true a g) := fun a g =>
    .ite ((reports_fireIf _ _ _).beats.before (.of_eq rfl rfl rfl rfl rfl)) (.refl a)
  unfold slcTriggerMask
  dsimp only
  exact .ite ((Beats.foldl _ hstart _ _).before (.of_eq rfl rfl rfl rfl rfl)) (.of_eq rfl rfl rfl rfl rfl)

theorem beats_editSupersede (s : State) : Beats r s (editSupersede s) :=
  (reports_fire _ _ _).beats.before (.of_eq rfl rfl rfl rfl rfl)

theorem beats_regPut (a : Nat) (v : Word) (s : State) : Beats false s (regPut s a v) := .loose rfl rfl rfl rfl rfl

theorem beats_takeProgram (c : CfgSlot) (s : State) : Beats false s (takeProgram c s) := by
  unfold takeProgram
  extract_lets d s0 s1 s2
  have h0 : Beats false s s0 := .of_eq rfl rfl rfl rfl rfl
  have h1 : Beats false s s1 := .ite h0 (h0.trans (beats_migRun _ _))
  have h2 : Beats false s1 s2 := beats_regPut _ _ s1
  clear_value s2 d s1
  exact (h1.trans h2).trans (.of_le rfl rfl rfl rfl id (.inl rfl))

theorem beats_txAbort (b e : Nat) (s : State) : Beats r s (txAbort b e s) := by
  unfold txAbort
  dsimp only
  exact .ite ((reports_fireIf _ _ _).beats.before (talks_txPut _ _ _ _).beats) (.refl s)

theorem beats_cpReset (cause : Nat) (s : State) : Beats false s (cpReset cause s) := by
  unfold cpReset
  extract_lets s0 s1 msg
  have h0 : Beats false s s0 := .foldl _ (fun a b => .foldl _ (fun a e => beats_txAbort b e a) _ a) _ s
  have h1 : Beats false s s1 := h0.trans (.foldl _ (fun a u => beats_regPut _ _ a) _ _)
  clear_value s1
  exact (settles_settle _).beats.before (h1.trans (.loose rfl rfl rfl rfl rfl))

theorem beats_actLand (s : State) : Beats false s (actLand s) := by
  have hprob : Beats false s (probation s) := (beats_updTo _ _ _).before (.of_eq rfl rfl rfl rfl rfl)
  have hstop : ∀ u : State, Beats false u (stopForReset 6 u) := fun u =>
    .trans (t := if inRun u = true then slcStartTables u else u) (.ite (beats_slcTriggerMask _ _ u) (.refl u)) (.of_eq rfl rfl rfl rfl rfl)
  have hslot : ∀ (c : CfgSlot) (u : State), Beats false u (takeSlot c u) := fun _ _ => .loose rfl rfl rfl rfl rfl
  have hrest : ∀ u : State, Beats false u (landRest u) := fun u => by
    unfold landRest
    extract_lets a b
    have ha : Beats false u a := beats_editSupersede u
    have hb : Beats false u b := by
      simp only [b]
      split
      · exact .trans (.ite (ha.trans (beats_takeProgram _ a)) ha) (hslot _ _)
      · exact ha
    exact (beats_cpReset 4 _).before (hb.trans (.of_eq rfl rfl rfl rfl rfl))
  unfold actLand
  exact .ite (hprob.trans ((beats_editSupersede _).trans (hstop _))) (hprob.trans (hrest _))

end

end Sys2Proof.Machine

/-! ## The boundary of a tick: the obligation -/

namespace Sys2Proof.Machine

section
variable {r : Bool}

theorem beats_leBoundary (s : State) : Beats r s (leBoundary s) := .of_le rfl rfl rfl rfl id (.inl rfl)

theorem beats_listenStart (s : State) : Beats r s (listenStart s) := .ite (.of_eq rfl rfl rfl rfl rfl) (.refl s)

theorem beats_twdBoundary (s : State) : Beats r s (twdBoundary s) := by
  have hcycle : ∀ (a : State) (k : Nat), Beats r a (twdCycle k a) := fun a k => .ite (.of_eq rfl rfl rfl rfl rfl) (.refl a)
  refine .ite (.of_eq rfl rfl rfl rfl rfl) (.ite (.of_eq rfl rfl rfl rfl rfl) ?_)
  exact (Beats.foldl _ hcycle _ _).before (.of_eq rfl rfl rfl rfl rfl)

theorem beats_lagFollow (s : State) : Beats r s (lagFollow s) := by
  have hcur : ∀ u : State, Beats r u (currentFollow u) := fun u => .ite (.of_eq rfl rfl rfl rfl rfl) (.refl u)
  exact .ite ((hcur _).before (.of_eq rfl rfl rfl rfl rfl)) (.refl s)

theorem beats_shipStart (s : State) : Beats r s (shipStart s) := .ite (.of_eq rfl rfl rfl rfl rfl) (.refl s)

theorem beats_latchNode (s : State) (k : Nat) : Beats r s (latchNode s k) := by
  have hput : ∀ x : NodeSt, Beats r s (ndPut s k x) := fun _ => .of_eq rfl rfl rfl rfl rfl
  unfold latchNode
  dsimp only
  exact .ite (hput _) (.ite ((hput _).trans (talks_nodeEvent 28 k _).beats) (hput _))

/-- What the input latch leaves: the image of the tick, in the buffer that the logic engine reads where the buffers are exchanged. -/
theorem inputLatch_spec (s : State) : ∃ u : State, Beats r s u ∧ (inputLatch s).tick = u.tick ∧ (inputLatch s).img.lastLatch = u.tick.num ∧
    Beats r u (inputLatch s) ∧ (u.le.running = false → heldOver u = false → (inputLatch s).img.cur = mkImage u) := by
  unfold inputLatch
  extract_lets s1 _ s2 im again
  have h1 : Beats r s s1 := .foldl _ beats_latchNode _ s
  refine ⟨s2, h1.trans (.of_eq rfl rfl rfl rfl rfl), rfl, rfl, .of_eq rfl rfl rfl rfl rfl, fun hrun hheld => if_neg (by simp [hrun, hheld])⟩

end

/-- The words of the image that name the tick, and those of channels that are not there (R5, R37). -/
theorem mkImage_words (s : State) :
    mget (fun _ => unconfWord) (mkImage s).sys 0 = ⟨BitVec.ofNat 32 s.tick.num, 0⟩ ∧
    mget (fun _ => unconfWord) (mkImage s).sys 2 = ⟨BitVec.ofNat 32 s.tick.t0, 0⟩ ∧
    mget (fun _ => unconfWord) (mkImage s).sys 4 = ⟨BitVec.ofNat 32 s.tick.period, 0⟩ ∧
    ∀ n, nCh s ≤ n → n < 256 → mget (fun _ => unconfWord) (mkImage s).chan n = ⟨0, 12⟩ := by
  unfold mkImage
  extract_lets chan nodeIn
  refine ⟨?_, ?_, ?_, fun n hle hlt => ?_⟩
  · exact (mget_mtab _ _ (by decide)).trans rfl
  · exact (mget_mtab _ _ (by decide)).trans rfl
  · exact (mget_mtab _ _ (by decide)).trans rfl
  · refine (mget_mtab _ _ hlt).trans ?_
    exact if_neg (Nat.not_lt.mpr hle)

/-- The tick that begins at a boundary, with the settings that are now in force. -/
theorem tickStep_spec (s : State) :
    (tickStep s).tick.on = true ∧ (tickStep s).tick.num = (if s.tick.on then s.tick.num + 1 else 0) ∧
    (tickStep s).tick.tbase = (if s.tick.on then s.tick.tbase + BitVec.ofNat 32 s.tick.period else s.tick.tbase) ∧
    (s.time.pending = none → (tickStep s).tick.t0 = s.tick.next ∧
      (tickStep s).tick.next = s.tick.next + 1000 * (tickStep s).tick.period ∧ (tickStep s).time.ns = s.time.ns ∧
      (tickStep s).tick.period = (if s.tick.next % 1000000000 = 0 then (written s (aLE + 8)).toNat % 131072 else s.tick.period)) ∧
    (tickStep s).tick.commitDone = false ∧ (tickStep s).tick.scanDone = false ∧ (tickStep s).tick.evalDone = false ∧
    (tickStep s).le = s.le ∧ (tickStep s).regs = s.regs ∧ (tickStep s).fixed = s.fixed ∧ (tickStep s).upd = s.upd := by
  have hload : ∀ d src, (loadTime d src s).le = s.le ∧ (loadTime d src s).regs = s.regs ∧ (loadTime d src s).fixed = s.fixed ∧
      (loadTime d src s).upd = s.upd := fun d src => by
    unfold loadTime
    extract_lets mv _ _ _ s1
    obtain ⟨_, _, h⟩ := fire_eq 489 s1.time.ns s1
    rw [h]
    exact ⟨rfl, rfl, rfl, rfl⟩
  unfold tickStep
  extract_lets first old s1 t0 want p num next
  have h1 : s1.le = s.le ∧ s1.regs = s.regs ∧ s1.fixed = s.fixed ∧ s1.upd = s.upd := by
    simp only [s1]
    split
    · exact hload _ _
    · exact ⟨rfl, rfl, rfl, rfl⟩
  refine ⟨rfl, ?_, ?_, fun hp => ?_, rfl, rfl, rfl, h1⟩
  · by_cases hon : s.tick.on = true <;> simp [num, first, hon]
  · by_cases hon : s.tick.on = true
    · simp only [first, hon, Bool.not_true, Bool.false_eq_true, if_false, if_true]
      rfl
    · simp [first, hon]
  · have hs1 : s1 = s := by
      simp only [s1]
      rw [hp]
    have ht0 : t0 = s.tick.next := by simp [t0, hp]
    refine ⟨ht0, ?_, by rw [hs1], ?_⟩
    · simp [next, hp, ht0]
    · simp only [p, ht0, want, old, fld_eq, Nat.pow_zero, Nat.div_one, Nat.reducePow]

/-- The state that a boundary hands to the input latch. -/
def beforeLatch (s : State) : State :=
  let s1 := leBoundary (settingsTurn s (!s.tick.on) (actSettings (regLatch (tickStep s))))
  let s2 := if !s.tick.on then listenStart s1 else s1
  let s3 := if runDue s2 then mergeStanding (enterRun s2.pair.r220 s2) else s2
  let s4 := if actDue (tickStep s) then actLand s3 else if swapDue s3 then swapNow s3 else s3
  lagFollow (twdBoundary { s4 with wd := { s4.wd with bwdFrom := s4.time.cyc, bwdHalf := false } })

theorem exec_tickBoundary {s : State} (h : boundaryDue s = true) :
    exec .tickBoundary s = .next (settle (shipStart (inputLatch (beforeLatch s)))) := if_neg (by simp [h])

/-- A set that lands may change registers; without one only LE_BUDGET and LE_PROG_ID may (R9, R363). -/
theorem beats_beforeLatch (s : State) : Beats (decide (s.upd.phase ≠ .armed)) (regLatch (tickStep s)) (beforeLatch s) := by
  obtain ⟨-, -, -, -, -, -, -, -, -, -, hupd⟩ := tickStep_spec s
  have hact : s.upd.phase ≠ .armed → ∀ u : State, u.upd = s.upd → actDue u = false := fun h u hu => by simp [actDue, hu, h]
  have hset : Beats (decide (s.upd.phase ≠ .armed)) (regLatch (tickStep s)) (actSettings (regLatch (tickStep s))) := by
    by_cases harm : s.upd.phase = .armed
    · rw [decide_eq_false (not_not.mpr harm)]
      exact .ite (beats_landSettings _) (.refl _)
    · rw [actSettings, hact harm (regLatch (tickStep s)) hupd]
      exact .refl _
  unfold beforeLatch
  extract_lets s1 s2 s3 s4
  have h1 : Beats (decide (s.upd.phase ≠ .armed)) (regLatch (tickStep s)) s1 :=
    (hset.trans (beats_settingsTurn s (!s.tick.on) _)).trans (beats_leBoundary _)
  have h2 : Beats (decide (s.upd.phase ≠ .armed)) (regLatch (tickStep s)) s2 := .ite (h1.trans (beats_listenStart s1)) h1
  have h3 : Beats (decide (s.upd.phase ≠ .armed)) (regLatch (tickStep s)) s3 :=
    .ite (h2.trans ((beats_enterRun _ s2).trans (beats_mergeStanding _))) h2
  have h4 : Beats (decide (s.upd.phase ≠ .armed)) (regLatch (tickStep s)) s4 := by
    have hswap := Beats.ite (p := swapDue s3 = true) (h3.trans (beats_swapNow s3)) h3
    by_cases harm : s.upd.phase = .armed
    · rw [decide_eq_false (not_not.mpr harm)] at h3 hswap ⊢
      exact .ite (h3.trans (beats_actLand s3)) hswap
    · simp only [s4]
      rw [hact harm _ hupd]
      exact hswap
  exact (beats_lagFollow _).before ((beats_twdBoundary _).before (h4.trans (.of_eq rfl rfl rfl rfl rfl)))

theorem settle_img (s : State) : (settle s).img.lastLatch = s.img.lastLatch ∧ (settle s).img.cur = s.img.cur := by
  obtain ⟨_, _, _, _, _, _, _, h⟩ := settles_settle s
  rw [h]
  exact ⟨rfl, rfl⟩

theorem shipStart_img (s : State) : (shipStart s).img = s.img := by
  unfold shipStart
  split <;> rfl

/-- The tick that the boundary begins, the state that its image is made of, and what it ends with. -/
theorem boundary_result (s : State) : ∃ u, Beats (decide (s.upd.phase ≠ .armed)) (regLatch (tickStep s)) u ∧
    Beats (decide (s.upd.phase ≠ .armed)) u (settle (shipStart (inputLatch (beforeLatch s)))) ∧
    (settle (shipStart (inputLatch (beforeLatch s)))).img.lastLatch = u.tick.num ∧
    (u.le.running = false → heldOver u = false → (settle (shipStart (inputLatch (beforeLatch s)))).img.cur = mkImage u) := by
  obtain ⟨u, hu, -, hlast, hub, hcur⟩ := inputLatch_spec (r := decide (s.upd.phase ≠ .armed)) (beforeLatch s)
  obtain ⟨hl, hc⟩ := settle_img (shipStart (inputLatch (beforeLatch s)))
  rw [shipStart_img] at hl hc
  exact ⟨u, (beats_beforeLatch s).trans hu, (hub.trans (beats_shipStart _)).trans (settles_settle _).beats, hl.trans hlast,
    fun hrun hheld => hc.trans (hcur hrun hheld)⟩

/-- The settings of the registers are in force from a boundary on (R9). -/
theorem regLatch_spec (s : State) : (regLatch s).tick = s.tick ∧ (regLatch s).le = s.le ∧ (regLatch s).time = s.time ∧
    (regLatch s).fixed = s.fixed ∧ ∀ a, force (regLatch s) a = written s a := ⟨rfl, rfl, rfl, rfl, fun _ => rfl⟩

/-- Settles O26: the tick begins with `tickStep`, what follows keeps its numbers, and the latch takes them into the image. -/
theorem tickBoundary : Obligations.TickBoundary := by
  unfold Obligations.TickBoundary
  intro s hpow hres hini hsl hon hnext
  have hdue : boundaryDue s = true := by simpa [boundaryDue, hpow, hres, hini, hsl, hnext] using hon
  obtain ⟨ton, tnum, ttb, tpend, tcd, tsd, ted, hle, hregs, hfix, -⟩ := tickStep_spec s
  obtain ⟨rtick, rle, rtime, rfix, rforce⟩ := regLatch_spec (tickStep s)
  obtain ⟨u, hbase, hend, hlast, hcur⟩ := boundary_result s
  refine ⟨_, exec_tickBoundary hdue, ?_⟩
  have hwr : ∀ a, written (tickStep s) a = written s a := fun a => by rw [written, written, hregs]
  generalize settle (shipStart (inputLatch (beforeLatch s))) = t at hend hlast hcur ⊢
  generalize regLatch (tickStep s) = b at hbase rtick rle rtime rfix rforce
  generalize tickStep s = d at *
  have hall := hbase.trans hend
  obtain ⟨_, _, _, _, _, _, hk⟩ := hall.tick
  obtain ⟨_, _, _, _, _, _, hku⟩ := hbase.tick
  rw [rtick] at hk hku
  rw [hk]
  refine ⟨ton, tnum, ttb, fun hp => ?_, tcd, tsd, ted, fun harm a h1 h2 => ?_, ?_, fun hrun hno => ?_⟩
  · obtain ⟨h1, h2, h3, h4⟩ := tpend hp
    exact ⟨h1, h2, hall.ns.trans ((congrArg TimeSt.ns rtime).trans h3), h4⟩
  · exact (hall.regs (by simpa using harm) a h1 h2).trans ((rforce a).trans (hwr a))
  · rw [hlast, hku]
  · intro sys
    have hleb : b.le = s.le := rle.trans hle
    have hrunu : u.le.running = false := hbase.run (by rw [hleb]; exact hrun)
    have hheld : heldOver u = false := by
      unfold heldOver
      rcases hbase.ovTick with ho | ho <;> rw [ho]
      rw [hleb, hku]
      dsimp only
      rw [tnum]
      split
      · next n hn => exact decide_eq_false (hno n hn)
      · rfl
    obtain ⟨w0, w2, w4, wch⟩ := mkImage_words u
    rw [hku] at w0 w2 w4
    rw [nCh_congr (hbase.fixed.trans (rfix.trans hfix))] at wch
    simp only [sys, hcur hrunu hheld]
    exact ⟨w0, w2, w4, wch⟩

end Sys2Proof.Machine

/-! ## A migration that reads a corrected bundle -/

namespace Sys2Proof.Machine

/-- A commit is pending whose table of one entry copies word 0x8000 to word 0x8001; the windows of the copy engine allow it nothing, and the
first word of the table has a single-bit error (R119, R284, R298). -/
def migWitness : State :=
  { State.reset with
    regs := { written := [], force := [(aPROT, 4)] }
    edit := { State.reset.edit with phase := .pending, mig := { base := 0, entries := 1 } }
    mem := { State.reset.mem with prog := [(0, 0x10002), (1, 0x8000), (2, 0x8001)], upset := [(progKey 0, 1)] } }

/-- The entry of that table. -/
def migWitnessEntry : MigEntry := { op := .copy, tag := 0, count := 1, src := 0x8000, dst := 0x8001, value := 0 }

/-- The command leaves no word with an error. -/
def endsUpsets (o : Out) : Bool :=
  match o with
  | .next t => t.mem.upset.isEmpty
  | _ => false

/-- The model's run: the error of the table's bundle is corrected and written back. -/
theorem migrationApply_migWitness : endsUpsets (exec .migrationApply migWitness) = true := by decide +kernel

/-- Refutes O31: a table whose bundle has a single-bit error is read before the engine is refused its word, and the corrected bundle is written
back, so that the data memory does not stand. -/
theorem not_editSwapAndMigration : ¬ Obligations.EditSwapAndMigration := by
  unfold Obligations.EditSwapAndMigration
  intro h
  obtain ⟨-, -, hrefused, -⟩ := h migWitness
  obtain ⟨t, ht, -, -, hmem⟩ := hrefused migWitnessEntry (by decide +kernel) (by decide +kernel) rfl (by decide) (by decide +kernel)
    (.inl (by decide +kernel))
  have hrun := migrationApply_migWitness
  rw [ht, endsUpsets, hmem] at hrun
  exact absurd hrun (by decide)

end Sys2Proof.Machine

/-! ## The edit commands -/

namespace Sys2Proof.Machine

/-- A row that needs ENGINEER is carried out where a session holds it and the CP's access is made. -/
theorem svcRow_edit {s : State} (h : rowMay s .editOpen = true) (o : Out) : svcRow 4 (aLE + 0x40) true s o = o := by
  have hheld : sessionHolds s 4 = true := by
    simp only [rowMay, Bool.and_eq_true] at h
    obtain ⟨hr, -⟩ := h
    simpa [rowHeld, rowRoles] using hr
  rw [svcRow, if_pos hheld]
  exact cpRow_of_rowMay rfl h o

/-- A refused command changes the code alone, and event 475 tells of it (R111). -/
theorem editRefuse_spec (c : Byte) (s : State) : (editRefuse c s).edit = { s.edit with code := c } ∧
    (475 : BitVec 10) ∈ (editRefuse c s).ev.pend ∧ (editRefuse c s).mem = s.mem := by
  obtain ⟨_, _, h⟩ := fire_eq 475 s.time.ns { s with edit := { s.edit with code := c } }
  refine ⟨?_, mem_fire_pend rfl _, fire_mem _ _ _⟩
  rw [editRefuse, h]

theorem refused_of_eq {s : State} {i : Instr} {c : Byte} (h : exec i s = .next (editRefuse c s)) :
    ∃ t, exec i s = .next t ∧ t.edit = { s.edit with code := c } ∧ (475 : BitVec 10) ∈ t.ev.pend ∧ t.mem = s.mem :=
  ⟨_, h, editRefuse_spec c s⟩

/-- What is told to the partner leaves the edit and the data memory. -/
theorem partnerLow_rest (l : List LinkJob) (s : State) : (partnerLow l s).edit = s.edit ∧ (partnerLow l s).mem = s.mem := by
  have hfold : ∀ (l : List LinkJob) (u : State), ∃ p, l.foldl (fun a j => sendLow j a) u = { u with pair := p } := by
    intro l
    induction l with
    | nil => exact fun u => ⟨u.pair, rfl⟩
    | cons j l ih =>
      intro u
      obtain ⟨p, hp⟩ := ih (sendLow j u)
      exact ⟨p, by rw [List.foldl_cons, hp]; rfl⟩
  unfold partnerLow
  split
  · obtain ⟨p, hp⟩ := hfold l s
    rw [hp]
    exact ⟨rfl, rfl⟩
  · exact ⟨rfl, rfl⟩

theorem editOut_rest (e : EditMsg) (s : State) : (editOut e s).edit = s.edit ∧ (editOut e s).mem = s.mem := by
  unfold editOut
  split <;> exact ⟨rfl, rfl⟩

/-- An outcome that the partner is told of. -/
theorem told {s u : State} {i : Instr} {e : EditSt} (l : List LinkJob) (h : exec i s = .next (partnerLow l u)) (he : u.edit = e)
    (hm : u.mem = s.mem) : ∃ t, exec i s = .next t ∧ t.mem = s.mem ∧ t.edit = e := by
  obtain ⟨h1, h2⟩ := partnerLow_rest l u
  exact ⟨_, h, h2.trans hm, h1.trans he⟩

section
variable {s : State}

/-- OPEN (R111). -/
theorem exec_editOpen (h : rowMay s .editOpen = true) : exec .editOpen s =
    if (editShut s || !(s.edit.phase = .idle || s.edit.phase = .staged)) = true then .next (editRefuse 0x08 s)
    else if (!rangeOk (regRange s)) = true then .next (editRefuse 0x09 s)
    else if rangeHeld s (regRange s) = true then .next (editRefuse 0x01 s)
    else .next { s with edit := { s.edit with
      phase := .opened, openRange := some (regRange s), partnerAck := false, code := 0 } } := svcRow_edit h _

/-- CLOSE of the open range (R112). -/
theorem exec_editClose (h : rowMay s .editOpen = true) {r : DlRange} (hr : s.edit.openRange = some r) : exec .editClose s =
    if (editShut s || decide (s.edit.phase ≠ .opened)) = true then .next (editRefuse 0x08 s)
    else if crc32c (rangeWords s r) ≠ force s (aLE + 0x50) then .next (editRefuse 0x0A s)
    else .next (partnerLow (rangeJobs s r) { s with edit := { s.edit with
      phase := .staged, openRange := none, ranges := s.edit.ranges ++ [r], partnerAck := false, code := 0 } }) := by
  refine (svcRow_edit h _).trans ?_
  rw [hr]
  rfl

theorem exec_editClose_none (h : rowMay s .editOpen = true) (hr : s.edit.openRange = none) :
    exec .editClose s = .next (editRefuse 0x08 s) := by
  refine (svcRow_edit h _).trans ?_
  rw [hr]
  rfl

/-- STAGE (R113). -/
theorem exec_editStage (h : rowMay s .editOpen = true) : exec .editStage s =
    if (editShut s || !(s.edit.phase = .idle || s.edit.phase = .staged)) = true then .next (editRefuse 0x08 s)
    else if badEntry s (regEntry s).1 (regEntry s).2 = true then .next (editRefuse 0x09 s)
    else .next (partnerLow [.frame (.cpMsg (.editStage (regEntry s).1 (regEntry s).2))] { s with edit := { s.edit with
      phase := .staged, stagedSet := s.edit.stagedSet.filter (fun q => decide (q.1 ≠ (regEntry s).1)) ++ [regEntry s], code := 0 } }) :=
  svcRow_edit h _

/-- COMMIT (R115). -/
theorem exec_editCommit (h : rowMay s .editOpen = true) : exec .editCommit s =
    if (editShut s || decide (s.edit.phase ≠ .staged)) = true then .next (editRefuse 0x08 s)
    else if swapCheck s s.edit.stagedSet ((force s (aLE + 0x6C)).truncate 26 : BitVec 26).toNat (regMig s 0x5C) ≠ 0 then
      .next (editRefuse (swapCheck s s.edit.stagedSet ((force s (aLE + 0x6C)).truncate 26 : BitVec 26).toNat (regMig s 0x5C)) s)
    else
      let s1 := swapArm .pending ((force s (aLE + 0x6C)).truncate 26) (force s (aLE + 0x70)) (regMig s 0x5C) s
      .next { s1 with edit := { s1.edit with migFwd := regMig s 0x5C, migBack := regMig s 0x60 } } := svcRow_edit h _

/-- UNDO (R115). -/
theorem exec_editUndo (h : rowMay s .editOpen = true) : exec .editUndo s =
    if (editShut s || decide (s.edit.phase ≠ .committed)) = true then .next (editRefuse 0x08 s)
    else if swapCheck s (s.edit.changed.map (fun k => (k, prevOf s k))) s.edit.oldBudget.toNat (regMig s 0x60) ≠ 0 then
      .next (editRefuse (swapCheck s (s.edit.changed.map (fun k => (k, prevOf s k))) s.edit.oldBudget.toNat (regMig s 0x60)) s)
    else .next (swapArm .undoPending s.edit.oldBudget s.edit.oldId (regMig s 0x60) s) := svcRow_edit h _

/-- ACCEPT (R111). -/
theorem exec_editAccept (h : rowMay s .editOpen = true) : exec .editAccept s =
    if (editShut s || decide (s.edit.phase ≠ .committed)) = true then .next (editRefuse 0x08 s)
    else .next (editOut .accept { s with edit := { s.edit with
      phase := .idle, prev := [], changed := [], ranges := [], stagedSet := [], migFwd := default, migBack := default, code := 0 } }) :=
  svcRow_edit h _

/-- DISCARD (R111). -/
theorem exec_editDiscard (h : rowMay s .editOpen = true) : exec .editDiscard s =
    if editShut s = true then .next (editRefuse 0x08 s)
    else if s.edit.phase = .undoPending then
      .next (partnerLow [.frame (.cpMsg (.editPend false))] { s with edit := { s.edit with phase := .committed, code := 0 } })
    else if s.edit.phase = .opened ∨ s.edit.phase = .staged ∨ s.edit.phase = .pending then
      .next (editOut .discard { s with edit := { s.edit with
        phase := .idle, stagedSet := [], ranges := [], openRange := none, code := 0 } })
    else .next (editRefuse 0x08 s) := svcRow_edit h _

end

/-- The new state of a swap that has been armed (R115). -/
theorem swapArm_rest (p : EditPhase) (b : BitVec 26) (id : Word) (m : MigRef) (s : State) :
    (swapArm p b id m s).edit = { s.edit with
      phase := p, target := regTick s, newBudget := b, newId := id, mig := m, migDone := false, code := 0 } ∧
    (swapArm p b id m s).mem = s.mem := partnerLow_rest _ _

/-- A shut edit refuses every command (R111, R123, R364). -/
theorem shut_refuses {s : State} (h : rowMay s .editOpen = true) (hs : editShut s = true) :
    ∀ i ∈ [Instr.editOpen, .editClose, .editStage, .editCommit, .editAccept, .editUndo, .editDiscard],
      exec i s = .next (editRefuse 0x08 s) := by
  have hor : ∀ b, (editShut s || b) = true := fun b => by rw [hs, Bool.true_or]
  intro i hi
  simp only [List.mem_cons, List.not_mem_nil, or_false] at hi
  rcases hi with rfl | rfl | rfl | rfl | rfl | rfl | rfl
  · exact (exec_editOpen h).trans (if_pos (hor _))
  · cases hr : s.edit.openRange with
    | none => exact exec_editClose_none h hr
    | some r => exact (exec_editClose h hr).trans (if_pos (hor _))
  · exact (exec_editStage h).trans (if_pos (hor _))
  · exact (exec_editCommit h).trans (if_pos (hor _))
  · exact (exec_editAccept h).trans (if_pos (hor _))
  · exact (exec_editUndo h).trans (if_pos (hor _))
  · exact (exec_editDiscard h).trans (if_pos hs)

/-- Settles O30: each command through its branches. -/
theorem editCommands : Obligations.EditCommands := by
  unfold Obligations.EditCommands
  intro s e refused
  refine fun h => ⟨fun hs i hi => refused_of_eq (shut_refuses h hs i hi), fun hs => ?_⟩
  have hfree : ∀ b, ¬ b = true → ¬ (editShut s || b) = true := fun b hb => by simpa [hs] using hb
  have hshut : ¬ editShut s = true := by simp [hs]
  have hph : ∀ p, s.edit.phase = p → ¬ (editShut s || decide (s.edit.phase ≠ p)) = true := fun p hp => hfree _ (by simp [hp])
  have hoff : ∀ p, s.edit.phase ≠ p → (editShut s || decide (s.edit.phase ≠ p)) = true := fun p hp => by simp [hp]
  refine ⟨fun h1 h2 => ⟨?openState, ?stageState⟩, fun h12 => ?edits, fun hc => ?closeState, fun r hr hp => ?close, fun hp => ?commitState,
    fun hp => ?commit, fun hp => ⟨?undoState, ?acceptState⟩, fun hp => ?back, fun hp => ?discardState, fun hp => ?discard, fun hp => ?discardUndo⟩
  case openState => exact refused_of_eq ((exec_editOpen h).trans (if_pos (by simp [show s.edit.phase ≠ _ from h1, show s.edit.phase ≠ _ from h2])))
  case stageState => exact refused_of_eq ((exec_editStage h).trans (if_pos (by simp [show s.edit.phase ≠ _ from h1, show s.edit.phase ≠ _ from h2])))
  case edits =>
    have hgo : ¬ (editShut s || !(s.edit.phase = .idle || s.edit.phase = .staged)) = true := hfree _ (by
      rcases h12 with hp | hp <;> rw [show s.edit.phase = _ from hp] <;> decide)
    refine ⟨fun hr => ?_, fun hr hh => ?_, fun hr hh => ?_, fun hb => ?_, fun hb => ?_⟩
    · exact refused_of_eq ((exec_editOpen h).trans ((if_neg hgo).trans (if_pos (by simp [hr]))))
    · exact refused_of_eq ((exec_editOpen h).trans ((if_neg hgo).trans ((if_neg (by simp [hr])).trans (if_pos hh))))
    · exact (exec_editOpen h).trans ((if_neg hgo).trans ((if_neg (by simp [hr])).trans (if_neg (by simp [hh]))))
    · exact refused_of_eq ((exec_editStage h).trans ((if_neg hgo).trans (if_pos hb)))
    · exact told _ ((exec_editStage h).trans ((if_neg hgo).trans (if_neg (by simp [hb])))) rfl rfl
  case closeState =>
    refine refused_of_eq ?_
    cases hr : s.edit.openRange with
    | none => exact exec_editClose_none h hr
    | some r => exact (exec_editClose h hr).trans (if_pos (hoff _ (hc.resolve_right (by simp [e, hr]))))
  case close =>
    refine ⟨fun hcrc => ?_, fun hcrc => ?_⟩
    · exact told _ ((exec_editClose h hr).trans ((if_neg (hph _ hp)).trans (if_neg (not_not.mpr hcrc)))) rfl rfl
    · exact refused_of_eq ((exec_editClose h hr).trans ((if_neg (hph _ hp)).trans (if_pos hcrc)))
  case commitState => exact refused_of_eq ((exec_editCommit h).trans (if_pos (hoff _ hp)))
  case commit =>
    have hbud : ((force s (aLE + 0x6C)).truncate 26 : BitVec 26).toNat = (force s (aLE + 0x6C)).toNat % 67108864 := BitVec.toNat_setWidth ..
    intro c
    have hex := exec_editCommit h
    rw [hbud] at hex
    refine ⟨fun hc => refused_of_eq (hex.trans ((if_neg (hph _ hp)).trans (if_pos hc))), fun hc => ?_⟩
    obtain ⟨he, hm⟩ := swapArm_rest .pending ((force s (aLE + 0x6C)).truncate 26) (force s (aLE + 0x70)) (regMig s 0x5C) s
    refine ⟨_, hex.trans ((if_neg (hph _ hp)).trans (if_neg (not_not.mpr hc))), hm, ?_⟩
    dsimp only
    rw [he]
  case undoState => exact refused_of_eq ((exec_editUndo h).trans (if_pos (hoff _ hp)))
  case acceptState => exact refused_of_eq ((exec_editAccept h).trans (if_pos (hoff _ hp)))
  case back =>
    intro c
    refine ⟨fun hc => refused_of_eq ((exec_editUndo h).trans ((if_neg (hph _ hp)).trans (if_pos hc))), fun hc => ?_, ?_⟩
    · obtain ⟨he, hm⟩ := swapArm_rest .undoPending s.edit.oldBudget s.edit.oldId (regMig s 0x60) s
      exact ⟨_, (exec_editUndo h).trans ((if_neg (hph _ hp)).trans (if_neg (not_not.mpr hc))), hm, he⟩
    · refine ⟨_, (exec_editAccept h).trans (if_neg (hph _ hp)), ?_⟩
      obtain ⟨he, hm⟩ := editOut_rest .accept { s with edit := { s.edit with
        phase := .idle, prev := [], changed := [], ranges := [], stagedSet := [], migFwd := default, migBack := default, code := 0 } }
      rw [he, hm]
      exact ⟨rfl, rfl, rfl, rfl, rfl, rfl, rfl⟩
  case discardState =>
    refine refused_of_eq ((exec_editDiscard h).trans ((if_neg hshut).trans ((if_neg ?_).trans (if_neg ?_))))
    · rcases hp with hp | hp <;> rw [show s.edit.phase = _ from hp] <;> decide
    · rcases hp with hp | hp <;> rw [show s.edit.phase = _ from hp] <;> decide
  case discard =>
    have hnu : ¬ s.edit.phase = .undoPending := by
      rcases hp with hp | hp | hp <;> rw [show s.edit.phase = _ from hp] <;> decide
    refine ⟨_, (exec_editDiscard h).trans ((if_neg hshut).trans ((if_neg hnu).trans (if_pos hp))), ?_⟩
    obtain ⟨he, hm⟩ := editOut_rest .discard { s with edit := { s.edit with
      phase := .idle, stagedSet := [], ranges := [], openRange := none, code := 0 } }
    rw [he, hm]
    exact ⟨rfl, rfl, rfl, rfl, rfl, rfl⟩
  case discardUndo => exact told _ ((exec_editDiscard h).trans ((if_neg hshut).trans (if_pos hp))) rfl rfl

end Sys2Proof.Machine

/-! ## A program frame over a word with an error -/

namespace Sys2Proof.Machine

/-- A standby in SHADOW of a module with a twin interface, with lane 0 up; the first word of its program store has a single-bit error. -/
def frameWitness : State :=
  { State.reset with
    sys := { State.reset.sys with powered := true, inReset := false }
    pair := { State.reset.pair with
      role := .standby, mstate := .shadow, rxAny := true, lane0 := { State.reset.pair.lane0 with up := true } }
    mem := { State.reset.mem with upset := [(progKey 0, 1)] } }

/-- A frame of lane 0 whose CRC matches. -/
def frameWitnessHdr : FrameHdr := { (default : FrameHdr) with ok := true, lane := false }

/-- The model's run: the word that the frame brings stands without its error. -/
theorem program_frameWitness : endsUpsets (exec (.program frameWitnessHdr 0 [0]) frameWitness) = true := by decide +kernel

/-- Refutes O42: a PROGRAM frame writes its words anew, so that the error of a word that it covers is gone, and not the words of the store
alone have changed. -/
theorem not_harvestEpochs : ¬ Obligations.HarvestEpochs := by
  unfold Obligations.HarvestEpochs
  intro h
  obtain ⟨hframes, -⟩ := h frameWitness
  obtain ⟨-, -, hprogram, -⟩ := hframes frameWitnessHdr (by decide +kernel) (by decide +kernel)
  obtain ⟨t, ht, hmem⟩ := hprogram 0 [0] (by decide)
  have hrun := program_frameWitness
  rw [ht, endsUpsets, hmem] at hrun
  exact absurd hrun (by decide)

end Sys2Proof.Machine

/-! ## The twin link -/

namespace Sys2Proof.Machine

/-! ### What the end of dual-active running, a resync and a handover leave of the link -/

/-- The data memory, and what a heartbeat shows of the lanes and of the partner. -/
structure LinkHeld where
  mem : MemSt
  up0 : Bool
  rx0 : Nat
  up1 : Bool
  rx1 : Nat
  state : Option ModState
  role : Role
  current : Bool
  mismatch : Bool
  conflict : Bool

/-- What a state holds of the link. -/
def linkHeld (s : State) : LinkHeld where
  mem := s.mem
  up0 := s.pair.lane0.up
  rx0 := s.pair.lane0.lastRx
  up1 := s.pair.lane1.up
  rx1 := s.pair.lane1.lastRx
  state := s.pair.partnerState
  role := s.pair.partnerRole
  current := s.pair.partnerCurrent
  mismatch := s.pair.cfgMismatch
  conflict := s.pair.seatConflict

/-- The lanes of two states that hold the same of the link. -/
theorem laneOf_of_linkHeld {s t : State} (h : linkHeld t = linkHeld s) (l : Bool) :
    (laneOf t l).up = (laneOf s l).up ∧ (laneOf t l).lastRx = (laneOf s l).lastRx := by
  cases l
  · exact ⟨congrArg LinkHeld.up0 h, congrArg LinkHeld.rx0 h⟩
  · exact ⟨congrArg LinkHeld.up1 h, congrArg LinkHeld.rx1 h⟩

theorem Reports.linkHeld {s t : State} (h : Reports s t) : linkHeld t = linkHeld s := by
  obtain ⟨b, n, e, i, rfl⟩ := h
  rfl

theorem Settles.linkHeld {s t : State} (h : Settles s t) : linkHeld t = linkHeld s := by
  obtain ⟨_, _, _, _, _, _, _, rfl⟩ := h
  rfl

theorem laneUse_linkHeld (l : Bool) (p : LinkPayload) (s : State) : linkHeld (laneUse l p s) = linkHeld s := by
  cases l <;> rfl

theorem sendOn_linkHeld (ls : List Bool) (p : LinkPayload) (s : State) : linkHeld (sendOn ls p s) = linkHeld s := by
  unfold sendOn
  exact (foldl_keeps linkHeld _ (fun a l => laneUse_linkHeld l p a) ls _).trans rfl

theorem setRole_linkHeld (r : Role) (cause : Nat) (s : State) : linkHeld (setRole r cause s) = linkHeld s := by
  unfold setRole
  split
  · rfl
  · exact (reports_fire _ _ _).linkHeld

theorem editCancel_linkHeld (s : State) : linkHeld (editCancel s) = linkHeld s := (reports_fireIf _ _ _).linkHeld

theorem stopScan_linkHeld (s : State) : linkHeld (stopScan s) = linkHeld s := editCancel_linkHeld _

theorem enterShadow_linkHeld (cause : Nat) (s : State) : linkHeld (enterShadow cause s) = linkHeld s := by
  unfold enterShadow
  exact (reports_notice _ _ _ _ _).linkHeld.trans ((setRole_linkHeld .standby cause (editCancel s)).trans (editCancel_linkHeld s))

theorem releaseCheck_linkHeld (s : State) : linkHeld (releaseCheck s) = linkHeld s := by
  unfold releaseCheck
  dsimp only
  split
  · split
    · exact enterShadow_linkHeld 7 s
    · rfl
  · rfl

theorem giveUpOp_linkHeld (kind src reason : Nat) (s : State) : linkHeld (giveUpOp kind src reason s) = linkHeld s := by
  unfold giveUpOp
  exact (releaseCheck_linkHeld _).trans ((reports_fire _ _ _).linkHeld.trans ((sendOn_linkHeld _ _ (stopScan s)).trans
    (stopScan_linkHeld s)))

theorem mergeEnd_linkHeld (s : State) : linkHeld (mergeEnd s) = linkHeld s := by
  unfold mergeEnd
  split
  · have hfire : linkHeld (fire 439 s.time.ns s) = linkHeld s := (reports_fire _ _ _).linkHeld
    dsimp only
    split
    · exact (reports_notice _ _ _ _ _).linkHeld.trans ((settles_settle _).linkHeld.trans
        ((enterShadow_linkHeld 8 _).trans ((stopScan_linkHeld _).trans hfire)))
    · exact (reports_notice _ _ _ _ _).linkHeld.trans hfire
  · rfl

theorem autoPull_linkHeld (s : State) : linkHeld (autoPull s) = linkHeld s := by
  unfold autoPull
  split <;> rfl

theorem hbTime_linkHeld (p : Heartbeat) (s : State) : linkHeld (hbTime p s) = linkHeld s := by
  unfold hbTime
  split <;> rfl

theorem hbHandover_linkHeld (p : Heartbeat) (s : State) : linkHeld (hbHandover p s) = linkHeld s := by
  unfold hbHandover
  split
  · exact giveUpOp_linkHeld _ _ _ s
  · rfl

theorem reports_pairNoticeIf (c : Bool) (src : Nat) (s : State) : Reports s (pairNoticeIf c src s) := by
  cases c
  · exact .refl s
  · exact reports_notice _ _ _ _ s

theorem currentFollow_linkHeld (s : State) : linkHeld (currentFollow s) = linkHeld s := by
  unfold currentFollow
  dsimp only
  split <;> rfl

/-- A resync leaves the link and the settings of the module. -/
theorem resyncHere_linkHeld (s : State) : linkHeld (resyncHere s) = linkHeld s ∧ (resyncHere s).sys = s.sys ∧
    (resyncHere s).pair.seatB = s.pair.seatB ∧ (resyncHere s).time = s.time := by
  unfold resyncHere
  split
  · exact ⟨rfl, rfl, rfl, rfl⟩
  · split
    · refine ⟨(currentFollow_linkHeld _).trans rfl, ?_⟩
      unfold awaitResync currentFollow
      dsimp only
      split <;> exact ⟨rfl, rfl, rfl⟩
    · exact ⟨rfl, rfl, rfl, rfl⟩

/-! ### Frames -/

/-- A good frame shows on its lane (R199). -/
theorem laneHeard_rest (h : FrameHdr) (s : State) : (laneHeard h s).mem = s.mem ∧ (laneHeard h s).sys = s.sys ∧
    (laneHeard h s).pair.seatB = s.pair.seatB ∧ (laneOf (laneHeard h s) h.lane).up = true ∧
    (laneOf (laneHeard h s) h.lane).lastRx = s.time.cyc := by
  unfold laneHeard
  extract_lets x both s1 src s2 s3
  have h2 : s2.mem = s.mem ∧ s2.sys = s.sys ∧ s2.pair.seatB = s.pair.seatB ∧ (laneOf s2 h.lane).up = true ∧
      (laneOf s2 h.lane).lastRx = s.time.cyc := by
    cases hl : h.lane <;> simp [s2, src, s1, lanePutL, laneOf, hl]
  have h3 : s3.mem = s.mem ∧ s3.sys = s.sys ∧ s3.pair.seatB = s.pair.seatB ∧ (laneOf s3 h.lane).up = true ∧
      (laneOf s3 h.lane).lastRx = s.time.cyc := by
    obtain ⟨_, _, _, _, hr⟩ := reports_fireIf (!x.up) (432 + b2n h.lane) s2
    have : s3 = _ := hr
    rw [this]
    exact h2
  obtain ⟨hm, hs, hseat, hup, hrx⟩ := h3
  split
  · obtain ⟨hh, hsys, hb, -⟩ := resyncHere_linkHeld s3
    obtain ⟨hu, hr⟩ := laneOf_of_linkHeld hh h.lane
    exact ⟨(congrArg LinkHeld.mem hh).trans hm, hsys.trans hs, hb.trans hseat, hu.trans hup, hr.trans hrx⟩
  · exact ⟨hm, hs, hseat, hup, hrx⟩

end Sys2Proof.Machine

/-! ## Frames and lanes of the twin link -/

namespace Sys2Proof.Machine

/-! ### The contents of a heartbeat -/

/-- A module that leaves SHADOW on a mismatch shows the mismatch as one that stays. -/
theorem hbConditions_linkHeld (h : FrameHdr) (p : Heartbeat) (s : State) : linkHeld (hbConditions h p s) =
    { linkHeld s with mismatch := decide (p.check ≠ s.sys.checkWord), conflict := decide (h.seat = s.pair.seatB) } := by
  unfold hbConditions
  extract_lets mis seat s1 _ s2 s3
  have h2 : linkHeld s2 = { linkHeld s with mismatch := mis, conflict := seat } :=
    ((reports_pairNoticeIf _ _ _).trans (reports_pairNoticeIf _ _ _)).linkHeld.trans rfl
  split
  · exact (setRole_linkHeld .undecided 10 s2).trans h2
  · exact h2

/-- What a heartbeat brings (R201). -/
theorem hbTake_linkHeld (h : FrameHdr) (p : Heartbeat) (s : State) : linkHeld (hbTake h p s) =
    { linkHeld s with
      state := some p.state, role := p.role, current := p.current
      mismatch := decide (p.check ≠ s.sys.checkWord), conflict := decide (h.seat = s.pair.seatB) } := by
  unfold hbTake
  extract_lets joined act _ s1 s2 s3
  obtain ⟨b2, n2, e2, i2, h2⟩ := reports_fireIf joined 435 s1
  have h3 : linkHeld s3 = linkHeld s1 ∧ s3.sys = s.sys ∧ s3.pair.seatB = s.pair.seatB := by
    have hs2 : s2 = _ := h2
    simp only [s3]
    split
    · obtain ⟨b, n, e, i, hr⟩ := reports_pairNoticeIf true 435 (startResync s2)
      rw [hr, hs2]
      exact ⟨rfl, rfl, rfl⟩
    · rw [hs2]
      exact ⟨rfl, rfl, rfl⟩
  obtain ⟨hheld, hsys, hseat⟩ := h3
  rw [hbHandover_linkHeld, hbTime_linkHeld, hbConditions_linkHeld, hheld, hsys, hseat]
  rfl

/-- A heartbeat whose CRC matches (R201). -/
theorem exec_heartbeat_good {s : State} (hopen : linkOpen s = true) {h : FrameHdr} (hok : h.ok = true) (p : Heartbeat) :
    ∃ t, exec (.heartbeat h p) s = .next t ∧ linkHeld t = { linkHeld (laneHeard h s) with
      state := some p.state, role := p.role, current := p.current
      mismatch := decide (p.check ≠ s.sys.checkWord), conflict := decide (h.seat = s.pair.seatB) } := by
  obtain ⟨-, hsys, hseat, -, -⟩ := laneHeard_rest h s
  refine ⟨_, rfl, ?_⟩
  rw [(settles_settle _).linkHeld]
  simp only [onFrame, hopen, hok, Bool.not_true, Bool.not_false, Bool.false_eq_true, if_false, if_true]
  have ha : linkHeld (autoPull (hbTake h p (laneHeard h s))) = _ := (autoPull_linkHeld _).trans (hbTake_linkHeld h p _)
  rw [hsys, hseat] at ha
  split
  · exact (mergeEnd_linkHeld _).trans ha
  · exact ha

/-! ### Lanes -/

/-- A discarded frame shows in its lane alone. -/
theorem laneError_rest (l : Bool) (s : State) : (laneOf (laneError l s) l).errors = min 65535 ((laneOf s l).errors + 1) ∧
    (laneOf (laneError l s) l).lastRx = s.time.cyc ∧ (laneError l s).pair.partnerState = s.pair.partnerState ∧
    (laneError l s).mem = s.mem := by
  have hsat : satN 0xFFFF ((laneOf s l).errors + 1) = min 65535 ((laneOf s l).errors + 1) := satN_eq_min _ _
  cases l <;> exact ⟨hsat, rfl, rfl, rfl⟩

theorem laneOf_settle (s : State) (l : Bool) : laneOf (settle s) l = laneOf s l := by
  obtain ⟨_, _, _, _, _, _, _, h⟩ := settles_settle s
  rw [h]
  rfl

/-- The loss of the partner leaves the lanes, the frames that wait, and what is staged. -/
theorem lossCheck_rest (s : State) : (lossCheck s).mem = s.mem ∧ (∀ l, laneOf (lossCheck s) l = laneOf s l) ∧
    (lossCheck s).pair.unacked = s.pair.unacked ∧ (lossCheck s).pair.staged = s.pair.staged ∧
    (lossCheck s).pair.tokenIn = s.pair.tokenIn ∧ Pends s (lossCheck s) := by
  unfold lossCheck
  split
  · exact ⟨rfl, fun _ => rfl, rfl, rfl, rfl, .refl s⟩
  · extract_lets _ s1
    have hpend : Pends s s1 := .of_step (pends_fire _ _ _) rfl
    obtain ⟨b, n, e, i, h1⟩ := reports_fire 435 s.time.ns { s with pair := { s.pair with
      partnerState := none, partnerRole := .undecided, partnerCurrent := false, partnerNoRun := false
      partnerDefaulted := false, ship := none, closed := none, preimg := [] } }
    have h1 : s1 = _ := h1
    obtain ⟨b', n', e', i', h2⟩ := reports_pairNoticeIf (decide (s.pair.role = .active)) 435 s1
    refine ⟨?_, ?_, ?_, ?_, ?_, hpend.trans (.ite (pends_notice _ _ _ _ _) (.refl _))⟩ <;> rw [h2, h1]
    · exact fun _ => rfl

/-- What a lane carried as it goes down. -/
def laneGone (lane : Bool) (s : State) : State :=
  let s1 := lanePutL s lane { laneOf s lane with up := false }
  if lanesDown s1 then linkLost s1
  else laneRetx (!lane) (s.pair.unacked.filter (fun f => f.hdr.lane = lane)).length { s1 with pair := { s1.pair with
    unacked := s1.pair.unacked.map (fun f =>
      if f.hdr.lane = lane then { f with hdr := { f.hdr with lane := !lane }, cyc := s.time.cyc } else f) } }

theorem exec_laneDown {s : State} (hopen : linkOpen s = true) {lane : Bool} (hup : (laneOf s lane).up = true)
    (hrx : (laneOf s lane).lastRx + 40000 ≤ s.time.cyc) :
    exec (.laneDown lane) s = .next (settle (lossCheck (fire (432 + b2n lane) s.time.ns (laneGone lane s)))) :=
  if_pos (by simp only [hopen, hup, Bool.and_self, Bool.true_and, decide_eq_true_eq]; exact hrx)

theorem laneGone_rest (lane : Bool) (s : State) : (laneGone lane s).mem = s.mem ∧ (laneGone lane s).fixed = s.fixed ∧
    (laneOf (laneGone lane s) lane).up = false ∧
    ((laneOf s (!lane)).up = true → (laneGone lane s).pair.unacked = s.pair.unacked.map (fun f =>
      if f.hdr.lane = lane then { f with hdr := { f.hdr with lane := !lane }, cyc := s.time.cyc } else f)) ∧
    ((laneOf s (!lane)).up = false → (laneGone lane s).pair.unacked = [] ∧ (laneGone lane s).pair.staged = none) := by
  have hdown : lanesDown (lanePutL s lane { laneOf s lane with up := false }) = !(laneOf s (!lane)).up := by
    cases lane <;> simp [lanesDown, lanePutL, laneOf]
  unfold laneGone
  dsimp only
  rw [hdown]
  cases hother : (laneOf s (!lane)).up
  · rw [if_pos (show (!false) = true from rfl)]
    cases lane <;> exact ⟨rfl, rfl, rfl, fun h => absurd h (by decide), fun _ => ⟨rfl, rfl⟩⟩
  · rw [if_neg (show ¬ (!true) = true by decide)]
    cases lane <;> exact ⟨rfl, rfl, rfl, fun _ => rfl, fun h => absurd h (by decide)⟩

theorem exec_linkResend {s : State} (hopen : linkOpen s = true) {seq : BitVec 16} {f : LinkFrame}
    (hf : s.pair.unacked.find? (fun g => g.hdr.seq = seq) = some f) (hcyc : f.cyc + 10000 ≤ s.time.cyc) :
    exec (.linkResend seq) s = .next (
      let s1 := laneUse f.hdr.lane f.payload (laneRetx f.hdr.lane 1 s)
      { s1 with pair := { s1.pair with
        unacked := s1.pair.unacked.map (fun g => if g.hdr.seq = seq then { g with cyc := s.time.cyc } else g) } }) := by
  change execLinkResend seq s = _
  unfold execLinkResend
  rw [hf]
  exact if_pos (by simp only [hopen, Bool.true_and, decide_eq_true_eq]; exact hcyc)

/-! ### Sequenced frames -/

/-- A frame on a lane that is up changes what the link numbers, and no more. -/
theorem laneHeard_up {s : State} {h : FrameHdr} (hup : (laneOf s h.lane).up = true) : ∃ l0 l1 u, laneHeard h s =
    { s with pair := { s.pair with lane0 := l0, lane1 := l1, unacked := u, partnerRole := h.role } } := by
  have hdown : lanesDown s = false := by
    unfold laneOf at hup
    cases hl : h.lane <;> simp [lanesDown, hl] at hup ⊢ <;> simp [hup]
  unfold laneHeard
  dsimp only
  rw [hdown, hup]
  exact ⟨_, _, _, rfl⟩

/-- A sequenced frame that the module takes is delivered (R199). -/
theorem onFrame_good {s : State} {h : FrameHdr} (hg : goodFrame s h = true) (f : State → State) :
    ∃ l0 l1 u, onFrame true h f s = f { s with pair := { s.pair with
      lane0 := l0, lane1 := l1, unacked := u, partnerRole := h.role, rxSeq := h.seq, rxAny := false } } := by
  simp only [goodFrame, Bool.and_eq_true] at hg
  obtain ⟨⟨⟨hopen, hok⟩, hup⟩, hseq⟩ := hg
  obtain ⟨l0, l1, u, hheard⟩ := laneHeard_up hup
  refine ⟨l0, l1, u, ?_⟩
  simp only [onFrame, hopen, hok, hseq, Bool.not_true, Bool.false_eq_true, if_false, if_true, hheard]

theorem linkOpen_hasTwin {s : State} (h : linkOpen s = true) : hasTwin s = true := by
  simp only [linkOpen, Bool.and_eq_true] at h
  tauto

/-- Settles O40: a heartbeat's contents outlast the merge, the handover and the resync that they may start; the frames of a lane
that goes down are those of the other lane or gone; a sequenced frame is delivered on the state of its lane. -/
theorem pairLink : Obligations.PairLink := by
  unfold Obligations.PairLink
  intro s hopen
  refine ⟨fun lane => ?heartbeatSend, fun h p hok => ?heartbeat, fun h p hok => ?badFrame, fun lane hup hrx => ?laneDown,
    fun seq f hf hcyc => ?resend, fun h seq hg hr hp => ?epochLost, fun h base pool hg => ?rangeAck⟩
  case heartbeatSend =>
    refine ⟨_, { hdr := txHdr s lane 0, payload := .heartbeat (myHeartbeat s), cyc := s.time.cyc }, if_pos hopen, ?_, ?_, fun hwf => ?_,
      rfl, rfl, rfl, rfl, myHeartbeat s, rfl, rfl, rfl, rfl, rfl, rfl, rfl, rfl⟩
    · cases lane <;> rfl
    · cases lane <;> rfl
    · cases lane <;> exact mget_mput_same _ hwf
  case heartbeat =>
    obtain ⟨t, ht, hheld⟩ := exec_heartbeat_good hopen hok p
    obtain ⟨hmem, -, -, hup, hrx⟩ := laneHeard_rest h s
    have hlane : ∀ l, (laneOf t l).up = (laneOf (laneHeard h s) l).up ∧ (laneOf t l).lastRx = (laneOf (laneHeard h s) l).lastRx :=
      fun l => by
        cases l
        · exact ⟨congrArg LinkHeld.up0 hheld, congrArg LinkHeld.rx0 hheld⟩
        · exact ⟨congrArg LinkHeld.up1 hheld, congrArg LinkHeld.rx1 hheld⟩
    exact ⟨t, ht, (hlane _).1.trans hup, (hlane _).2.trans hrx, congrArg LinkHeld.state hheld, congrArg LinkHeld.role hheld,
      congrArg LinkHeld.current hheld, congrArg LinkHeld.mismatch hheld, congrArg LinkHeld.conflict hheld,
      (congrArg LinkHeld.mem hheld).trans hmem⟩
  case badFrame =>
    obtain ⟨herr, hrx, hst, hmem⟩ := laneError_rest h.lane s
    refine ⟨_, rfl, ?_⟩
    simp only [onFrame, hopen, hok, Bool.not_true, Bool.not_false, Bool.false_eq_true, if_false, if_true]
    rw [laneOf_settle, settle_pair, settle_mem]
    exact ⟨herr, hrx, hst, hmem⟩
  case laneDown =>
    obtain ⟨hmem, hfixed, hdown, hmoved, hlost⟩ := laneGone_rest lane s
    obtain ⟨_, _, _, _, hfire⟩ := reports_fire (432 + b2n lane) s.time.ns (laneGone lane s)
    obtain ⟨lmem, llane, lunacked, lstaged, -, lpend⟩ := lossCheck_rest (fire (432 + b2n lane) s.time.ns (laneGone lane s))
    have hpresent : srcPresent (laneGone lane s) (432 + b2n lane) = true := by
      have : hasTwin (laneGone lane s) = true := by rw [hasTwin, hfixed]; exact linkOpen_hasTwin hopen
      cases lane <;> exact this
    have hunacked := lunacked.trans (congrArg (·.pair.unacked) hfire)
    refine ⟨_, exec_laneDown hopen hup hrx, ?_, pends_settle _ _ (lpend _ (mem_fire_pend hpresent _)), ?_, fun ho => ?_, fun ho => ?_⟩
    · rw [laneOf_settle, llane, hfire]
      exact hdown
    · rw [settle_mem, lmem, fire_mem, hmem]
    · rw [settle_pair]
      dsimp only
      rw [hunacked]
      dsimp only
      rw [hmoved ho]
      refine ⟨fun f hf => ?_, ?_⟩
      · obtain ⟨g, -, rfl⟩ := List.mem_map.mp hf
        split
        · rfl
        · next hne => exact Bool.eq_not_of_ne hne
      · rw [List.map_map]
        refine List.map_congr_left fun f _ => ?_
        dsimp only [Function.comp]
        split <;> rfl
    · rw [settle_pair]
      dsimp only
      rw [hunacked, lstaged, hfire]
      exact hlost ho
  case resend =>
    have hsat : satN 4095 ((laneOf s f.hdr.lane).retx + 1) = min 4095 ((laneOf s f.hdr.lane).retx + 1) := satN_eq_min _ _
    refine ⟨_, exec_linkResend hopen hf hcyc, ?_⟩
    cases hl : f.hdr.lane <;> rw [hl] at hsat <;> exact ⟨rfl, rfl, hsat⟩
  case epochLost =>
    obtain ⟨l0, l1, u, hon⟩ := onFrame_good hg resyncHere
    refine ⟨_, rfl, ?_⟩
    rw [hon, resyncHere, if_pos ⟨hr, hp⟩, settle_pair, settle_mem]
    exact ⟨rfl, rfl, rfl, rfl⟩
  case rangeAck =>
    refine ⟨_, rfl, ?_⟩
    obtain ⟨l0, l1, u, hon⟩ := onFrame_good hg fun a =>
      { a with edit := { a.edit with
        ranges := a.edit.ranges.map (fun r => if r.base = base ∧ r.pool = pool then { r with ack := true } else r)
        partnerAck := decide (a.edit.phase ≠ .opened) &&
          !(a.edit.ranges.map (fun r => if r.base = base ∧ r.pool = pool then { r with ack := true } else r)).isEmpty &&
          allAcked (a.edit.ranges.map (fun r => if r.base = base ∧ r.pool = pool then { r with ack := true } else r)) } }
    rw [hon, settle_mem, settle_edit]
    refine ⟨rfl, rfl, ?_⟩
    dsimp only
    rw [List.isEmpty_map]
    rfl

end Sys2Proof.Machine

/-! ## Give-up and takeover -/

namespace Sys2Proof.Machine

/-! ### Outputs that are held OFF -/

/-- An output stage that takes a command is driven by it. -/
theorem driveCh_drive {s : State} (h : mwf (fun _ => ({} : ChanSt)) s.chan = true) (n : Nat) (v : Bool) :
    (ch (driveCh s n v) n).drive = v := by
  unfold driveCh
  dsimp only
  generalize hc : ({ ch s n with drive := v, driveCyc := _, cycles := _, driveSense := _, mismatch := _, raw := _ } : ChanSt) = c
  have hfired : ∀ b src, ch (fireIf b src (chPut s n c)) n = c := fun b src => by
    rw [ch, fireIf_chan]
    exact ch_chPut_same h n c
  split
  · rw [ch, chEdge_chan]
    refine (congrArg ChanSt.drive (ch_chPut_same (by rw [fireIf_chan]; exact chanWf_chPut h n c) n _)).trans ?_
    dsimp only
    rw [hfired, ← hc]
  · rw [hfired, ← hc]

/-- A channel that line 1 of R133 holds OFF is not driven. -/
theorem driveAll_off {s : State} (h : mwf (fun _ => ({} : ChanSt)) s.chan = true) {n : Nat} (hn : n < nCh s)
    (hoff : outOff s n = true) : (ch (driveAll s) n).drive = false := by
  have key : ∀ k, let a := (List.range k).foldl (fun a n =>
      let v := isOut s n && outCmd s (standing s 1) (standing s 2) (standing s 3) n
      let h := inhHeld s (standing s 3) n
      let b := if h = (ch s n).held then a else chPut a n { ch a n with held := h }
      if v = (ch s n).drive then b else driveCh b n v) s
      mwf (fun _ => ({} : ChanSt)) a.chan = true ∧ (∀ m, k ≤ m → ch a m = ch s m) ∧
        (n < k → (ch a n).drive = false) := by
    intro k
    induction k with
    | zero => exact ⟨h, fun _ _ => rfl, fun hk => absurd hk (Nat.not_lt_zero n)⟩
    | succ k ih =>
      rw [List.range_succ, List.foldl_append, List.foldl_cons, List.foldl_nil]
      generalize (List.range k).foldl _ s = a at ih ⊢
      obtain ⟨hwf, habove, hlow⟩ := ih
      dsimp only
      have hv : n = k → (isOut s k && outCmd s (standing s 1) (standing s 2) (standing s 3) k) = false := fun hk => by
        rw [outCmd, ← hk]
        simp [hoff]
      generalize (isOut s k && outCmd s (standing s 1) (standing s 2) (standing s 3) k) = v at hv ⊢
      generalize inhHeld s (standing s 3) k = x
      generalize hb : (if x = (ch s k).held then a else chPut a k { ch a k with held := x }) = b
      have hbk : mwf (fun _ => ({} : ChanSt)) b.chan = true ∧ (∀ m, m ≠ k → ch b m = ch a m) ∧
          (ch b k).drive = (ch s k).drive := by
        rw [← hb]
        split
        · exact ⟨hwf, fun _ _ => rfl, by rw [habove k (Nat.le_refl k)]⟩
        · refine ⟨chanWf_chPut hwf _ _, fun m hm => ch_chPut_other hm _, ?_⟩
          rw [ch_chPut_same hwf, habove k (Nat.le_refl k)]
      obtain ⟨bwf, bother, bdrive⟩ := hbk
      split
      · next heq =>
        refine ⟨bwf, fun m hm => (bother m (by omega)).trans (habove m (by omega)), fun hk => ?_⟩
        by_cases hnk : n = k
        · rw [hnk, bdrive, ← heq, hv hnk]
        · rw [bother n hnk]
          exact hlow (by omega)
      · obtain ⟨cwf, cother, -⟩ := driveCh_chan bwf k v
        refine ⟨cwf, fun m hm => (cother m (by omega)).trans ((bother m (by omega)).trans (habove m (by omega))), fun hk => ?_⟩
        by_cases hnk : n = k
        · rw [hnk, driveCh_drive bwf, hv hnk]
        · rw [cother n hnk, bother n hnk]
          exact hlow (by omega)
  exact (key (nCh s)).2.2 hn

/-- Settling turns OFF every output that is held OFF. -/
theorem settle_off {s : State} (h : mwf (fun _ => ({} : ChanSt)) s.chan = true) {n : Nat} (hn : n < nCh s)
    (hoff : outOff s n = true) : (ch (settle s) n).drive = false := by
  obtain ⟨hchan, -, hfixed⟩ := rfxEval_frame s
  rw [ch, settle, currentReport_chan]
  refine driveAll_off (s := rfxEval s) (by rw [hchan]; exact h) ?_ ((rfxEval_outOff s n).trans hoff)
  rw [nCh, nGroups, hfixed]
  exact hn

/-! ### Roles -/

theorem setRole_eq {r : Role} (cause : Nat) {s : State} (h : s.pair.role ≠ r) : ∃ q i, setRole r cause s = { s with
    pair := { s.pair with role := r, lastCause := BitVec.ofNat 4 cause, lastValid := true, lastTime := s.time.ns }
    ev := q, img := { s.img with fired := i } } :=
  ⟨_, _, if_neg h⟩

/-- A module that enters SHADOW is a standby that awaits a full resync (R193, R209). -/
theorem enterShadow_pair (cause : Nat) (s : State) : (enterShadow cause s).pair.mstate = .shadow ∧
    (enterShadow cause s).pair.role = .standby ∧ (enterShadow cause s).pair.resync = true ∧
    (enterShadow cause s).pair.tokenIn = s.pair.tokenIn := by
  unfold enterShadow
  rw [notice_pair]
  refine ⟨rfl, setRole_role _ _ _, rfl, ?_⟩
  have hcancel : (editCancel s).pair = s.pair := fireIf_pair _ _ _
  change (setRole .standby cause (editCancel s)).pair.tokenIn = _
  unfold setRole
  split
  · rw [hcancel]
  · rw [fire_pair, ← hcancel]

theorem releaseCheck_tokenIn (s : State) : (releaseCheck s).pair.tokenIn = s.pair.tokenIn := by
  unfold releaseCheck
  dsimp only
  split
  · split
    · exact (enterShadow_pair 7 s).2.2.2
    · rfl
  · rfl

theorem mergeEnd_tokenIn (s : State) : (mergeEnd s).pair.tokenIn = s.pair.tokenIn := by
  unfold mergeEnd
  split
  · dsimp only
    split
    · rw [pairNotice, notice_pair, settle_pair]
      refine (enterShadow_pair 8 _).2.2.2.trans ?_
      obtain ⟨e, q, i, h⟩ := stopScan_eq (fire 439 s.time.ns s)
      rw [h]
      exact congrArg PairSt.tokenIn (fire_pair 439 s.time.ns s)
    · rw [pairNotice, notice_pair, fire_pair]
  · rfl

/-! ### The takeover -/

/-- The standby that takes over, before its events (R212). -/
theorem takeNow_spec {cause : Nat} {s : State} (hr : s.pair.role = .standby) : ∃ u, Reports u (takeNow cause s) ∧
    Pends (fire 437 s.time.ns u) (takeNow cause s) ∧ u.fixed = s.fixed ∧ u.mem = { s.mem with lwords := [], lgen := s.mem.lgen + 1 } ∧
    u.tick.runid = s.tick.runid ∧
    u.le.afterTakeover = true ∧ u.le.sealedReady = true ∧ u.le.sealedQ = s.mem.words.filter (fun p => inQ p.1) ∧
    u.pair.mstate = .run ∧ u.pair.role = .active ∧ u.pair.takeoverAt = none ∧ u.pair.tokenOut = false ∧
    u.pair.nextSeq = s.pair.epochSeq + 1 ∧ u.pair.lastCause = BitVec.ofNat 4 cause := by
  obtain ⟨q, i, hrole⟩ := setRole_eq (r := .active) cause (s := s) (by rw [hr]; decide)
  unfold takeNow
  rw [hrole]
  exact ⟨_, (reports_fire _ _ _).trans (reports_pairNoticeIf _ _ _), .ite (pends_notice _ _ _ _ _) (.refl _),
    rfl, rfl, rfl, rfl, rfl, rfl, rfl, rfl, rfl, rfl, rfl, rfl⟩

end Sys2Proof.Machine

/-! ## Give-up, takeover and the hold window -/

namespace Sys2Proof.Machine

/-- GIVE_UP at a standby in SHADOW: what it notes, and its event (R212). -/
theorem giveUp_noted {a : State} (htwin : hasTwin a = true) (hr : a.pair.role = .standby) (hm : a.pair.mstate = .shadow)
    (p : GiveUpMsg) : ∃ u,
      (let a1 := fire 436 a.time.ns { a with pair := { a.pair with
        giveSrc := p.src, giveReason := p.reason, giveKind := p.kind } }
      if a.pair.role = .standby ∧ a.pair.mstate = .shadow then
        { a1 with pair := { a1.pair with staged := none, takeoverAt := some (boundaryAfter a) } }
      else a1) = u ∧ u.mem = a.mem ∧
      u.chan = a.chan ∧ u.fixed = a.fixed ∧ u.pair.mstate = .shadow ∧ u.pair.staged = none ∧ u.pair.giveKind = p.kind ∧
      u.pair.giveSrc = p.src ∧ u.pair.giveReason = p.reason ∧ u.pair.takeoverAt = some (boundaryAfter a) ∧
      (436 : BitVec 10) ∈ u.ev.pend := by
  refine ⟨_, if_pos ⟨hr, hm⟩, ?_⟩
  dsimp only
  rw [fire_pair]
  exact ⟨fire_mem _ _ _, fire_chan _ _ _, fire_fixed _ _ _, hm, rfl, rfl, rfl, rfl, rfl, mem_fire_pend (src := 436) (s := { a with pair := { a.pair with
    giveSrc := p.src, giveReason := p.reason, giveKind := p.kind } }) htwin _⟩

theorem giveUp_spec {s : State} {h : FrameHdr} (hg : goodFrame s h = true) (hr : s.pair.role = .standby)
    (hm : s.pair.mstate = .shadow) (p : GiveUpMsg) : ∃ u, exec (.giveUp h p) s = .next (settle u) ∧ u.mem = s.mem ∧
      u.chan = s.chan ∧ u.fixed = s.fixed ∧ u.pair.mstate = .shadow ∧ u.pair.staged = none ∧ u.pair.giveKind = p.kind ∧
      u.pair.giveSrc = p.src ∧ u.pair.giveReason = p.reason ∧ u.pair.takeoverAt = some (boundaryAfter s) ∧
      (436 : BitVec 10) ∈ u.ev.pend := by
  have hopen : linkOpen s = true := by
    simp only [goodFrame, Bool.and_eq_true] at hg
    tauto
  obtain ⟨l0, l1, w, hon⟩ := onFrame_good hg (fun a =>
    let a1 := fire 436 a.time.ns { a with pair := { a.pair with
      giveSrc := p.src, giveReason := p.reason, giveKind := p.kind } }
    if a.pair.role = .standby ∧ a.pair.mstate = .shadow then
      { a1 with pair := { a1.pair with staged := none, takeoverAt := some (boundaryAfter a) } }
    else a1)
  obtain ⟨u, hu, hrest⟩ := giveUp_noted (a := { s with pair := { s.pair with
    lane0 := l0, lane1 := l1, unacked := w, partnerRole := h.role, rxSeq := h.seq, rxAny := false } })
    (linkOpen_hasTwin hopen) hr hm p
  exact ⟨u, congrArg (Host.Outcome.next <| settle ·) (hon.trans hu), hrest⟩

/-- The old active whose partner has taken over (R213, R216). -/
theorem releaseCheck_taken {s : State} (hr : s.pair.role = .active) (hg : s.pair.giveTick.isSome = true)
    (hrel : s.pair.released = false) (hm : s.pair.mstate = .hold) (ht : s.pair.takenSeen = true) :
    releaseCheck s = if s.pair.giveKind = 3 then enterShadow 7 s
      else { s with pair := { s.pair with released := true }, sys := { s.sys with pendReset := some 4 } } := by
  unfold releaseCheck
  dsimp only
  rw [ht, hm]
  refine (if_pos ⟨hr, hg, hrel, rfl, rfl⟩).trans ?_
  by_cases hk : s.pair.giveKind = 3
  · rw [if_pos ⟨hk, rfl⟩, if_pos hk]
  · rw [if_neg (fun h => hk h.1), if_neg hk]

/-- The state that a group's start leaves in a hold window that expires (R214). -/
theorem giveupExpired_spec {s : State} {g : Nat} (hg : s.pair.giveTick = some g) (hm : s.pair.mstate = .hold)
    (hrel : s.pair.released = false) (hdue : g + fld (force s aPAIR) 1 4 ≤ s.tick.num) (ht0 : s.tick.t0 + 10000 ≤ s.time.ns) :
    exec .giveupExpired s = .next (settle { slcTriggerAll 6 s with pair := { (slcTriggerAll 6 s).pair with mstate := .safe } }) := by
  change execGiveupExpired s = _
  unfold execGiveupExpired
  rw [hg]
  refine if_pos ?_
  simp only [hm, hrel, hdue, ht0, decide_true, Bool.not_false, Bool.and_self]

/-- A change of TOKEN_IN outside SLEEP and SOLO ends with the loss of a partner that no path shows any longer. -/
theorem tokenIn_spec {s : State} (htwin : hasTwin s = true) (hr : s.pair.role ≠ .solo) (on : Bool) :
    ∃ t, exec (.tokenIn on) s = .next t ∧ t.pair.tokenIn = on ∧ t.mem = s.mem := by
  by_cases hm : s.pair.mstate = .sleep
  · refine ⟨if on = s.pair.tokenIn then s else wakePin 5 { s with pair := { s.pair with tokenIn := on } }, ?_, ?_⟩
    · change execTokenIn on s = _
      simp only [execTokenIn, htwin, Bool.not_true, Bool.false_eq_true, if_false, hm, if_true]
    · split
      · next h => exact ⟨h.symm, rfl⟩
      · unfold wakePin
        split <;> exact ⟨rfl, rfl⟩
  · let s1 := releaseCheck { s with pair := { s.pair with tokenIn := on } }
    have hrun : exec (.tokenIn on) s = .next (settle (lossCheck (if on then mergeEnd s1 else s1))) := by
      change execTokenIn on s = _
      simp only [execTokenIn, htwin, Bool.not_true, Bool.false_eq_true, if_false, hm, hr]
      rfl
    obtain ⟨lmem, -, -, -, ltok, -⟩ := lossCheck_rest (if on then mergeEnd s1 else s1)
    have htok : (if on then mergeEnd s1 else s1).pair.tokenIn = on := by
      have h1 : s1.pair.tokenIn = on := releaseCheck_tokenIn _
      cases on
      · exact h1
      · exact (mergeEnd_tokenIn s1).trans h1
    have hmem : (if on then mergeEnd s1 else s1).mem = s.mem := by
      have h1 : s1.mem = s.mem := releaseCheck_mem _
      cases on
      · exact h1
      · exact (mergeEnd_rest s1).2.1.trans h1
    refine ⟨_, hrun, ?_, ?_⟩
    · rw [settle_pair]
      exact ltok.trans htok
    · rw [settle_mem, lmem, hmem]

/-- Settles O41: GIVE_UP, TAKEOVER, TAKEN, the end of the hold window and TOKEN_IN each by the state that they leave to settling. -/
theorem pairTakeover : Obligations.PairTakeover := by
  unfold Obligations.PairTakeover
  intro s htwin
  refine ⟨fun h p hg hr hm => ?giveUp, fun b hb hle hr hm => ?takeover, fun h tick hg hr hgt hrel hm => ?taken,
    fun g hg hm hrel hdue ht0 => ?giveupExpired, fun on hr => tokenIn_spec htwin hr on, fun on hr hm => ?solo⟩
  case giveUp =>
    obtain ⟨u, hu, umem, uchan, ufixed, ustate, ustaged, ukind, usrc, ureason, uat, upend⟩ := giveUp_spec hg hr hm p
    refine ⟨_, hu, ?_⟩
    rw [settle_pair, settle_mem]
    refine ⟨ustaged, ukind, usrc, ureason, pends_settle _ _ upend, umem, fun hok n hn => ?_, uat⟩
    refine settle_off (by rw [uchan]; exact tablesOk_chan hok) (by rw [nCh, nGroups, ufixed]; exact hn) ?_
    simp [outOff, ustate]
  case takeover =>
    obtain ⟨u, hu, upend, ufixed, umem, urunid, uafter, uready, uq, ustate, urole, uat, utok, useq, ucause⟩ :=
      takeNow_spec (cause := if s.pair.giveKind = 3 then 6 else 4) hr
    have hrun : exec .takeover s = .next (settle (takeNow (if s.pair.giveKind = 3 then 6 else 4) s)) := by
      change execTakeover s = _
      unfold execTakeover
      rw [hb]
      exact if_pos (by simp [hle, hr, hm])
    have hpresent : srcPresent u 437 = true := by
      change hasTwin u = true
      rw [hasTwin, ufixed]
      exact htwin
    have hpend := pends_settle _ _ (upend _ (mem_fire_pend hpresent s.time.ns))
    refine ⟨_, hrun, ?_⟩
    have hwords : u.mem.words = s.mem.words := by rw [umem]
    obtain ⟨_, _, _, _, hrep⟩ := hu
    rw [settle_pair, settle_le, settle_mem, settle_tick]
    generalize settle _ = z at hpend ⊢
    rw [hrep]
    refine ⟨ustate, urole, uat, utok, uafter, uready, uq, hpend, hwords, urunid, useq, ucause.trans ?_⟩
    split <;> rfl
  case taken =>
    obtain ⟨l0, l1, w, hon⟩ := onFrame_good hg (fun a => releaseCheck { a with pair := { a.pair with
      takenSeen := a.pair.takenSeen || a.pair.giveTick.isSome } })
    refine ⟨_, congrArg (Host.Outcome.next <| settle ·) hon, ?_⟩
    rw [settle_mem, settle_pair, settle_sys, releaseCheck_mem]
    rw [releaseCheck_taken (s := { s with pair := { s.pair with
      lane0 := l0, lane1 := l1, unacked := w, partnerRole := h.role, rxSeq := h.seq, rxAny := false
      takenSeen := s.pair.takenSeen || s.pair.giveTick.isSome } }) hr hgt hrel hm (by rw [hgt]; exact Bool.or_true _)]
    refine ⟨rfl, fun hk => ?_, fun hk => ?_⟩
    · rw [if_pos hk]
      obtain ⟨h1, h2, h3, -⟩ := enterShadow_pair 7 ({ s with pair := { s.pair with
        lane0 := l0, lane1 := l1, unacked := w, partnerRole := h.role, rxSeq := h.seq, rxAny := false
        takenSeen := s.pair.takenSeen || s.pair.giveTick.isSome } } : State)
      exact ⟨h1, h2, h3⟩
    · rw [if_neg hk]
      exact ⟨rfl, rfl⟩
  case giveupExpired =>
    obtain ⟨⟨x, q, i, heq⟩, hstart⟩ := slcTriggerAll_spec 6 s
    refine ⟨_, giveupExpired_spec hg hm hrel hdue ht0, ?_⟩
    rw [settle_pair, settle_slc, settle_mem]
    refine ⟨rfl, ?_, ?_, fun hok k hk hidle => ?_⟩
    · rw [heq]
      rfl
    · rw [heq]
    · obtain ⟨hphase, -, hcause, -⟩ := hstart (tablesOk_slcGrp hok) k hk hidle
      rw [sg_congr (s := slcTriggerAll 6 s) (by rw [settle_slc]) k]
      exact ⟨hphase, hcause⟩
  case solo =>
    refine ⟨_, ?_, ?_, ?_, rfl⟩
    · change execTokenIn on s = _
      simp only [execTokenIn, htwin, Bool.not_true, Bool.false_eq_true, if_false, hm, hr, if_true]
    · simp [tokenSeen, hr]
    · simp [sysSignal, tokenSeen, hr]

end Sys2Proof.Machine

/-! ## The evidence of the partner at an evaluation point -/

namespace Sys2Proof.Machine

/-- What an evaluation point has noted: that it is over, and the reference frames (R195, R217). -/
structure EvalHeld where
  done : Bool
  seen : Bool
  heard : Bool
  missed : Nat

/-- What a state holds of the evaluation point. -/
def evalHeld (s : State) : EvalHeld where
  done := s.tick.evalDone
  seen := s.pair.refSeen
  heard := s.pair.refHeard
  missed := s.pair.missed

theorem Reports.evalHeld {s t : State} (h : Reports s t) : evalHeld t = evalHeld s := by
  obtain ⟨b, n, e, i, rfl⟩ := h
  rfl

theorem Settles.evalHeld {s t : State} (h : Settles s t) : evalHeld t = evalHeld s := by
  obtain ⟨_, _, _, _, _, _, _, rfl⟩ := h
  rfl

theorem evalHeld_of_eq {s t : State} (ht : t.tick = s.tick) (hp : t.pair = s.pair) : evalHeld t = evalHeld s := by
  rw [evalHeld, evalHeld, ht, hp]

theorem laneUse_evalHeld (l : Bool) (p : LinkPayload) (s : State) : evalHeld (laneUse l p s) = evalHeld s := rfl

theorem sendOn_evalHeld (ls : List Bool) (p : LinkPayload) (s : State) : evalHeld (sendOn ls p s) = evalHeld s := by
  unfold sendOn
  exact (foldl_keeps evalHeld _ (fun a l => laneUse_evalHeld l p a) ls _).trans rfl

theorem setRole_evalHeld (r : Role) (cause : Nat) (s : State) : evalHeld (setRole r cause s) = evalHeld s := by
  unfold setRole
  split
  · rfl
  · exact (reports_fire _ _ _).evalHeld

theorem stopScan_evalHeld (s : State) : evalHeld (stopScan s) = evalHeld s := (reports_fireIf _ _ _).evalHeld.trans rfl

theorem enterShadow_evalHeld (cause : Nat) (s : State) : evalHeld (enterShadow cause s) = evalHeld s := by
  unfold enterShadow
  exact (reports_notice _ _ _ _ _).evalHeld.trans ((setRole_evalHeld .standby cause (editCancel s)).trans
    ((reports_fireIf _ _ _).evalHeld.trans rfl))

theorem releaseCheck_evalHeld (s : State) : evalHeld (releaseCheck s) = evalHeld s := by
  unfold releaseCheck
  dsimp only
  split
  · split
    · exact enterShadow_evalHeld 7 s
    · rfl
  · rfl

theorem giveUpOp_evalHeld (kind src reason : Nat) (s : State) : evalHeld (giveUpOp kind src reason s) = evalHeld s := by
  unfold giveUpOp
  exact (releaseCheck_evalHeld _).trans ((reports_fire _ _ _).evalHeld.trans ((sendOn_evalHeld _ _ (stopScan s)).trans
    (stopScan_evalHeld s)))

theorem slcTriggerAll_evalHeld (cause : Nat) (s : State) : evalHeld (slcTriggerAll cause s) = evalHeld s := by
  obtain ⟨⟨g, q, i, h⟩, -⟩ := slcTriggerAll_spec cause s
  rw [h]
  rfl

theorem fatalReact_evalHeld (src reason cause : Nat) (s : State) : evalHeld (fatalReact src reason cause s) = evalHeld s := by
  unfold fatalReact
  dsimp only
  split
  · exact giveUpOp_evalHeld _ _ _ _
  · exact (slcTriggerAll_evalHeld cause _).trans (stopScan_evalHeld _)
  · exact (slcTriggerAll_evalHeld cause _).trans (stopScan_evalHeld _)
  · rfl
  · rfl
  · rfl

theorem fcuRecord_evalHeld (src reason cls : Nat) (s : State) : evalHeld (fcuRecord src reason cls s) = evalHeld s := by
  obtain ⟨_, _, _, _, _, _, h⟩ := records_fcuRecord src reason cls s
  rw [h]
  rfl

theorem containedFault_evalHeld (src reason : Nat) (s : State) : evalHeld (containedFault src reason s) = evalHeld s := by
  have hrec := fcuRecord_evalHeld src reason 1 s
  unfold containedFault
  dsimp only
  split
  · exact (reports_notice _ _ _ _ _).evalHeld.trans hrec
  · exact (fatalReact_evalHeld _ _ _ _).trans hrec
  · exact hrec

theorem sramCount_evalHeld (a : Nat) (s : State) : evalHeld (sramCount a s) = evalHeld s :=
  ((reports_noticeIf _ _ _ _ _ _).trans (reports_fireIf _ _ _)).evalHeld.trans rfl

theorem corrected_evalHeld (s : State) : evalHeld (corrected s) = evalHeld s := (reports_fireIf _ _ _).evalHeld.trans rfl

theorem memFault_evalHeld (s : State) (f : Nat × Nat) : evalHeld (memFault s f) = evalHeld s := by
  unfold memFault
  split
  · exact (sramCount_evalHeld _ _).trans (corrected_evalHeld s)
  · split
    · exact (sramCount_evalHeld _ _).trans ((corrected_evalHeld _).trans rfl)
    · split
      · exact (fatalReact_evalHeld _ _ _ _).trans (fcuRecord_evalHeld _ _ _ s)
      · exact containedFault_evalHeld _ _ s

theorem rearm_tick (n : Nat) (cp : Bool) (s : State) : (rearm n cp s).tick = s.tick := (cmds_rearm n cp s).1.1

theorem commitNow_evalHeld (s : State) : evalHeld (commitNow s) = evalHeld s := by
  unfold commitNow
  extract_lets _ s0 s1 s2 s3
  have h1 : evalHeld s1 = evalHeld s := (foldl_keeps evalHeld memFault memFault_evalHeld _ _).trans rfl
  have h2 : evalHeld s2 = evalHeld s1 := foldl_keeps evalHeld commitChan
    (fun a n => evalHeld_of_eq (by simp [commitChan, commitOut, apply_ite State.tick, rearm_tick]) (commitChan_pair a n)) _ _
  have h3 : evalHeld s3 = evalHeld s2 := foldl_keeps evalHeld commitNode (fun a k => by
    unfold commitNode
    split
    · rfl
    · dsimp only
      split
      · exact evalHeld_of_eq ((talks_nodeEvent 29 k _).tick.trans rfl) ((talks_nodeEvent 29 k _).pair.trans rfl)
      · rfl) _ _
  exact (congrArg (fun x : EvalHeld => { x with }) (h3.trans (h2.trans h1)) :)

theorem cpRearms_evalHeld (s : State) : evalHeld (cpRearms s) = evalHeld s := by
  refine evalHeld_of_eq ?_ (cpRearms_pair s)
  exact foldl_keeps (fun a : State => a.tick) _ (fun a n => by
    split
    · exact rearm_tick n true a
    · rfl) _ _

theorem takeNow_evalHeld (cause : Nat) (s : State) : evalHeld (takeNow cause s) = evalHeld s := by
  unfold takeNow
  exact ((reports_fire _ _ _).trans (reports_pairNoticeIf _ _ _)).evalHeld.trans (setRole_evalHeld .active cause s)

theorem tryActive_evalHeld (cause : Nat) (s : State) : evalHeld (tryActive cause s) = evalHeld s := by
  unfold tryActive
  dsimp only
  exact iteInduction (motive := fun x => evalHeld x = evalHeld s) (fun _ => (setRole_evalHeld .active cause _).trans rfl)
    fun _ => rfl

theorem decideRole_evalHeld (s : State) : evalHeld (decideRole s) = evalHeld s := by
  unfold decideRole
  dsimp only
  split
  · rfl
  split
  · exact enterShadow_evalHeld 3 s
  split
  · split
    · exact tryActive_evalHeld 1 s
    · rfl
  split
  · rfl
  split
  · rfl
  · exact tryActive_evalHeld 2 s

theorem lossCheck_evalHeld (s : State) : evalHeld (lossCheck s) = evalHeld s := by
  unfold lossCheck
  split
  · rfl
  · exact ((reports_fire _ _ _).trans (reports_pairNoticeIf _ _ _)).evalHeld.trans rfl

theorem silentTake_evalHeld (s : State) : evalHeld (silentTake s) = evalHeld s := by
  have h : evalHeld (cpRearms (commitNow (takeNow 5 s))) = evalHeld s :=
    (cpRearms_evalHeld _).trans ((commitNow_evalHeld _).trans (takeNow_evalHeld 5 s))
  unfold silentTake
  generalize cpRearms (commitNow (takeNow 5 s)) = x at h ⊢
  exact h

/-- A standby that stands in for a silent active keeps what the evaluation point has noted. -/
theorem standbyEval_evalHeld (s : State) : evalHeld (standbyEval s) = evalHeld s := by
  unfold standbyEval
  split
  · split
    · exact silentTake_evalHeld s
    · unfold coldTake
      split
      · exact (reports_notice _ _ _ _ _).evalHeld.trans ((reports_fire _ _ _).evalHeld.trans (setRole_evalHeld .active 9 s))
      · exact (reports_notice _ _ _ _ _).evalHeld.trans (setRole_evalHeld .undecided 10 s)
  · rfl

end Sys2Proof.Machine

/-! ## Roles, listening and the pair commands -/

namespace Sys2Proof.Machine

/-! ### The pair commands (R209, R216, R224) -/

section
variable {s : State} {key : BitVec 16}

theorem exec_handover (h : rowMay s (.handover key) = true) (htwin : hasTwin s = true) : exec (.handover key) s =
    if key ≠ cmdKey then .next (pairResult 1 2 s)
    else if s.pair.role ≠ .active ∨ ¬ inRun s then .next (pairResult 1 3 s)
    else if s.pair.handTries.isSome then .next (pairResult 1 1 s)
    else if lanesDown s then .next (pairResult 1 5 s)
    else if s.pair.partnerState ≠ some .shadow ∨ s.pair.partnerCurrent = false then .next (pairResult 1 4 s)
    else .next { pairResult 1 0 s with pair := { (pairResult 1 0 s).pair with handTries := some 0 } } := by
  change execHandover key s = _
  unfold execHandover
  rw [cpRow_of_rowMay rfl h, htwin]
  rfl

theorem exec_pull (h : rowMay s (.pull key) = true) (htwin : hasTwin s = true) : exec (.pull key) s =
    if key ≠ cmdKey then .next (pairResult 2 2 s)
    else if s.pair.role ≠ .undecided ∨ (s.pair.cfgMismatch = false ∧ s.sys.cfgDefaulted = false) then
      .next (pairResult 2 3 s)
    else if lanesDown s then .next (pairResult 2 5 s)
    else if updBusy s then .next (pairResult 2 1 s)
    else .next (sendLow (.frame .cfgReq) (pairResult 2 0 s)) := by
  change execPull key s = _
  unfold execPull
  rw [cpRow_of_rowMay rfl h, htwin]
  rfl

theorem exec_resync (h : rowMay s (.resync key) = true) (htwin : hasTwin s = true) : exec (.resync key) s =
    if key ≠ cmdKey then .next (pairResult 3 2 s)
    else if s.pair.role ≠ .active ∨ ¬ inRun s ∨ s.pair.partnerState ≠ some .shadow then .next (pairResult 3 3 s)
    else if lanesDown s then .next (pairResult 3 5 s)
    else if s.pair.resync then .next (pairResult 3 1 s)
    else .next (startResync (pairResult 3 0 s)) := by
  change execResync key s = _
  unfold execResync
  rw [cpRow_of_rowMay rfl h, htwin]
  rfl

/-- The row of a register of a unit that the variant lacks: the access is made, and finds nothing (R3). -/
theorem cpRow_absent {a : Nat} {wr : Bool} (ha : absentAddr s a = true) (o : Out) : cpRow a wr s o = o ∨ cpRow a wr s o = .next s := by
  have hperm : permitted s 1 a wr = true := by
    unfold permitted
    rw [if_neg (by decide), if_pos ha]
  unfold cpRow
  rw [hperm]
  split
  · exact .inr rfl
  · exact .inl rfl

/-- Without a partner interface the pair commands do nothing. -/
theorem pairCommands_noTwin (htwin : hasTwin s = false) :
    ∀ i ∈ [Instr.handover key, .pull key, .resync key], exec i s = .next s := by
  have habsent : absentAddr s (aPAIR + 0xC) = true := by
    simp [absentAddr, htwin, aPAIR]
  have hrow : ∀ o : Out, (if (!hasTwin s) = true then Host.Outcome.next s else o) = .next s := fun o => by
    rw [htwin]
    rfl
  intro i hi
  simp only [List.mem_cons, List.not_mem_nil, or_false] at hi
  rcases hi with rfl | rfl | rfl
  · exact (cpRow_absent habsent _).elim (fun h => h.trans (hrow _)) id
  · exact (cpRow_absent habsent _).elim (fun h => h.trans (hrow _)) id
  · exact (cpRow_absent habsent _).elim (fun h => h.trans (hrow _)) id

end

/-! ### Roles (R195, R196) -/

theorem decideRole_mem (s : State) : (decideRole s).mem = s.mem := by
  have htry : ∀ c, (tryActive c s).mem = s.mem := fun c => by
    unfold tryActive
    dsimp only
    exact iteInduction (motive := fun x : State => x.mem = s.mem) (fun _ => setRole_mem _ _ _) fun _ => rfl
  unfold decideRole
  dsimp only
  split
  · rfl
  split
  · exact enterShadow_mem 3 s
  split
  · split
    · exact htry 1
    · rfl
  split
  · rfl
  split
  · rfl
  · exact htry 2

/-- A module that nothing keeps UNDECIDED. -/
structure Free (s : State) : Prop where
  role : s.pair.role = .undecided
  ready : s.pair.mstate = .ready
  own : s.sys.cfgDefaulted = false
  checks : s.pair.cfgMismatch = false
  seats : s.pair.seatConflict = false
  hold : s.sys.fatalHold = false

theorem Free.decides {s : State} (h : Free s) : ¬(s.pair.role ≠ .undecided ∨ s.pair.mstate ≠ .ready ∨ heldUndecided s = true) := by
  obtain ⟨hrole, hready, hown, hchecks, hseats, hhold⟩ := h
  simp [hrole, hready, heldUndecided, hown, hchecks, hseats, hhold]

/-- An UNDECIDED module that hears an ACTIVE partner becomes its standby. -/
theorem decideRole_standby {s : State} (h : Free s) (hlane : lanesDown s = false) (hp : s.pair.partnerRole = .active) :
    decideRole s = enterShadow 3 s := by
  have hup : (s.pair.lane0.up || s.pair.lane1.up) = true := by
    simp only [lanesDown, Bool.and_eq_false_iff, Bool.not_eq_false'] at hlane
    simpa using hlane
  unfold decideRole
  dsimp only
  rw [if_neg h.decides, hup, hp]
  exact if_pos rfl

/-- A module alone on the bus that can enter RUN becomes ACTIVE. -/
theorem decideRole_active {s : State} (h : Free s) (hlane : lanesDown s = true) (htok : s.pair.tokenIn = false)
    (hseen : s.pair.refSeen = false) (hheard : s.pair.refHeard = false) (hdrive : foreignDrive s = false)
    (hprog : hasProg s = true) (hbudget : budgetOk s = true) (hauto : s.le.autoRun = true) (hstay : s.pair.stayReady = false) :
    (decideRole s).pair.role = .active ∧ (decideRole s).pair.lastCause = 2 := by
  have hup : (s.pair.lane0.up || s.pair.lane1.up) = false := by
    simp only [lanesDown, Bool.and_eq_true, Bool.not_eq_true'] at hlane
    simp [hlane]
  have hcan : canRun s = true := by simp [canRun, hprog, hbudget, h.hold, hauto, hstay]
  have heq : decideRole s = tryActive 2 s := by
    unfold decideRole
    dsimp only
    rw [if_neg h.decides, hup, htok, hseen, hheard, hdrive]
    rfl
  rw [heq]
  unfold tryActive
  dsimp only
  rw [hprog, hbudget, h.hold, hcan]
  obtain ⟨q, i, hset⟩ := setRole_eq (r := .active) 2 (s := { s with
    le := { s.le with result := 0 }, pair := { s.pair with stayReady := false } }) (by rw [h.role]; decide)
  exact ⟨(congrArg (·.pair.role) hset :), (congrArg (·.pair.lastCause) hset :)⟩

/-! ### The pull of a configuration (R224) -/

/-- The checks of R342 read the registers and the variant. -/
theorem badContent_pair (s : State) (p : PairSt) : badContent { s with pair := p } = badContent s := by
  have hfield : badField { s with pair := p } = badField s := rfl
  have hchan : chCfgErr { s with pair := p } = chCfgErr s := rfl
  have hequation : badEquation { s with pair := p } = badEquation s := rfl
  have hschedule : badSchedule { s with pair := p } = badSchedule s := rfl
  have hrates : badRates { s with pair := p } = badRates s := rfl
  unfold badContent
  rw [hfield, hchan, hequation, hschedule, hrates]
  rfl

/-- What a slot is worth rests on the variant and the registers, not on the link. -/
theorem slotResult_pair (s : State) (p : PairSt) : slotResult { s with pair := p } = slotResult s := by
  have hheader : badHeader { s with pair := p } = badHeader s := rfl
  have habsent : usesAbsent { s with pair := p } = usesAbsent s := rfl
  have hsource : srcAbsent { s with pair := p } = srcAbsent s := rfl
  have hunder : ∀ l, badContent (underSettings { s with pair := p } l) = badContent (underSettings s l) :=
    fun l => badContent_pair (underSettings s l) p
  funext c
  unfold slotResult
  dsimp only
  rw [hheader, habsent, hsource, hunder]

theorem newestSlot_pair (s : State) (p : PairSt) : newestSlot { s with pair := p } = newestSlot s := by
  unfold newestSlot
  dsimp only
  rw [slotResult_pair]

theorem olderSlot_pair (s : State) (p : PairSt) : olderSlot { s with pair := p } = olderSlot s := by
  unfold olderSlot
  dsimp only
  rw [slotResult_pair]

theorem bit_cases (i : BitVec 1) : i = 0 ∨ i = 1 := by
  have := i.isLt
  rcases (by omega : i.toNat = 0 ∨ i.toNat = 1) with h | h
  · exact .inl (BitVec.eq_of_toNat_eq h)
  · exact .inr (BitVec.eq_of_toNat_eq h)

theorem slotOf_slotPut_same (i : BitVec 1) (x : CfgSlot) (s : State) : slotOf (slotPut i x s) i = x := by
  rcases bit_cases i with rfl | rfl
  · rfl
  · rfl

theorem slotOf_slotPut_other (i : BitVec 1) (x : CfgSlot) (s : State) : slotOf (slotPut i x s) (i + 1) = slotOf s (i + 1) := by
  rcases bit_cases i with rfl | rfl
  · rfl
  · rfl

theorem slotCut_bytes (n : Nat) (c : CfgSlot) : (slotCut n c).bytes = c.bytes.take (slotLen c - n) := rfl

theorem slotCut_sigOk (n : Nat) (c : CfgSlot) : (slotCut n c).sigOk = false := rfl

theorem slotPut_rest (i : BitVec 1) (x : CfgSlot) (s : State) : (slotPut i x s).mem = s.mem ∧ (slotPut i x s).pair = s.pair := by
  unfold slotPut
  split <;> exact ⟨rfl, rfl⟩

/-- A slot that is written holds the header and the sections only, and the other slot stands. -/
theorem slotWrite_rest (i : BitVec 1) (pulled : Bool) (c : CfgSlot) (s : State) :
    slotOf (slotWrite i pulled c s) i = slotCut 68 c ∧ slotOf (slotWrite i pulled c s) (i + 1) = slotOf s (i + 1) ∧
    (slotWrite i pulled c s).mem = s.mem ∧ (slotWrite i pulled c s).pair = s.pair ∧
    (slotWrite i pulled c s).sys.slotWr = some { slot := i, stage := 0, cfg := c, pulled := pulled } :=
  ⟨slotOf_slotPut_same i _ s, slotOf_slotPut_other i _ s, (slotPut_rest i _ s).1, (slotPut_rest i _ s).2, rfl⟩

end Sys2Proof.Machine

/-! ## The pair commands and the roles -/

namespace Sys2Proof.Machine

/-- A module that listens and is free keeps what decides its role as the time of listening ends. -/
theorem Free.listened {s : State} (h : Free s) : Free { s with pair := { s.pair with listenUntil := none } } :=
  ⟨h.role, h.ready, h.own, h.checks, h.seats, h.hold⟩

theorem exec_listenEnd {s : State} {c : Nat} (hc : s.pair.listenUntil = some c) (hle : c ≤ s.time.cyc) :
    exec .listenEnd s = .next (settle (decideRole { s with pair := { s.pair with listenUntil := none } })) := by
  change execListenEnd s = _
  unfold execListenEnd
  rw [hc]
  exact if_pos hle

theorem setRole_listenUntil (r : Role) (cause : Nat) (s : State) :
    (setRole r cause s).pair.listenUntil = s.pair.listenUntil := by
  unfold setRole
  split
  · rfl
  · rw [fire_pair]

theorem decideRole_listenUntil {s : State} (h : s.pair.listenUntil = none) : (decideRole s).pair.listenUntil = none := by
  have htry : ∀ c, (tryActive c s).pair.listenUntil = none := fun c => by
    unfold tryActive
    dsimp only
    exact iteInduction (motive := fun x : State => x.pair.listenUntil = none)
      (fun _ => (setRole_listenUntil _ _ _).trans h) fun _ => h
  unfold decideRole
  dsimp only
  split
  · exact h
  split
  · unfold enterShadow
    rw [notice_pair]
  split
  · split
    · exact htry 1
    · exact h
  split
  · exact h
  split
  · exact h
  · exact htry 2

theorem exec_handoverFail {s : State} {n : Nat} (hn : s.pair.handTries = some n) (h16 : 16 ≤ n) :
    exec .handoverFail s = .next { pairResult 1 4 s with pair := { (pairResult 1 4 s).pair with handTries := none } } := by
  change execHandoverFail s = _
  unfold execHandoverFail
  rw [hn]
  exact if_pos h16

/-- The evaluation point, as its conditions hold (R195, R217). -/
theorem exec_evaluationPoint {s : State} (hruns : tickRuns s = true) (hdone : s.tick.evalDone = false)
    (hdue : s.tick.t0 + 150000 ≤ s.time.ns) (hr : s.pair.role ≠ .solo) : ∃ t, exec .evaluationPoint s = .next t ∧
      evalHeld t = { done := true, seen := s.pair.refHeard, heard := false,
                     missed := if s.pair.refHeard then 0 else min 15 (s.pair.missed + 1) } := by
  refine ⟨_, if_pos (by simp [hruns, hdone, hdue, hr]), ?_⟩
  rw [(settles_settle _).evalHeld, standbyEval_evalHeld]
  dsimp only
  refine iteInduction (motive := fun x => evalHeld x = _) (fun _ => ?_) fun _ => ?_
  · exact (decideRole_evalHeld _).trans ((lossCheck_evalHeld _).trans rfl)
  · exact (lossCheck_evalHeld _).trans rfl

/-- A sequenced frame that the module takes finds the state of its lane, whatever it brings. -/
theorem onFrame_takes {s : State} {h : FrameHdr} (hg : goodFrame s h = true) : ∃ p : PairSt, p.role = s.pair.role ∧
    p.lowq = s.pair.lowq ∧ p.cfgPull = s.pair.cfgPull ∧ ∀ f, onFrame true h f s = f { s with pair := p } := by
  simp only [goodFrame, Bool.and_eq_true] at hg
  obtain ⟨⟨⟨hopen, hok⟩, hup⟩, hseq⟩ := hg
  obtain ⟨l0, l1, u, hheard⟩ := laneHeard_up hup
  refine ⟨{ s.pair with lane0 := l0, lane1 := l1, unacked := u, partnerRole := h.role, rxSeq := h.seq, rxAny := false },
    rfl, rfl, rfl, fun f => ?_⟩
  simp only [onFrame, hopen, hok, hseq, Bool.not_true, Bool.false_eq_true, if_false, if_true, hheard]

theorem exec_cfgReq {s : State} {h : FrameHdr} (hg : goodFrame s h = true) {c : CfgSlot} (hr : s.pair.role = .active)
    (hn : newestSlot s = some c) : ∃ p : PairSt, p.lowq = s.pair.lowq ∧
      exec (.cfgReq h) s = .next (settle (sendLow (.frame .cfgEnd) (sendLow (.frame (.cfgData c)) { s with pair := p }))) := by
  obtain ⟨p, hrole, hlow, -, hon⟩ := onFrame_takes hg
  refine ⟨p, hlow, ?_⟩
  change execCfgReq h s = _
  unfold execCfgReq
  rw [hon]
  dsimp only
  rw [newestSlot_pair, hrole, hr, hn]

theorem exec_cfgEnd {s : State} {h : FrameHdr} (hg : goodFrame s h = true) {c : CfgSlot} (hc : s.pair.cfgPull = some c) :
    ∃ p : PairSt, exec (.cfgEnd h) s = .next (settle (if slotResult s c = 0
      then slotWrite (olderSlot s) true c { s with pair := { p with cfgPull := none, pullSent := false } }
      else pairNotice 434 (pairResult 2 6 { s with pair := { p with cfgPull := none, pullSent := false } }))) := by
  obtain ⟨p, -, -, hpull, hon⟩ := onFrame_takes hg
  refine ⟨p, ?_⟩
  change execCfgEnd h s = _
  unfold execCfgEnd
  rw [hon]
  dsimp only
  rw [hpull, hc]
  simp only [slotResult_pair, olderSlot_pair]

/-- Settles O43: each command and frame by the branch of its definition that its conditions name; an evaluation point keeps what it has
noted through every role that it may decide. -/
theorem pairRolesAndCommands : Obligations.PairRolesAndCommands := by
  unfold Obligations.PairRolesAndCommands
  intro s
  dsimp only
  refine ⟨fun htwin key hmay hkey => ?badKey, fun htwin key => pairCommands_noTwin htwin,
    fun hmay htwin hr hm hlane hp => ⟨fun htries hcur => ?handover, fun hres => ?resync⟩,
    fun n hn h16 => exec_handoverFail hn h16,
    fun hmay htwin hr hneed hlane hbusy => ?pull,
    fun h hg => ⟨fun c hr hlane hnew => ?cfgReq, fun slot hr => ?cfgData, fun c hc hbad => ?cfgBad, fun c hc hgood => ?cfgGood,
      fun seq hdown => ?ready⟩,
    fun c hc hle => ?listenEnd, fun hruns hdone hdue hr => ?evaluationPoint,
    fun htwin i hi hmay => ?noTwinReads, fun hmay htwin => ?lastTime, fun hmay htwin => ?epochTick⟩
  case badKey =>
    exact ⟨(exec_handover hmay htwin).trans (if_pos hkey), (exec_pull hmay htwin).trans (if_pos hkey),
      (exec_resync hmay htwin).trans (if_pos hkey)⟩
  case handover =>
    rw [exec_handover hmay htwin]
    rw [if_neg (by decide), if_neg (by simp [hr, hm, inRun]), if_neg (by simp [htries]), if_neg (by simp [hlane]),
      if_neg (by simp [hp, hcur])]
    rfl
  case resync =>
    refine ⟨startResync (pairResult 3 0 s), (exec_resync hmay htwin).trans ?_, rfl, rfl, rfl, rfl, rfl⟩
    rw [if_neg (by decide), if_neg (by simp [hr, hm, inRun, hp]), if_neg (by simp [hlane]), if_neg (by simp [hres])]
  case pull =>
    rw [exec_pull hmay htwin]
    have hneed' : ¬(s.pair.cfgMismatch = false ∧ s.sys.cfgDefaulted = false) := fun hno => by
      rcases hneed with h | h
      · rw [h] at hno
        exact absurd hno.1 (by decide)
      · rw [h] at hno
        exact absurd hno.2 (by decide)
    rw [if_neg (by decide), if_neg (by simp only [hr, ne_eq, not_true_eq_false, false_or]; exact hneed'), hlane, hbusy]
    rfl
  case cfgReq =>
    obtain ⟨p, hlow, hrun⟩ := exec_cfgReq hg hr hnew
    refine ⟨_, hrun, ?_⟩
    rw [settle_mem, settle_pair, ← hlow]
    exact ⟨rfl, List.append_assoc _ _ _⟩
  case cfgData =>
    obtain ⟨l0, l1, u, hon⟩ := onFrame_good hg (fun a =>
      if a.pair.role = .undecided then { a with pair := { a.pair with cfgPull := some slot } } else a)
    refine ⟨_, congrArg (Host.Outcome.next <| settle ·) hon, ?_⟩
    dsimp only
    rw [if_pos hr, settle_mem, settle_pair]
    exact ⟨rfl, rfl⟩
  case cfgBad =>
    obtain ⟨p, hrun⟩ := exec_cfgEnd hg hc
    refine ⟨_, hrun, ?_⟩
    rw [if_neg hbad, settle_pair, settle_sys, pairNotice, notice_pair, notice_sys]
    exact ⟨rfl, rfl, rfl, rfl, rfl, rfl⟩
  case cfgGood =>
    refine ⟨fun hown => by rw [olderSlot, hown]; rfl, ?_⟩
    obtain ⟨p, hrun⟩ := exec_cfgEnd hg hc
    refine ⟨_, hrun, ?_⟩
    rw [if_pos hgood, settle_mem, settle_pair, settle_sys]
    obtain ⟨hat, hother, hmem, hpair, hwr⟩ := slotWrite_rest (olderSlot s) true c { s with pair := { p with
      cfgPull := none, pullSent := false } }
    have hslot : ∀ (x : State) i, slotOf (settle x) i = slotOf x i := fun x i => by rw [slotOf, settle_sys]; rfl
    rw [hslot, hslot, hpair]
    exact ⟨hmem, rfl, hother, hwr, by rw [hat, slotCut_bytes], by rw [hat, slotCut_sigOk]⟩
  case ready =>
    obtain ⟨l0, l1, u, hon⟩ := onFrame_good hg (fun a => if cpRuns a then cpMsgTake (.ready seq) a else a)
    have hruns : cpRuns s = true := by
      simp only [goodFrame, linkOpen, Bool.and_eq_true] at hg
      obtain ⟨⟨⟨⟨⟨⟨⟨⟨-, hpow⟩, hres⟩, -⟩, -⟩, hsleep⟩, -⟩, -⟩, -⟩ := hg
      simp only [cpRuns, hpow, hres, hdown, hsleep, Bool.not_false, Bool.and_self]
    refine ⟨_, congrArg (Host.Outcome.next <| settle ·) (hon.trans (if_pos hruns)), ?_⟩
    rw [settle_mem, settle_upd]
    exact ⟨rfl, rfl⟩
  case listenEnd =>
    refine ⟨_, exec_listenEnd hc hle, ?_⟩
    rw [settle_mem, settle_pair]
    refine ⟨decideRole_listenUntil rfl, decideRole_mem _, fun hr hm hown hchecks hseats hhold => ?_⟩
    have hfree : Free s := ⟨hr, hm, hown, hchecks, hseats, hhold⟩
    refine ⟨fun _ hlane hp => ?_, fun hlane htok hseen hheard hdrive hprog hbudget hauto hstay => ?_⟩
    · rw [decideRole_standby hfree.listened hlane hp]
      obtain ⟨hstate, hrole, -⟩ := enterShadow_pair 3 { s with pair := { s.pair with listenUntil := none } }
      exact ⟨hrole, hstate⟩
    · exact decideRole_active hfree.listened hlane htok hseen hheard hdrive hprog hbudget hauto hstay
  case evaluationPoint =>
    obtain ⟨t, ht, hheld⟩ := exec_evaluationPoint hruns hdone hdue hr
    exact ⟨t, ht, congrArg EvalHeld.done hheld, congrArg EvalHeld.seen hheld, congrArg EvalHeld.heard hheld,
      congrArg EvalHeld.missed hheld⟩
  case noTwinReads =>
    simp only [List.mem_cons, List.not_mem_nil, or_false] at hi
    rcases hi with rfl | rfl
    · refine (cpRow_of_rowMay rfl hmay _).trans ?_
      rw [htwin]
      rfl
    · refine (cpRow_of_rowMay rfl hmay _).trans ?_
      rw [htwin]
      rfl
  case lastTime =>
    refine (cpRow_of_rowMay rfl hmay _).trans ?_
    rw [htwin]
    rfl
  case epochTick =>
    refine (cpRow_of_rowMay rfl hmay _).trans ?_
    rw [htwin]
    rfl

end Sys2Proof.Machine

/-! ## Starting and stopping the logic engine, and deep sleep -/

namespace Sys2Proof.Machine

/-! ### What a row of the panel leaves as SLEEP is entered -/

/-- The instant, and whether a request of SLEEP waits. -/
def sleepHeld (s : State) : Nat × Bool := (s.time.cyc, s.sys.sleepPend)

theorem Reports.sleepHeld {s t : State} (h : Reports s t) : sleepHeld t = sleepHeld s := by
  obtain ⟨b, n, e, i, rfl⟩ := h
  rfl

theorem Records.sleepHeld {s t : State} (h : Records s t) : sleepHeld t = sleepHeld s := by
  obtain ⟨_, _, _, _, _, _, rfl⟩ := h
  rfl

theorem Settles.sleepHeld {s t : State} (h : Settles s t) : sleepHeld t = sleepHeld s := by
  obtain ⟨_, _, _, _, _, _, _, rfl⟩ := h
  rfl

theorem sendOn_sleepHeld (ls : List Bool) (p : LinkPayload) (s : State) : sleepHeld (sendOn ls p s) = sleepHeld s := by
  obtain ⟨_, _, _, _, h⟩ := sendOn_eq ls p s
  rw [h]
  rfl

theorem stopScan_sleepHeld (s : State) : sleepHeld (stopScan s) = sleepHeld s := by
  obtain ⟨_, _, _, h⟩ := stopScan_eq s
  rw [h]
  rfl

theorem setRole_sleepHeld (r : Role) (cause : Nat) (s : State) : sleepHeld (setRole r cause s) = sleepHeld s := by
  unfold setRole
  split
  · rfl
  · exact (reports_fire _ _ _).sleepHeld

theorem enterShadow_sleepHeld (cause : Nat) (s : State) : sleepHeld (enterShadow cause s) = sleepHeld s := by
  unfold enterShadow
  exact (reports_notice _ _ _ _ _).sleepHeld.trans ((setRole_sleepHeld .standby cause (editCancel s)).trans
    ((reports_fireIf _ _ _).sleepHeld.trans rfl))

theorem releaseCheck_sleepHeld (s : State) : sleepHeld (releaseCheck s) = sleepHeld s := by
  unfold releaseCheck
  dsimp only
  split
  · split
    · exact enterShadow_sleepHeld 7 s
    · rfl
  · rfl

theorem giveUpOp_sleepHeld (kind src reason : Nat) (s : State) : sleepHeld (giveUpOp kind src reason s) = sleepHeld s := by
  unfold giveUpOp
  exact (releaseCheck_sleepHeld _).trans ((reports_fire _ _ _).sleepHeld.trans ((sendOn_sleepHeld _ _ (stopScan s)).trans
    (stopScan_sleepHeld s)))

theorem slcTriggerAll_sleepHeld (cause : Nat) (s : State) : sleepHeld (slcTriggerAll cause s) = sleepHeld s := by
  obtain ⟨⟨g, q, i, h⟩, -⟩ := slcTriggerAll_spec cause s
  rw [h]
  rfl

theorem fatalReact_sleepHeld (src reason cause : Nat) (s : State) : sleepHeld (fatalReact src reason cause s) = sleepHeld s := by
  unfold fatalReact
  dsimp only
  split
  · exact giveUpOp_sleepHeld _ _ _ _
  · exact (slcTriggerAll_sleepHeld cause _).trans (stopScan_sleepHeld _)
  · exact (slcTriggerAll_sleepHeld cause _).trans (stopScan_sleepHeld _)
  · rfl
  · rfl
  · rfl

theorem containedFault_sleepHeld (src reason : Nat) (s : State) : sleepHeld (containedFault src reason s) = sleepHeld s := by
  have hrec := (records_fcuRecord src reason 1 s).sleepHeld
  unfold containedFault
  dsimp only
  split
  · exact (reports_notice _ _ _ _ _).sleepHeld.trans hrec
  · exact (fatalReact_sleepHeld _ _ _ _).trans hrec
  · exact hrec

theorem freezeMaster_sleepHeld (m : Nat) (a : Word) (wr : Bool) (s : State) : sleepHeld (freezeMaster m a wr s) = sleepHeld s := by
  unfold freezeMaster
  extract_lets _ s1 s2
  have hfire : sleepHeld s2 = sleepHeld s := (reports_fire _ _ _).sleepHeld.trans rfl
  split
  · exact (fatalReact_sleepHeld _ _ _ _).trans ((records_fcuRecord _ _ _ _).sleepHeld.trans hfire)
  · exact (containedFault_sleepHeld _ _ _).trans hfire

theorem stopRect_sleepHeld (i : Nat) (s : State) : sleepHeld (stopRect i s) = sleepHeld s := by
  unfold stopRect
  split <;> rfl

theorem copyRow_sleepHeld (y : Nat) (s : State) (i : Nat) : sleepHeld (copyRow y s i) = sleepHeld s := by
  unfold copyRow
  split
  · rfl
  split
  · rfl
  split
  · exact stopRect_sleepHeld i s
  split
  · exact (stopRect_sleepHeld i _).trans (freezeMaster_sleepHeld _ _ _ s)
  · rfl

theorem panelRows_sleepHeld (s : State) : sleepHeld (panelRows s) = sleepHeld s := by
  have hrow : ∀ a y, sleepHeld (passRow a y) = sleepHeld a := fun a y =>
    foldl_keeps sleepHeld (copyRow y) (copyRow_sleepHeld y) (List.range a.pnl.queue.length) a
  have hrows : ∀ l a, sleepHeld (passRowsDo l a) = sleepHeld a := fun l a => by
    have hfold : sleepHeld (l.foldl passRow a) = sleepHeld a := foldl_keeps sleepHeld passRow hrow l a
    unfold passRowsDo
    dsimp only
    split
    · exact hfold
    · exact (settles_settle _).sleepHeld.trans hfold
  unfold panelRows
  dsimp only
  split
  · split
    · rfl
    · exact (hrows _ _).trans rfl
  · rfl

theorem panelDischarge_rest (s : State) : sleepHeld (panelDischarge s) = sleepHeld s ∧ (panelDischarge s).mem = s.mem := by
  unfold panelDischarge
  split
  · exact ⟨(reports_fireIf _ _ _).sleepHeld.trans (panelRows_sleepHeld s), (pnlPhaseTo_mem _ _).trans (rowsKept_panelRows s).1⟩
  · exact ⟨rfl, rfl⟩

/-- SLEEP is entered (R352). -/
theorem enterSleep_spec (s : State) : (enterSleep s).pair.mstate = .sleep ∧ (enterSleep s).sys.sleepPend = s.sys.sleepPend ∧
    (enterSleep s).wd.bwdFrom = s.time.cyc ∧ (enterSleep s).mem = s.mem := by
  obtain ⟨hheld, hmem⟩ := panelDischarge_rest (editCancel s)
  have hcancel : sleepHeld (editCancel s) = sleepHeld s := (reports_fireIf _ _ _).sleepHeld.trans rfl
  have hall := hheld.trans hcancel
  unfold enterSleep
  dsimp only
  rw [settle_pair, settle_sys, settle_wd, settle_mem]
  exact ⟨rfl, congrArg Prod.snd hall, congrArg Prod.fst hall, hmem.trans (fireIf_mem _ _ _)⟩

/-- A round leaves what the module does. -/
theorem roundStart_sys (s : State) : (roundStart s).sys = s.sys := by
  have hfold : ∀ (l : List Nat) (a : State), (l.foldl (fun a r => nvEnqueue (noticeRec a r) a) a).sys = a.sys :=
    fun l a => foldl_keeps (fun x : State => x.sys) _ (fun a r => nvEnqueue_sys _ a) l a
  have hif : ∀ (c : Prop) [Decidable c] (r : NvReq) (a : State), (if c then nvEnqueue r a else a).sys = a.sys := fun c _ r a => by
    split
    · exact nvEnqueue_sys _ a
    · rfl
  unfold roundStart
  extract_lets _ s1 s2 s3
  exact (hfold _ _).trans ((hif _ _ _).trans (hif _ _ _))

end Sys2Proof.Machine

/-! ## RUN, STOP, SLEEP and wake -/

namespace Sys2Proof.Machine

section
variable {s : State}

/-- A row of LE_CTRL that the CP may make for a session with ENGINEER is carried out. -/
theorem svcRow_leCtrl {v : Word} (h : rowMay s (.leRun v) = true) (o : Out) : svcRow 4 aLE true s o = o := by
  have hheld : sessionHolds s 4 = true := by
    simp only [rowMay, Bool.and_eq_true] at h
    obtain ⟨hr, -⟩ := h
    simpa [rowHeld, rowRoles] using hr
  rw [svcRow, if_pos hheld]
  exact cpRow_of_rowMay rfl h o

theorem exec_leRun {v : Word} (h : rowMay s (.leRun v) = true) : exec (.leRun v) s = .next (leRunOp v s) := svcRow_leCtrl h _

theorem exec_leStop {v : Word} (h : rowMay s (.leRun v) = true) : exec (.leStop v) s = .next (leStopOp v s) := svcRow_leCtrl h _

theorem exec_sleep {v : Word} (h : rowMay s (.sleep v) = true) : exec (.sleep v) s = .next (sleepOp v s) := cpRow_of_rowMay rfl h _

theorem leRunOp_badKey {v : Word} (h : fld v 16 16 ≠ 0xC35A) : leRunOp v s = leResult 1 s := if_pos h

theorem leStopOp_badKey {v : Word} (h : fld v 16 16 ≠ 0xC35A) : leStopOp v s = leResult 1 s := if_pos h

/-- RUN with its key (R350). -/
theorem leRunOp_keyed {v : Word} (h : fld v 16 16 = 0xC35A) : leRunOp v s =
    if s.pair.role = .active ∨ s.pair.role = .standby then leResult 5 s
    else if s.pair.mstate ≠ .ready then leResult 2 s
    else if s.sys.fatalHold then leResult 6 s
    else if !hasProg s then leResult 3 s
    else if !budgetOk s then budgetRefuse s
    else leResult 0 { s with le := { s.le with runPending := true } } := if_neg (fun hne => hne h)

/-- STOP with its key (R350). -/
theorem leStopOp_keyed {v : Word} (h : fld v 16 16 = 0xC35A) : leStopOp v s =
    if s.pair.role ≠ .solo then leResult 5 s
    else if ¬ inRun s then leResult 2 s
    else leResult 0 (settle (slcStartTables { s with le := { s.le with stopping := true } })) := if_neg (fun hne => hne h)

/-- A module in role SOLO or UNDECIDED gets its result of RUN by the checks in their order. -/
theorem leRunOp_free {v : Word} (h : fld v 16 16 = 0xC35A) (hr : s.pair.role = .solo ∨ s.pair.role = .undecided) : leRunOp v s =
    if s.pair.mstate ≠ .ready then leResult 2 s
    else if s.sys.fatalHold then leResult 6 s
    else if !hasProg s then leResult 3 s
    else if !budgetOk s then budgetRefuse s
    else leResult 0 { s with le := { s.le with runPending := true } } := by
  rw [leRunOp_keyed h]
  refine if_neg ?_
  rcases hr with hr | hr <;> simp [hr]

/-- SLEEP with bit 0 set (R352). -/
theorem sleepOp_asked {v : Word} (h : v.getLsbD 0 = true) : sleepOp v s =
    if fld v 16 16 ≠ 0xC35A then sleepResult 1 s
    else if s.pair.mstate ≠ .ready ∨ (s.pair.role ≠ .solo ∧ s.pair.role ≠ .undecided) then sleepResult 2 s
    else if anyRunning s then sleepResult 3 s
    else sleepResult 0 { s with sys := { s.sys with sleepPend := true, sleepRound := false } } :=
  if_neg (by rw [fbit, h]; decide)

/-- The explicit start of every group in RUN (R180, R350). -/
theorem slcStartTables_spec (hm : s.pair.mstate = .run) :
    (∃ g q i, slcStartTables s = { s with
      slc := { s.slc with lastCause := 4, lastGroup := BitVec.ofNat 5 (lowestBit 0xFFFFFFFF), lastValid := true, lastTime := s.time.ns, grp := g }
      ev := q, img := { s.img with fired := i } }) ∧
    (mwf (fun _ => ({} : SlcGrp)) s.slc.grp = true → ∀ g < nGroups s, g < 32 → (sg s g).phase = .idle →
      (sg (slcStartTables s) g).phase = .running) := by
  have heq : slcStartTables s = ((List.range 32).filter (fun g => (0xFFFFFFFF : Word).getLsbD g)).foldl
      (fun a g => slcStartGrp 4 ((fun _ => true) g) a g) (slcRecord 4 (lowestBit 0xFFFFFFFF) s) := if_pos (.inl hm)
  rw [heq]
  refine ⟨triggers_slcStartGrps 4 (fun _ => true) _ (slcRecord 4 (lowestBit 0xFFFFFFFF) s), fun hwf g hg h32 hi => ?_⟩
  have hstart := (slcStartGrps_spec 4 (fun _ => true) ((List.range 32).filter (fun g => (0xFFFFFFFF : Word).getLsbD g))
    (List.nodup_range.filter _) (s := slcRecord 4 (lowestBit 0xFFFFFFFF) s) hwf).2 g
  have hbit : (0xFFFFFFFF : Word).getLsbD g = true := by
    have : (0xFFFFFFFF : Word) = BitVec.allOnes 32 := by decide
    rw [this, BitVec.getLsbD_allOnes]
    exact decide_eq_true h32
  exact (hstart.1 ⟨List.mem_filter.mpr ⟨List.mem_range.mpr h32, hbit⟩, hg, hi⟩).1

theorem nGroups_le (s : State) : nGroups s ≤ 32 := by
  unfold nGroups
  split <;> decide

/-- The state that an accepted STOP leaves. -/
def stopped (s : State) : State := leResult 0 (settle (slcStartTables { s with le := { s.le with stopping := true } }))

theorem leStopOp_stops {v : Word} (h : fld v 16 16 = 0xC35A) (hr : s.pair.role = .solo) (hm : s.pair.mstate = .run) :
    leStopOp v s = stopped s := by
  rw [leStopOp_keyed h, if_neg (fun hne => hne hr), if_neg (by simp [inRun, hm])]
  rfl

theorem leResult_settle (s : State) : (leResult 0 (settle s)).le = { s.le with result := 0 } ∧
    (leResult 0 (settle s)).pair = (settle s).pair ∧ (leResult 0 (settle s)).slc = s.slc ∧ (leResult 0 (settle s)).mem = s.mem := by
  unfold leResult
  rw [← settle_slc s, ← settle_mem s]
  refine ⟨?_, rfl, rfl, rfl⟩
  dsimp only
  rw [settle_le]
  rfl

/-- STOP: every group starts its sequence, and the scan goes on until they rest (R350). -/
theorem stopped_spec (hm : s.pair.mstate = .run) : (stopped s).le.stopping = true ∧ (stopped s).le.result = 0 ∧
    (stopped s).pair.mstate = .run ∧ (stopped s).slc.lastCause = 4 ∧ (stopped s).mem = s.mem ∧
    (mwf (fun _ => ({} : SlcGrp)) s.slc.grp = true → ∀ g < nGroups s, (sg s g).phase = .idle →
      (sg (stopped s) g).phase = .running) := by
  obtain ⟨⟨x, q, i, heq⟩, hstart⟩ := slcStartTables_spec (s := { s with le := { s.le with stopping := true } }) hm
  unfold stopped
  generalize slcStartTables _ = z at heq hstart ⊢
  obtain ⟨hle, hpair, hslc, hmem⟩ := leResult_settle z
  refine ⟨?_, ?_, ?_, ?_, ?_, fun hwf g hg hi => ?_⟩
  · rw [hle, heq]
  · rw [hle]
  · rw [hpair, settle_pair, heq]
    exact hm
  · rw [hslc, heq]
  · rw [hmem, heq]
  · rw [sg_congr hslc g]
    exact hstart hwf g hg (Nat.lt_of_lt_of_le hg (nGroups_le s)) hi

/-- An enabled wake source ends SLEEP with a reset of cause SOFT (R353). -/
theorem wakePin_wakes {bit : Nat} (hm : s.pair.mstate = .sleep) (hb : (force s (aSYS + 0x14)).getLsbD bit = true)
    (hp : s.sys.pendReset = none) :
    (wakePin bit s).sys.wake = true ∧ (wakePin bit s).sys.pendReset = some 5 ∧ (wakePin bit s).mem = s.mem := by
  rw [wakePin, if_pos ⟨hm, hb⟩, callReset]
  simp [hp]

/-- The conditions of SLEEP (R352). -/
theorem maySleep_of (hm : s.pair.mstate = .ready) (hr : s.pair.role = .solo ∨ s.pair.role = .undecided) (ha : anyRunning s = false) :
    maySleep s = true := by
  rcases hr with hr | hr <;> simp [maySleep, hm, hr, ha]

theorem sleepStep_pending (hp : s.sys.sleepPend = true) (hmay : maySleep s = true) : sleepStep s =
    if !s.sys.sleepRound then
      (if roundFree s then roundStart { s with sys := { s.sys with sleepRound := true } } else s)
    else if s.btn.busy || nvBusy s then s
    else enterSleep { s with sys := { s.sys with sleepPend := false } } := by
  unfold sleepStep
  rw [hp, hmay]
  rfl

end

/-- Settles O55: RUN, STOP and SLEEP by the order of their checks, the idle clockwork by its cases, and each wake source by the pin that
it moves. -/
theorem runStopAndSleep : Obligations.RunStopAndSleep := by
  unfold Obligations.RunStopAndSleep
  intro s
  dsimp only
  refine ⟨fun v hkey => ⟨fun hmay => ⟨?runKey, ?stopKey⟩, fun hmay hb => ?sleepKey⟩, fun v hmay hb => ?sleepOff,
    fun v hmay hkey => ⟨fun hr => ?runPair, fun hr => ⟨fun hm => ?runState, fun hm hf => ?runHold, fun hm hf hp => ?runProg,
      fun hm hf hp hbud => ?runBudget, fun hm hf hp hbud => ?run⟩, fun hr => ?stopPair, fun hr hm => ?stopState, fun hm hr => ?stop⟩,
    fun v hmay hkey => ⟨fun hb hm => ?sleepState, fun hb hm hr => ⟨fun ha => ?sleepRunning, fun ha => ?sleep⟩⟩,
    fun hp hm hr ha => ⟨fun hround hfree => ?round, fun hround hbusy => ?waits, fun hround hbusy hnv => ?enters⟩,
    fun hstop hm ha => ?stopComplete, fun src hm hb hran hp => ?wake,
    fun hm hp => ⟨fun hb husb => ?usb, fun hb htwin on hon => ?token, fun u lines hu hpow hb hlow hhigh => ?modem⟩⟩
  case runKey => exact (exec_leRun hmay).trans (congrArg _ (leRunOp_badKey hkey))
  case stopKey => exact (exec_leStop hmay).trans (congrArg _ (leStopOp_badKey hkey))
  case sleepKey =>
    rw [exec_sleep hmay, sleepOp_asked hb, if_pos hkey]
    rfl
  case sleepOff =>
    rw [exec_sleep hmay, sleepOp, fbit, hb]
    rfl
  case runPair =>
    rw [exec_leRun hmay, leRunOp_keyed hkey, if_pos hr]
    rfl
  case runState =>
    rw [exec_leRun hmay, leRunOp_free hkey hr, if_pos hm]
    rfl
  case runHold =>
    rw [exec_leRun hmay, leRunOp_free hkey hr, if_neg (fun h => h hm), if_pos hf]
    rfl
  case runProg =>
    rw [exec_leRun hmay, leRunOp_free hkey hr, if_neg (fun h => h hm), if_neg (by simp [hf]), if_pos (by simp [hasProg, hp])]
    rfl
  case runBudget =>
    refine ⟨budgetRefuse s, ?_, ?_⟩
    · rw [exec_leRun hmay, leRunOp_free hkey hr, if_neg (fun h => h hm), if_neg (by simp [hf]), if_neg (by simpa [hasProg] using hp),
        if_pos (by simp [hbud])]
    · rw [budgetRefuse, notice_le, notice_pair, notice_mem]
      exact ⟨rfl, rfl, rfl, rfl, rfl⟩
  case run =>
    rw [exec_leRun hmay, leRunOp_free hkey hr, if_neg (fun h => h hm), if_neg (by simp [hf]), if_neg (by simpa [hasProg] using hp),
      if_neg (by simp [hbud])]
    rfl
  case stopPair =>
    rw [exec_leStop hmay, leStopOp_keyed hkey, if_pos hr]
    rfl
  case stopState =>
    rw [exec_leStop hmay, leStopOp_keyed hkey, if_neg (fun h => h hr), if_pos (by simp [inRun, hm])]
    rfl
  case stop =>
    refine ⟨_, (exec_leStop hmay).trans (congrArg _ (leStopOp_stops hkey hr hm)), ?_⟩
    obtain ⟨hstopping, hresult, hstate, hcause, hmem, hstart⟩ := stopped_spec hm
    exact ⟨hstopping, hresult, hstate, hcause, hmem, fun hok g hg hi => hstart (tablesOk_slcGrp hok) g hg hi⟩
  case sleepState =>
    rw [exec_sleep hmay, sleepOp_asked hb, if_neg (fun h => h hkey), if_pos (.inl hm)]
    rfl
  case sleepRunning =>
    rw [exec_sleep hmay, sleepOp_asked hb, if_neg (fun h => h hkey), if_neg (by rcases hr with hr | hr <;> simp [hm, hr]), if_pos ha]
    rfl
  case sleep =>
    rw [exec_sleep hmay, sleepOp_asked hb, if_neg (fun h => h hkey), if_neg (by rcases hr with hr | hr <;> simp [hm, hr]),
      if_neg (by simp [ha])]
    rfl
  case round =>
    rw [sleepStep_pending hp (maySleep_of hm hr ha), if_pos (by rw [hround]; rfl), if_pos hfree]
    obtain ⟨hbusy, hmem, -⟩ := roundStart_spec { s with sys := { s.sys with sleepRound := true } }
    exact ⟨hbusy, congrArg SysSt.sleepRound (roundStart_sys _), hmem⟩
  case waits =>
    rw [sleepStep_pending hp (maySleep_of hm hr ha), if_neg (by rw [hround]; decide)]
    exact if_pos (by simpa using hbusy)
  case enters =>
    rw [sleepStep_pending hp (maySleep_of hm hr ha), if_neg (by rw [hround]; decide), if_neg (by simp [hbusy, hnv])]
    exact enterSleep_spec { s with sys := { s.sys with sleepPend := false } }
  case stopComplete => exact if_pos (by simp [hstop, inRun, hm, ha])
  case wake =>
    refine (if_pos ⟨hm, hb, hran⟩).trans ?_
    simp [callReset, hp]
  case usb =>
    refine ⟨wakePin 4 { s with cp := { s.cp with usb := true } }, ?_,
      wakePin_wakes (s := { s with cp := { s.cp with usb := true } }) hm hb hp⟩
    change execUsbVbus true s = _
    unfold execUsbVbus
    rw [husb]
    rfl
  case token =>
    refine ⟨wakePin 5 { s with pair := { s.pair with tokenIn := on } }, ?_,
      wakePin_wakes (s := { s with pair := { s.pair with tokenIn := on } }) hm hb hp⟩
    change execTokenIn on s = _
    simp only [execTokenIn, htwin, Bool.not_true, Bool.false_eq_true, if_false, hm, if_true, if_neg hon]
  case modem =>
    have hne : lines ≠ (ua s u.toNat).lines := fun h => by
      rw [h, hlow] at hhigh
      exact absurd hhigh (by decide)
    refine ⟨wakePin (2 + u.toNat) (uaPut s u.toNat { ua s u.toNat with lines := lines }), ?_,
      wakePin_wakes (s := uaPut s u.toNat { ua s u.toNat with lines := lines }) hm hb hp⟩
    change execModemLineChange u lines s = _
    unfold execModemLineChange
    dsimp only
    rw [if_pos (by simp [hu, hne, hpow, hm]), if_pos (by rw [hhigh, hlow]; rfl)]

end Sys2Proof.Machine

/-! ## A record that waits for the write queue -/

namespace Sys2Proof.Machine

/-- The CP asks for a record of entry (1, 0) that is not critical, while a critical record of the same entry waits for the queue. -/
def waitingWitness : State :=
  { State.reset with
    regs := { written := [], force := [(aNV + 8, 1)] }
    sys := { State.reset.sys with powered := true, inReset := false }
    pair := { State.reset.pair with mstate := .ready }
    nv := { State.reset.nv with mounted := true, waiting := [{ key := 1, fmt := 0, crit := true, data := [], seq := 0 }] } }

/-- The queue that a command leaves holds only critical records. -/
def queuesCritical (o : Out) : Bool :=
  match o with
  | .next t => t.nv.queue.all (·.crit)
  | _ => false

/-- The model's run: the record joins the queue as a critical one. -/
theorem nvWrite_waitingWitness : queuesCritical (exec .nvWrite waitingWitness) = true := by decide +kernel

/-- Refutes O51: a WRITE takes over the record of its entry that waits for the queue, and stays critical if that one was, whatever its own
CRIT bit says. -/
theorem not_recordStore : ¬ Obligations.RecordStore := by
  unfold Obligations.RecordStore
  intro h
  obtain ⟨-, hmounted, -⟩ := h waitingWitness
  obtain ⟨-, -, -, -, haccept, -, -⟩ := hmounted (by decide +kernel) (by decide +kernel)
  obtain ⟨t, r, ht, hqueue, -, -, hcrit, -⟩ := haccept (by decide +kernel) (by decide +kernel) (by decide +kernel) (by decide +kernel)
    (by decide +kernel) (by decide +kernel)
  have hrun := nvWrite_waitingWitness
  have hbit : (force waitingWitness (aNV + 8)).getLsbD 20 = false := by decide +kernel
  rw [hbit] at hcrit
  rw [ht, queuesCritical, hqueue] at hrun
  simp [hcrit] at hrun

end Sys2Proof.Machine

/-! ## A write over a word of CP SRAM with an error -/

namespace Sys2Proof.Machine

/-- The CP runs, and the first word of its SRAM has a single-bit error. -/
def sramWitness : State :=
  { State.reset with
    sys := { State.reset.sys with powered := true, inReset := false }
    pair := { State.reset.pair with mstate := .ready }
    mem := { State.reset.mem with upset := [(sramKey 0, 1)] } }

/-- The model's run: the word that is written stands without its error. -/
theorem registerWrite_sramWitness : endsUpsets (exec (.registerWrite ⟨0x20000000, .vendor⟩ 0) sramWitness) = true := by
  decide +kernel

/-- Refutes O56: a write to a word of CP SRAM ends the error of that word, which stands with the memories, so that the SRAM is not all that
the write changes. -/
theorem not_registerWrites : ¬ Obligations.RegisterWrites := by
  unfold Obligations.RegisterWrites
  intro h
  obtain ⟨-, -, -, hwrite⟩ := h
  obtain ⟨-, -, hopen⟩ := hwrite sramWitness 0x20000000 0 (by decide +kernel)
  obtain ⟨-, -, -, -, -, -, hpermitted⟩ := hopen (by decide +kernel) (by decide +kernel)
  obtain ⟨hsram, -⟩ := hpermitted (by decide +kernel) (by decide +kernel) (by decide +kernel) (by decide +kernel)
  have ht := hsram (by decide) (by decide)
  have hrun := registerWrite_sramWitness
  rw [ht] at hrun
  exact absurd hrun (by decide)

end Sys2Proof.Machine

/-! ## Updating in the field: the operations of an update -/

namespace Sys2Proof.Machine

/-! ### STATE, RESULT and messages (R360, R368) -/

/-- A result is reported, and nothing else of the update changes. -/
theorem updNote_upd (r : Nat) (s : State) : (updNote r s).upd = { s.upd with result := BitVec.ofNat 8 r } := by
  unfold updNote
  rw [fire_upd, notice_upd]

theorem updNote_mem (r : Nat) (s : State) : (updNote r s).mem = s.mem := by
  unfold updNote
  rw [fire_mem, notice_mem]

theorem updNote_pend (r : Nat) (s : State) : (493 : BitVec 10) ∈ (updNote r s).ev.pend := mem_fire_pend rfl _

theorem updTo_upd (p : UpdPhase) (r : Nat) (s : State) :
    (updTo p r s).upd = { s.upd with phase := p, result := BitVec.ofNat 8 r } := by
  unfold updTo
  split
  · next h => rw [← h]
  · rw [updNote_upd]

theorem updTo_pend {p : UpdPhase} {s : State} (h : s.upd.phase ≠ p) (r : Nat) : (493 : BitVec 10) ∈ (updTo p r s).ev.pend := by
  rw [updTo, if_neg h]
  exact updNote_pend _ _

theorem updTo_mem (p : UpdPhase) (r : Nat) (s : State) : (updTo p r s).mem = s.mem := by
  obtain ⟨_, _, _, _, _, _, h⟩ := records_updTo p r s
  rw [h]

theorem activeSend_rest (m : CpMsg) (s : State) : (activeSend m s).upd = s.upd ∧ (activeSend m s).mem = s.mem ∧
    (activeSend m s).nv = s.nv ∧ (activeSend m s).ev = s.ev := by
  unfold activeSend cpSend
  split
  · split <;> exact ⟨rfl, rfl, rfl, rfl⟩
  · exact ⟨rfl, rfl, rfl, rfl⟩

theorem cpSend_rest (m : CpMsg) (s : State) : (cpSend m s).upd = s.upd ∧ (cpSend m s).mem = s.mem ∧ (cpSend m s).sys = s.sys ∧
    (cpSend m s).ev = s.ev := by
  unfold cpSend
  split <;> exact ⟨rfl, rfl, rfl, rfl⟩

theorem queueActivate_rest (kind : Nat) (s : State) : (queueActivate kind s).upd = s.upd ∧ (queueActivate kind s).mem = s.mem := by
  have hstep : ∀ (a : State) (b : Nat), (if refMaster a b then buPut a b { bu a b with sched := (bu a b).sched ++ [actFrame s kind] }
      else a).upd = a.upd ∧ (if refMaster a b then buPut a b { bu a b with sched := (bu a b).sched ++ [actFrame s kind] }
      else a).mem = a.mem := fun a b => by
    split <;> exact ⟨rfl, rfl⟩
  exact ⟨foldl_keeps (fun a : State => a.upd) _ (fun a b => (hstep a b).1) _ _,
    foldl_keeps (fun a : State => a.mem) _ (fun a b => (hstep a b).2) _ _⟩

theorem withdraw_rest (s : State) : (withdraw s).upd = s.upd ∧ (withdraw s).mem = s.mem := by
  unfold withdraw
  split
  · exact queueActivate_rest 3 s
  · exact ⟨rfl, rfl⟩

/-! ### Arming (R361) -/

/-- What a set has staged. -/
structure SetHeld where
  man : Option ManifestMsg
  seq : Word
  chunks : List (Nat × Nat)
  verified : BitVec 6

/-- What the update state holds of the set. -/
def setHeld (u : UpdSt) : SetHeld where
  man := u.man
  seq := u.seq
  chunks := u.chunks
  verified := u.verified

theorem setHeld_congr {u v : UpdSt} (hm : u.man = v.man) (hs : u.seq = v.seq) (hc : u.chunks = v.chunks)
    (hv : u.verified = v.verified) : setHeld u = setHeld v := by
  rw [setHeld, setHeld, hm, hs, hc, hv]

theorem updNote_setHeld (r : Nat) (s : State) : setHeld (updNote r s).upd = setHeld s.upd := by
  rw [updNote_upd]
  rfl

theorem updTo_setHeld (p : UpdPhase) (r : Nat) (s : State) : setHeld (updTo p r s).upd = setHeld s.upd := by
  rw [updTo_upd]
  rfl

/-- The state that a set leaves as it becomes ARMED for the tick `a`. -/
def updArmed (a : Nat) (s : State) : State :=
  let s1 := { s with upd := { s.upd with actTick := a } }
  updTo .armed 0 { s1 with upd := { s1.upd with
    decided := false, goSent := false, migDone := false, partnerReady := none, armSec := 0 } }

theorem updArmed_rest (a : Nat) (s : State) : (updArmed a s).mem = s.mem ∧ setHeld (updArmed a s).upd = setHeld s.upd := by
  unfold updArmed
  rw [updTo_mem, updTo_setHeld]
  exact ⟨rfl, rfl⟩

/-- A set whose parts are all VERIFIED becomes ARMED, or stays STAGED with its code. -/
theorem updArm_cases (s : State) (P : State → Prop)
    (hnote : ∀ r, P (updNote r { s with upd := { s.upd with phase := .staged } })) (harm : ∀ a, P (updArmed a s)) : P (updArm s) := by
  unfold updArm
  extract_lets a _ s1
  exact iteInduction (motive := P) (fun _ => hnote 11) fun _ => iteInduction (motive := P) (fun _ => hnote 12) fun _ => harm a

/-- Arming leaves what is staged. -/
theorem updArm_rest (s : State) : (updArm s).mem = s.mem ∧ setHeld (updArm s).upd = setHeld s.upd :=
  updArm_cases s (fun x => x.mem = s.mem ∧ setHeld x.upd = setHeld s.upd) (fun _ => ⟨updNote_mem _ _, updNote_setHeld _ _⟩) fun a => updArmed_rest a s

theorem armIfStaged_rest (s : State) : (armIfStaged s).mem = s.mem ∧ setHeld (armIfStaged s).upd = setHeld s.upd := by
  unfold armIfStaged
  split
  · exact updArm_rest s
  · exact ⟨rfl, rfl⟩

/-! ### Manifests (R356) -/

theorem manifestTake_refused {s : State} {m : ManifestMsg} (h : manifestCode s m ≠ 0) :
    manifestTake m s = updNote (manifestCode s m) s := if_pos h

/-- An accepted manifest is the staged one. -/
theorem manifestTake_taken {s : State} {m : ManifestMsg} (h : manifestCode s m = 0) : (manifestTake m s).upd.man = some m ∧
    (manifestTake m s).upd.seq = manSeq m ∧ (manifestTake m s).mem = s.mem := by
  unfold manifestTake
  extract_lets code s1 kept is keep _ s2
  rw [if_neg (fun hne => hne h)]
  obtain ⟨hupd, hmem, -⟩ := activeSend_rest (.manifest m) (armIfStaged (updTo .staging 0 s2))
  obtain ⟨amem, aupd⟩ := armIfStaged_rest (updTo .staging 0 s2)
  have h2 : s2.mem = s.mem := (withdraw_rest s).2
  have hheld := aupd.trans (updTo_setHeld .staging 0 s2)
  rw [hupd, hmem, amem, updTo_mem]
  exact ⟨congrArg SetHeld.man hheld, congrArg SetHeld.seq hheld, h2⟩

/-! ### Chunks (R357, R358) -/

/-- The bytes of a chunk go to the flash, to a slot, or to the staging area. -/
theorem chunkStore_rest (p : Part) (c : Nat) (data : List Byte) (s : State) : (chunkStore p c data s).mem = s.mem ∧
    setHeld (chunkStore p c data s).upd = setHeld s.upd ∧ (chunkStore p c data s).upd.phase = s.upd.phase := by
  have hput : ∀ (i : BitVec 1) (x : CfgSlot), (slotPut i x s).mem = s.mem ∧ (slotPut i x s).upd = s.upd := fun i x => by
    unfold slotPut
    split <;> exact ⟨rfl, rfl⟩
  unfold chunkStore
  split
  · exact ⟨rfl, rfl, rfl⟩
  · split
    · dsimp only
      split
      · exact ⟨rfl, rfl, rfl⟩
      · obtain ⟨hm, hu⟩ := hput (BitVec.ofNat 1 p.target) { slotOf s (BitVec.ofNat 1 p.target) with
          bytes := putBytes (slotOf s (BitVec.ofNat 1 p.target)).bytes (512 * c) (data.take (p.length - 68 - 512 * c)) }
        exact ⟨hm, setHeld_congr (congrArg UpdSt.man hu :) (congrArg UpdSt.seq hu :) (congrArg UpdSt.chunks hu :)
          (congrArg UpdSt.verified hu :), (congrArg UpdSt.phase hu :)⟩
    · exact ⟨rfl, rfl, rfl⟩

/-- The state in which a chunk has been written, its bit programmed where it reads back. -/
def chunkNoted (p : Part) (c : Nat) (data : List Byte) (readOk : Bool) (img : Option UpdImage) (s : State) : State :=
  let x := chunkStore p c data s
  { x with upd := { x.upd with
    busy := true, img := if img.isSome then img else x.upd.img
    chunks := if readOk then addNew (p.type, c) x.upd.chunks else x.upd.chunks } }

/-- The chunks of a part that have arrived. -/
def chunksOf (p : Part) (s : State) : Nat := (s.upd.chunks.filter (fun q => decide (q.1 = p.type))).length

/-- A chunk that is accepted into a target that has been erased. -/
theorem chunkTake_eq {s : State} {type : BitVec 4} {c : Nat} {data : List Byte} {p : Part} (hp : partOf s type.toNat = some p)
    (hc : c < partChunks p) (hlen : data.length = if c + 1 = partChunks p then p.length - 512 * c else 512)
    (hver : s.upd.verified.getLsbD (type.toNat - 1) = false) (hphase : s.upd.phase = .staging ∨ s.upd.phase = .staged)
    (herased : s.upd.erased.getLsbD (type.toNat - 1) = true) (hopen : s.nv.flOpen = []) (readOk : Bool) (img : Option UpdImage) :
    chunkTake type c data (byteCrc data) readOk img s = activeSend (.chunk type c data (byteCrc data) true img)
      (if partChunks p ≤ chunksOf p (chunkNoted p c data readOk img s) then partDone p (chunkNoted p c data readOk img s)
        else chunkNoted p c data readOk img s) := by
  have htype : p.type = type.toNat := by simpa using List.find?_some hp
  unfold chunkTake
  rw [hp]
  dsimp only
  refine (if_neg ?_).trans ?_
  · rw [htype, hver]
    rcases hphase with h | h <;> simp [hlen, h, hc]
  · have hfresh : (!s.upd.erased.getLsbD (p.type - 1) || (partSectors p).any (fun k => s.nv.flOpen.contains (true, k))) = false := by
      simp [htype, herased, hopen]
    simp only [hfresh, decide_eq_true_eq, if_false, Bool.false_eq_true]
    rfl

/-- A chunk with a bad CRC is discarded. -/
theorem chunkTake_badCrc {s : State} {data : List Byte} {crc : Word} (h : byteCrc data ≠ crc) (type : BitVec 4) (c : Nat) (readOk : Bool)
    (img : Option UpdImage) : chunkTake type c data crc readOk img s = s := by
  unfold chunkTake
  split
  · exact if_pos (by simp [h])
  · rfl

theorem partOf_type {s : State} {n : Nat} {p : Part} (h : partOf s n = some p) : p.type = n := by simpa using List.find?_some h

/-- The marks of a chunk leave the bytes of its part. -/
theorem partBytes_chunkNoted (p : Part) (c : Nat) (data : List Byte) (readOk : Bool) (img : Option UpdImage) (s : State) :
    partBytes (chunkNoted p c data readOk img s) p = partBytes (chunkStore p c data s) p := rfl

/-- A part of another type than a slot whose bytes match is VERIFIED. -/
theorem partDone_verified {p : Part} {s : State} (hhash : bytesBE (sha256 (partBytes s p)) = p.hash) (htype : p.type ≠ 4) :
    (partDone p s).upd.chunks = s.upd.chunks ∧ (partDone p s).upd.verified = s.upd.verified ||| typeBit p.type ∧
    (partDone p s).mem = s.mem := by
  unfold partDone
  extract_lets ok
  rw [if_neg (fun hne => hne hhash), if_neg htype]
  have hok : ∀ a : State, (ok a).upd.chunks = a.upd.chunks ∧ (ok a).upd.verified = a.upd.verified ||| typeBit p.type ∧
      (ok a).mem = a.mem := fun a => by
    obtain ⟨hm, hu⟩ := armIfStaged_rest { a with upd := { a.upd with verified := a.upd.verified ||| typeBit p.type } }
    exact ⟨congrArg SetHeld.chunks hu, congrArg SetHeld.verified hu, hm⟩
  exact hok _

/-- An erase of a target takes the part's chunks with it. -/
theorem eraseTarget_rest (p : Part) (s : State) : (eraseTarget p s).upd.chunks = s.upd.chunks.filter (fun c => decide (c.1 ≠ p.type)) ∧
    (eraseTarget p s).upd.verified = s.upd.verified ∧ (eraseTarget p s).upd.result = s.upd.result ∧ (eraseTarget p s).mem = s.mem := by
  have hwear : ∀ (l : List Nat) (a : State), (flWear l a).upd = a.upd ∧ (flWear l a).mem = a.mem := fun l a => by
    refine ⟨foldl_keeps (fun a : State => a.upd) _ (fun a k => ?_) l a, foldl_keeps (fun a : State => a.mem) _ (fun a k => ?_) l a⟩
    · exact gradNotice_upd ..
    · exact gradNotice_mem ..
  unfold eraseTarget
  extract_lets l old _ _ s1
  have h1 : s1.upd.chunks = s.upd.chunks.filter (fun c => decide (c.1 ≠ p.type)) ∧ s1.upd.verified = s.upd.verified ∧
      s1.upd.result = s.upd.result ∧ s1.mem = s.mem := by
    simp only [s1]
    rw [(hwear l _).1, (hwear l _).2]
    exact ⟨rfl, rfl, rfl, rfl⟩
  clear_value s1
  split
  · unfold slotPut
    split <;> exact h1
  · exact h1

/-- A part whose bytes do not match is sent again. -/
theorem partDone_fails {p : Part} {s : State} (hhash : bytesBE (sha256 (partBytes s p)) ≠ p.hash) :
    (partDone p s).upd.result = 8 ∧ (partDone p s).upd.verified = s.upd.verified ∧
    (partDone p s).upd.chunks = s.upd.chunks.filter (fun c => decide (c.1 ≠ p.type)) ∧ (partDone p s).mem = s.mem := by
  unfold partDone
  extract_lets ok
  rw [if_pos hhash]
  obtain ⟨hc, hv, hr, hm⟩ := eraseTarget_rest p (updNote 8 s)
  rw [hc, hv, hr, hm, updNote_upd, updNote_mem]
  exact ⟨rfl, rfl, rfl, rfl⟩

end Sys2Proof.Machine

/-! ## Updating in the field: decision, confirmation and fallback -/

namespace Sys2Proof.Machine

/-! ### The decision (R362) -/

theorem flashPut_rest (w : Nat) (data : List Byte) (s : State) : (flashPut w data s).mem = s.mem ∧ (flashPut w data s).upd = s.upd ∧
    (flashPut w data s).sys = s.sys := ⟨rfl, rfl, rfl⟩

theorem slotPut_upd (i : BitVec 1) (x : CfgSlot) (s : State) : (slotPut i x s).upd = s.upd ∧
    (slotPut i x s).sys.pendReset = s.sys.pendReset := by
  unfold slotPut
  split <;> exact ⟨rfl, rfl⟩

/-- What a bank takes from the one that runs changes the flash and the verdicts alone. -/
theorem completeBank_rest (b : BitVec 1) (s : State) : (completeBank b s).mem = s.mem ∧
    (completeBank b s).upd.phase = s.upd.phase ∧ (completeBank b s).upd.decided = s.upd.decided := by
  have hcopy : ∀ (x : State) (c : Prop) [Decidable c] (f : NvSt), (if c then x else { x with nv := f }).mem = x.mem ∧
      (if c then x else { x with nv := f }).upd = x.upd := fun x c _ f => by
    split <;> exact ⟨rfl, rfl⟩
  unfold completeBank
  extract_lets copy s1
  have h1 : s1.mem = s.mem ∧ s1.upd = s.upd :=
    ⟨(hcopy _ _ _).1.trans (hcopy _ _ _).1, (hcopy _ _ _).2.trans (hcopy _ _ _).2⟩
  obtain ⟨hm, hu⟩ := h1
  clear_value s1
  exact ⟨hm, (congrArg UpdSt.phase hu :), (congrArg UpdSt.decided hu :)⟩

theorem nvEnqueue_upd (r : NvReq) (s : State) : (nvEnqueue r s).upd = s.upd := by
  unfold nvEnqueue
  simp only
  (repeat' split) <;> rfl

/-- GO (R362). -/
theorem commitGo_rest (s : State) : (commitGo s).mem = s.mem ∧ (commitGo s).upd.phase = s.upd.phase ∧
    (commitGo s).upd.decided = true := by
  unfold commitGo
  extract_lets _ s1 s2 s3
  have h1 : s1.mem = s.mem ∧ s1.upd.phase = s.upd.phase ∧ s1.upd.decided = true := by
    simp only [s1]
    rw [nvEnqueue_mem, nvEnqueue_upd]
    exact ⟨rfl, rfl, rfl⟩
  have h2 : s2.mem = s1.mem ∧ s2.upd = s1.upd := by
    simp only [s2]
    split
    · exact ⟨(slotPut_rest _ _ _).1, (slotPut_upd _ _ _).1⟩
    · exact ⟨rfl, rfl⟩
  obtain ⟨hm1, hp1, hd1⟩ := h1
  obtain ⟨hm2, hu2⟩ := h2
  have h3 : s3.mem = s.mem ∧ s3.upd.phase = s.upd.phase ∧ s3.upd.decided = true := by
    simp only [s3]
    clear_value s2
    split
    · next b _ =>
      obtain ⟨hm, hp, hd⟩ := completeBank_rest b s2
      exact ⟨hm.trans (hm2.trans hm1), hp.trans ((congrArg UpdSt.phase hu2).trans hp1),
        hd.trans ((congrArg UpdSt.decided hu2).trans hd1)⟩
    · exact ⟨hm2.trans hm1, (congrArg UpdSt.phase hu2).trans hp1, (congrArg UpdSt.decided hu2).trans hd1⟩
  exact h3

theorem updCancelWith_rest (r : Nat) (s : State) :
    (updCancelWith r s).upd = { s.upd with phase := .staged, result := BitVec.ofNat 8 r } ∧ (updCancelWith r s).mem = s.mem := by
  obtain ⟨hu, hm, -⟩ := activeSend_rest .cancel (queueActivate 3 s)
  obtain ⟨qu, qm⟩ := queueActivate_rest 3 s
  unfold updCancelWith
  rw [updTo_upd, updTo_mem, hu, hm, qu, qm]
  exact ⟨rfl, rfl⟩

/-! ### Confirmation (R365) -/

theorem updFinish_unconfirmed {s : State} (h : updConfirmed s = false) : updFinish s = s := by
  rw [updFinish, h]
  rfl

theorem updFinish_confirmed {s : State} (h : updConfirmed s = true) : (updFinish s).upd.phase = .idle ∧
    (updFinish s).upd.confSeq = s.upd.seq ∧ (updFinish s).upd.result = 17 ∧ (updFinish s).upd.man = none ∧
    (updFinish s).mem = s.mem := by
  unfold updFinish
  rw [if_pos h]
  extract_lets s1 _ s2
  have h1 : s1.mem = s.mem := by
    simp only [s1]
    split <;> rfl
  have h2 : s2.upd.phase = .idle ∧ s2.upd.confSeq = s.upd.seq ∧ s2.upd.result = 17 ∧ s2.upd.man = none ∧ s2.mem = s.mem := by
    simp only [s2]
    rw [updTo_upd, updTo_mem]
    exact ⟨rfl, rfl, rfl, rfl, h1⟩
  clear_value s2
  split
  · obtain ⟨hu, hm, -⟩ := cpSend_rest (.confirmed s.upd.seq) s2
    rw [hu, hm]
    exact h2
  · exact h2

/-! ### Fallback (R366) -/

theorem fallCall_spec {s : State} (h : s.upd.phase = .probation) (r : Nat) : (fallCall r s).upd.phase = .fallingBack ∧
    (fallCall r s).upd.result = BitVec.ofNat 8 r ∧ (fallCall r s).upd.fallNs = s.time.ns ∧
    (493 : BitVec 10) ∈ (fallCall r s).ev.pend ∧ (fallCall r s).mem = s.mem := by
  rw [fallCall, if_pos h]
  have hpend : (493 : BitVec 10) ∈ (updTo .fallingBack r { s with upd := { s.upd with fallNs := s.time.ns } }).ev.pend :=
    updTo_pend (by rw [h]; decide) r
  rw [updTo_upd, updTo_mem]
  exact ⟨rfl, rfl, rfl, hpend, rfl⟩

/-- A set that is withdrawn leaves nothing staged. -/
theorem dropSet_rest (s : State) : (dropSet s).mem = s.mem ∧ (dropSet s).sys.pendReset = s.sys.pendReset ∧
    (dropSet s).upd.result = s.upd.result ∧ (dropSet s).upd.man = none ∧ (dropSet s).upd.phase = s.upd.phase := by
  unfold dropSet
  extract_lets s1 s2 s3
  have h1 : s1.mem = s.mem ∧ s1.sys.pendReset = s.sys.pendReset ∧ s1.upd = s.upd := by
    simp only [s1]
    split
    · exact ⟨(slotPut_rest _ _ _).1, (slotPut_upd _ _ _).2, (slotPut_upd _ _ _).1⟩
    · exact ⟨rfl, rfl, rfl⟩
  have h2 : s2.mem = s1.mem ∧ s2.sys = s1.sys ∧ s2.upd = s1.upd := by
    simp only [s2]
    clear_value s1
    split
    · exact ⟨rfl, rfl, rfl⟩
    · exact ⟨rfl, rfl, rfl⟩
  have h3 : s3.mem = s2.mem ∧ s3.sys = s2.sys ∧ s3.upd = s2.upd := by
    simp only [s3]
    clear_value s2
    split <;> exact ⟨rfl, rfl, rfl⟩
  obtain ⟨hm1, hs1, hu1⟩ := h1
  obtain ⟨hm2, hs2, hu2⟩ := h2
  obtain ⟨hm3, hs3, hu3⟩ := h3
  have hu : s3.upd = s.upd := hu3.trans (hu2.trans hu1)
  have hm : s3.mem = s.mem := hm3.trans (hm2.trans hm1)
  have hs : s3.sys.pendReset = s.sys.pendReset := by rw [hs3, hs2, hs1]
  clear_value s3
  exact ⟨hm, hs, (congrArg UpdSt.result hu :), rfl, (congrArg UpdSt.phase hu :)⟩

/-- The starts before a reset touch sequences and events alone. -/
theorem slcStartTables_rest (s : State) : (slcStartTables s).upd = s.upd ∧ (slcStartTables s).mem = s.mem ∧
    (slcStartTables s).sys = s.sys := by
  unfold slcStartTables slcTriggerMask
  dsimp only
  split
  · obtain ⟨g, q, i, h⟩ := triggers_slcStartGrps 4 (fun _ => true) ((List.range 32).filter (fun g => (0xFFFFFFFF : Word).getLsbD g))
      (slcRecord 4 (lowestBit 0xFFFFFFFF) s)
    rw [h]
    exact ⟨rfl, rfl, rfl⟩
  · exact ⟨rfl, rfl, rfl⟩

theorem stopForReset_rest (cause : BitVec 4) {s : State} (h : s.sys.pendReset = none) : (stopForReset cause s).upd = s.upd ∧
    (stopForReset cause s).mem = s.mem ∧ (stopForReset cause s).sys.pendReset = some cause := by
  have hcall : ∀ x : State, x.upd = s.upd → x.mem = s.mem → x.sys = s.sys → (callReset cause x).upd = s.upd ∧
      (callReset cause x).mem = s.mem ∧ (callReset cause x).sys.pendReset = some cause := fun x hu hm hs => by
    unfold callReset
    dsimp only
    rw [hs, h]
    exact ⟨hu, hm, rfl⟩
  unfold stopForReset
  split
  · obtain ⟨hu, hm, hs⟩ := slcStartTables_rest s
    exact hcall _ hu hm hs
  · exact hcall s rfl rfl rfl

/-! ### DISCARD (R368) -/

theorem updDiscardOp_spec {s : State} (h : s.upd.phase ≠ .probation) (h' : s.upd.phase ≠ .fallingBack) :
    (updDiscardOp s).upd.phase = .idle ∧ (updDiscardOp s).upd.man = none ∧ (updDiscardOp s).upd.chunks = [] ∧
    (updDiscardOp s).upd.verified = 0 ∧ (updDiscardOp s).mem = s.mem := by
  unfold updDiscardOp
  rw [if_neg (not_or.mpr ⟨h, h'⟩)]
  extract_lets s1 s2
  have h1 : s1.mem = s.mem := by
    simp only [s1]
    split
    · exact (activeSend_rest _ _).2.1.trans (withdraw_rest s).2
    · rfl
  have h2 : s2.mem = s.mem := by
    simp only [s2]
    clear_value s1
    split
    · exact (dropSet_rest s1).1.trans h1
    · exact h1
  clear_value s2
  rw [updTo_upd, updTo_mem]
  exact ⟨rfl, rfl, rfl, rfl, h2⟩

end Sys2Proof.Machine

/-! ## Updating in the field: the bytes of a chunk -/

namespace Sys2Proof.Machine

/-- Four bytes of a part make a word, the first the lowest (R357). -/
theorem bytes_append (a b c d : Byte) {n : Nat} (hn : n = 256) :
    BitVec.ofNat 32 (d.toNat + c.toNat * n + b.toNat * (n * n) + a.toNat * (n * n * n)) = a ++ b ++ c ++ d := by
  apply BitVec.eq_of_toNat_eq
  have ha := a.isLt
  have hb := b.isLt
  have hc := c.isLt
  have hd := d.isLt
  rw [BitVec.toNat_append, BitVec.toNat_append, BitVec.toNat_append, ← Nat.shiftLeft_add_eq_or_of_lt hb, ← Nat.shiftLeft_add_eq_or_of_lt hc,
    ← Nat.shiftLeft_add_eq_or_of_lt hd, BitVec.toNat_ofNat, hn]
  simp only [Nat.shiftLeft_eq]
  omega

theorem sum_fourBytes (f : Nat → Nat) (n : Nat) : (List.range 4).foldl (fun v k => v + f k * n ^ k) 0 =
    f 0 + f 1 * n + f 2 * (n * n) + f 3 * (n * n * n) := by
  simp [List.range_succ, pow_succ]

theorem wordOf_leField (l : List Byte) (j : Nat) : wordOf (leField l j 4) =
    l.getD (j + 3) 0xFF ++ l.getD (j + 2) 0xFF ++ l.getD (j + 1) 0xFF ++ l.getD j 0xFF := by
  rw [← bytes_append _ _ _ _ rfl, leField, sum_fourBytes (fun k => (l.getD (j + k) 0xFF).toNat), wordOf]
  rfl

theorem mget_mputs_range {α : Type} [DecidableEq α] {d : Nat → α} {m : SMap α} (h : mwf d m = true) (w : Nat) (f : Nat → α) {n k : Nat}
    (hk : k < n) : mget d (mputs d m ((List.range n).map (fun i => (w + i, f i)))) (w + k) = f k := by
  induction n with
  | zero => exact absurd hk (Nat.not_lt_zero k)
  | succ n ih =>
    have hlast : mputs d m ((List.range (n + 1)).map (fun i => (w + i, f i))) =
        mput d (mputs d m ((List.range n).map (fun i => (w + i, f i)))) (w + n) (f n) := by
      rw [List.range_succ, List.map_append, mputs, List.foldl_append]
      rfl
    rw [hlast]
    rcases Nat.lt_succ_iff_lt_or_eq.mp hk with hlt | rfl
    · exact (mget_mput_other d (by omega)).trans (ih hlt)
    · exact mget_mput_same d (mwf_mputs d _ h)

/-- What the flash holds of a chunk that has been written. -/
theorem mget_flashPut {s : State} (h : mwf (fun _ => (0xFFFFFFFF : Word)) s.nv.flash = true) (w : Nat) {data : List Byte} {i : Nat}
    (hi : i < data.length / 4) : mget (fun _ => 0xFFFFFFFF) (flashPut w data s).nv.flash (w + i) =
      data.getD (4 * i + 3) 0xFF ++ data.getD (4 * i + 2) 0xFF ++ data.getD (4 * i + 1) 0xFF ++ data.getD (4 * i) 0xFF := by
  rw [← wordOf_leField]
  exact mget_mputs_range h w (fun i => wordOf (leField data (4 * i) 4)) (by omega)

/-- A part of type 1 is written to the flash, from the start of its bank. -/
theorem chunkNoted_flash {p : Part} (htype : p.type = 1) (c : Nat) (data : List Byte) (readOk : Bool) (img : Option UpdImage) (s : State) :
    (chunkNoted p c data readOk img s).nv.flash = (flashPut (0x100000 * p.target + 128 * c) data s).nv.flash := by
  have hword : partWord p = 0x100000 * p.target := by
    rw [partWord, htype]
    rfl
  have hstore : chunkStore p c data s = flashPut (partWord p + 128 * c) data s := if_pos (.inl htype)
  have hnoted : (chunkNoted p c data readOk img s).nv = (chunkStore p c data s).nv := rfl
  rw [hnoted, hstore, hword]

end Sys2Proof.Machine

/-! ## Updating in the field: the activation -/

namespace Sys2Proof.Machine

/-! ### What a reaction to a fault leaves of the update -/

theorem sendOn_upd (ls : List Bool) (p : LinkPayload) (s : State) : (sendOn ls p s).upd = s.upd := by
  obtain ⟨_, _, _, _, h⟩ := sendOn_eq ls p s
  rw [h]

theorem stopScan_upd (s : State) : (stopScan s).upd = s.upd := by
  obtain ⟨_, _, _, h⟩ := stopScan_eq s
  rw [h]

theorem setRole_upd (r : Role) (cause : Nat) (s : State) : (setRole r cause s).upd = s.upd := by
  unfold setRole
  split
  · rfl
  · exact fire_upd _ _ _

theorem enterShadow_upd (cause : Nat) (s : State) : (enterShadow cause s).upd = s.upd := by
  unfold enterShadow
  exact (notice_upd ..).trans ((setRole_upd .standby cause (editCancel s)).trans (fireIf_upd ..))

theorem releaseCheck_upd (s : State) : (releaseCheck s).upd = s.upd := by
  unfold releaseCheck
  dsimp only
  split
  · split
    · exact enterShadow_upd 7 s
    · rfl
  · rfl

theorem giveUpOp_upd (kind src reason : Nat) (s : State) : (giveUpOp kind src reason s).upd = s.upd := by
  unfold giveUpOp
  exact (releaseCheck_upd _).trans ((fire_upd _ _ _).trans ((sendOn_upd _ _ (stopScan s)).trans (stopScan_upd s)))

theorem slcTriggerAll_upd (cause : Nat) (s : State) : (slcTriggerAll cause s).upd = s.upd := by
  obtain ⟨⟨g, q, i, h⟩, -⟩ := slcTriggerAll_spec cause s
  rw [h]

theorem fatalReact_upd (src reason cause : Nat) (s : State) : (fatalReact src reason cause s).upd = s.upd := by
  unfold fatalReact
  dsimp only
  split
  · exact giveUpOp_upd _ _ _ _
  · exact (slcTriggerAll_upd cause _).trans (stopScan_upd _)
  · exact (slcTriggerAll_upd cause _).trans (stopScan_upd _)
  · rfl
  · rfl
  · rfl

/-- What a probation has begun with: the state of the update, the operating time, and whether the partner has confirmed. -/
structure ProbHeld where
  phase : UpdPhase
  probFrom : Nat
  partner : Bool

/-- What a state holds of it. -/
def probHeld (s : State) : ProbHeld where
  phase := s.upd.phase
  probFrom := s.upd.probFrom
  partner := s.upd.partnerConfirmed

theorem probHeld_congr {s t : State} (h : t.upd = s.upd) : probHeld t = probHeld s := by rw [probHeld, probHeld, h]

theorem fcuRecord_probHeld (src reason cls : Nat) (s : State) : probHeld (fcuRecord src reason cls s) = probHeld s := by
  unfold fcuRecord
  exact (probHeld_congr (fireIf_upd ..)).trans ((probHeld_congr (fire_upd ..)).trans rfl)

theorem fatalFault_probHeld (src reason : Nat) (s : State) : probHeld (fatalFault src reason s) = probHeld s :=
  (probHeld_congr (fatalReact_upd ..)).trans (fcuRecord_probHeld _ _ _ s)

theorem containedFault_probHeld (src reason : Nat) (s : State) : probHeld (containedFault src reason s) = probHeld s := by
  have hrec := fcuRecord_probHeld src reason 1 s
  unfold containedFault
  dsimp only
  split
  · exact (probHeld_congr (notice_upd ..)).trans hrec
  · exact (probHeld_congr (fatalReact_upd ..)).trans hrec
  · exact hrec

/-! ### The copy engine -/

theorem sramCount_upd (a : Nat) (s : State) : (sramCount a s).upd = s.upd := (fireIf_upd ..).trans (noticeIf_upd ..)

theorem corrected_upd (s : State) : (corrected s).upd = s.upd := fireIf_upd ..

theorem memFault_probHeld (s : State) (f : Nat × Nat) : probHeld (memFault s f) = probHeld s := by
  unfold memFault
  split
  · exact probHeld_congr ((sramCount_upd _ _).trans (corrected_upd s))
  · split
    · exact probHeld_congr ((sramCount_upd _ _).trans (corrected_upd _))
    · split
      · exact fatalFault_probHeld _ _ s
      · exact containedFault_probHeld _ _ s

theorem recordReadFaults_probHeld (l : List (Nat × Nat)) (s : State) : probHeld (recordReadFaults l s) = probHeld s :=
  foldl_keeps probHeld memFault memFault_probHeld l s

theorem accessRefused_probHeld (m a : Nat) (wr : Bool) (s : State) : probHeld (accessRefused m a wr s) = probHeld s := by
  unfold accessRefused freezeMaster
  split
  · rfl
  · dsimp only
    split
    · exact (fatalFault_probHeld _ _ _).trans (probHeld_congr (fire_upd ..))
    · exact (containedFault_probHeld _ _ _).trans (probHeld_congr (fire_upd ..))

theorem engAct_probHeld {f : State → State} (a : Nat) (wr : Bool) (s : State) (h : probHeld (f s) = probHeld s) :
    probHeld (engAct a wr f s) = probHeld s := by
  unfold engAct
  split
  · exact h
  · exact accessRefused_probHeld _ _ _ s

theorem writeWord_probHeld (a : Nat) (w : DWord) (s : State) : probHeld (writeWord a w s) = probHeld s := by
  obtain ⟨_, _, _, _, _, _, h, -⟩ := storeFrame_writeBits a 0xFFFFFFFF w.val w.tag s
  rw [writeWord, h]
  rfl

theorem migStep_probHeld (e : MigEntry) (s : State) (i : Nat) : probHeld (migStep e s i) = probHeld s := by
  have hput : ∀ (w : DWord) (x : State), probHeld (engAct (e.dst + i) true (writeWord (e.dst + i) w) x) = probHeld x := fun w x =>
    engAct_probHeld _ _ x (writeWord_probHeld _ _ x)
  unfold migStep
  dsimp only
  split
  · exact hput _ s
  · exact engAct_probHeld _ _ s ((hput _ _).trans (recordReadFaults_probHeld _ s))

theorem migRun_probHeld (m : MigRef) (s : State) : probHeld (migRun m s) = probHeld s := by
  unfold migRun
  exact (foldl_keeps probHeld _ (fun a e => foldl_keeps probHeld _ (migStep_probHeld e) _ a) _ _).trans (recordReadFaults_probHeld _ s)

/-! ### What lands without a reset (R363) -/

theorem editSupersede_upd (s : State) : (editSupersede s).upd = s.upd := fire_upd ..

theorem takeProgram_probHeld (c : CfgSlot) (s : State) : probHeld (takeProgram c s) = probHeld s := by
  unfold takeProgram
  extract_lets d s0 s1 s2
  have h1 : probHeld s1 = probHeld s := by
    simp only [s1]
    split
    · rfl
    · exact (migRun_probHeld _ _).trans rfl
  clear_value s1
  exact h1

theorem txAbort_upd (b e : Nat) (s : State) : (txAbort b e s).upd = s.upd := by
  unfold txAbort
  dsimp only
  split
  · exact fireIf_upd ..
  · rfl

theorem cpReset_upd (cause : Nat) (s : State) : (cpReset cause s).upd = s.upd := by
  unfold cpReset
  extract_lets s0 s1 msg
  have h1 : s1.upd = s.upd :=
    (foldl_keeps (fun a : State => a.upd) (fun a u => regPut a (aUART u + 0x1C) (force a (aUART u + 0x1C) &&& ~~~2)) (fun _ _ => rfl)
      (List.range 2) s0).trans (foldl_keeps (fun a : State => a.upd) _
        (fun a b => foldl_keeps (fun a : State => a.upd) (fun a e => txAbort b e a) (fun a e => txAbort_upd b e a) _ _) _ _)
  clear_value s1
  rw [settle_upd]
  exact h1

theorem takeSlot_probHeld (c : CfgSlot) (s : State) : probHeld (takeSlot c s) = probHeld s := probHeld_congr rfl

/-- The set's slot and program are taken up. -/
theorem takeSet_probHeld (c : CfgSlot) (s : State) {p : Prop} [Decidable p] :
    probHeld (takeSlot c (if p then takeProgram c s else s)) = probHeld s := by
  rw [takeSlot_probHeld]
  split
  · exact takeProgram_probHeld c s
  · rfl

theorem probHeld_withBank (s : State) (b : BitVec 1) : probHeld { s with upd := { s.upd with bank := b } } = probHeld s := rfl

theorem landRest_spec (s : State) : probHeld (landRest s) = probHeld s ∧ (landRest s).cp.down = true := by
  unfold landRest
  extract_lets a b
  have hb : probHeld b = probHeld s := by
    have ha : probHeld a = probHeld s := probHeld_congr (editSupersede_upd s)
    simp only [b]
    clear_value a
    split
    · exact (takeSet_probHeld _ a).trans ha
    · exact ha
  clear_value a b
  exact ⟨((probHeld_congr (cpReset_upd 4 _)).trans (probHeld_withBank b _)).trans hb, (cpReset_spec 4 _).1⟩

/-- Probation begins at the operating time `n`. -/
theorem updTo_probation (n : Nat) (s : State) :
    let t := updTo .probation 0 { s with upd := { s.upd with
      probFrom := n, confirmed := 0, partnerConfirmed := false, healthCyc := s.time.cyc, fatalCyc := s.time.cyc } }
    probHeld t = { phase := .probation, probFrom := n, partner := false } := by
  intro t
  simp only [t]
  rw [probHeld, updTo_upd]

theorem probation_probHeld (s : State) :
    probHeld (probation s) = { phase := .probation, probFrom := opCycles s, partner := false } := updTo_probation (opCycles s) s

theorem probation_mem (s : State) : (probation s).mem = s.mem := updTo_mem _ _ _

theorem probation_pendReset (s : State) : (probation s).sys.pendReset = s.sys.pendReset := by
  obtain ⟨_, _, _, _, _, _, h⟩ := records_updTo .probation 0 { s with upd := { s.upd with
    probFrom := opCycles s, confirmed := 0, partnerConfirmed := false, healthCyc := s.time.cyc, fatalCyc := s.time.cyc } }
  rw [probation, h]

end Sys2Proof.Machine

/-! ## Updating in the field: the settings that land with a set -/

namespace Sys2Proof.Machine

/-! ### Settings -/

theorem mget_mputs_notIn {α : Type} [DecidableEq α] {d : Nat → α} {j : Nat} (l : List (Nat × α)) (h : ∀ p ∈ l, p.1 ≠ j) (m : SMap α) :
    mget d (mputs d m l) j = mget d m j := by
  induction l generalizing m with
  | nil => rfl
  | cons p l ih => exact (ih (fun q hq => h q (.tail _ hq)) _).trans (mget_mput_other d (h p (.head _)).symm)

theorem mget_filter_kept {α : Type} [DecidableEq α] {d : Nat → α} {j : Nat} {q : Nat × α → Bool} (h : ∀ v, q (j, v) = true) (m : SMap α) :
    mget d (m.filter q) j = mget d m j := by
  induction m with
  | nil => rfl
  | cons p m ih =>
    obtain ⟨k, v⟩ := p
    by_cases hk : k = j
    · subst hk
      rw [List.filter_cons_of_pos (h v), mget, mget, if_pos rfl, if_pos rfl]
    · rw [mget, if_neg hk, ← ih, List.filter_cons]
      split
      · rw [mget, if_neg hk]
      · rfl

/-- A register outside the choice keeps its value. -/
theorem takeSettings_force {sel : Nat → Bool} {a : Nat} (h : sel a = false) (c : CfgSlot) (s : State) :
    force (takeSettings sel c s) a = force s a := by
  have hnew : ∀ p ∈ (newTable s c).filter (fun p => sel p.1), p.1 ≠ a := fun p hp he => by
    have := (List.mem_filter.mp hp).2
    rw [he, h] at this
    exact absurd this (by decide)
  exact (mget_mputs_notIn _ hnew _).trans (mget_filter_kept (fun v => by simp [h]) _)

/-- What the settings that land without a reset may change: registers, PAIR_CFG apart, step words, and the panel (R363). -/
def Lands (s t : State) : Prop :=
  (∃ r l p, t = { s with regs := r, slc := l, pnl := p }) ∧ force t aPAIR = force s aPAIR

theorem Lands.refl (s : State) : Lands s s := ⟨⟨_, _, _, rfl⟩, rfl⟩

theorem Lands.trans {s t u : State} (h : Lands s t) (k : Lands t u) : Lands s u := by
  obtain ⟨⟨r, l, p, rfl⟩, hf⟩ := h
  obtain ⟨⟨r2, l2, p2, rfl⟩, hf2⟩ := k
  exact ⟨⟨r2, l2, p2, rfl⟩, hf2.trans hf⟩

theorem lands_takeSettings {sel : Nat → Bool} (h : sel aPAIR = false) (c : CfgSlot) (s : State) : Lands s (takeSettings sel c s) :=
  ⟨⟨_, _, _, rfl⟩, takeSettings_force h c s⟩

theorem lands_takePanel (c : CfgSlot) (s : State) : Lands s (takePanel c s) := by
  have hsel : within aPAIR (aPNL + 8) (aPNL + 0xFF) = false := by decide
  unfold takePanel
  extract_lets s1 chg
  have h1 : Lands s s1 := lands_takeSettings hsel c s
  clear_value chg s1
  exact h1.trans ⟨⟨_, _, _, rfl⟩, rfl⟩

theorem lands_landSettings (s : State) : Lands s (landSettings s) := by
  have hprog : (programAddr aPAIR && isRwl aPAIR) = false := by decide
  have hfab : (fabricAddr aPAIR && isRwl aPAIR) = false := by decide
  have hparity : ∀ x : State, Lands x { x with slc := { x.slc with parityBad := [] } } := fun x => ⟨⟨_, _, _, rfl⟩, rfl⟩
  unfold landSettings
  split
  · next c _ =>
    extract_lets a a1 slc b
    have ha : Lands s a := by
      simp only [a]
      split
      · exact lands_takeSettings hprog c s
      · exact .refl s
    have hb : Lands a b := by
      simp only [b, slc, a1]
      clear_value a
      split
      · exact (lands_takeSettings hfab c a).trans (hparity _)
      · exact .refl a
    clear_value b
    split
    · exact (ha.trans hb).trans (lands_takePanel c b)
    · exact ha.trans hb
  · exact .refl s

/-! ### Channels that begin to settle -/

/-- What settling changes: channels, events, and the reflex unit. -/
def Turns (s t : State) : Prop := ∃ r c e i, t = { s with rfx := r, chan := c, ev := e, img := { s.img with fired := i } }

theorem Turns.refl (s : State) : Turns s s := ⟨_, _, _, _, rfl⟩

theorem Turns.trans {s t u : State} (h : Turns s t) (k : Turns t u) : Turns s u := by
  obtain ⟨_, _, _, _, rfl⟩ := h
  obtain ⟨r, c, e, i, rfl⟩ := k
  exact ⟨r, c, e, i, rfl⟩

theorem turns_settleStart (n : Nat) (b : Bool) (s : State) : Turns s (settleStart n b s) := by
  have hfire : ∀ (c : Bool) (x : State), Turns x (fireIf c n x) := fun c x => by
    obtain ⟨q, i, h⟩ := fireIf_eq c n x
    exact ⟨_, _, q, i, h⟩
  have hput : ∀ x : ChanSt, Turns s (chPut s n x) := fun x => ⟨_, _, _, _, rfl⟩
  unfold settleStart
  dsimp only
  exact (hput _).trans (hfire _ _)

theorem turns_settleNew (old : State) (first : Bool) (s : State) (n : Nat) : Turns s (settleNew old first s n) := by
  have hput : ∀ (a : State) (x : ChanSt), Turns a (chPut a n x) := fun a x => ⟨_, _, _, _, rfl⟩
  unfold settleNew
  dsimp only
  split
  · exact (turns_settleStart n _ s).trans (hput _ _)
  · exact turns_settleStart n _ s

theorem turns_settleChanged (old : State) (first : Bool) (s : State) : Turns s (settleChanged old first s) := by
  have hfold : ∀ (l : List Nat) (x : State),
      Turns x (l.foldl (fun a n => if settleBegins old first a n then settleNew old first a n else a) x) := by
    intro l
    induction l with
    | nil => exact fun x => .refl x
    | cons n l ih =>
      intro x
      refine Turns.trans ?_ (ih _)
      dsimp only
      split
      · exact turns_settleNew _ _ _ _
      · exact .refl x
  have hmask : Turns s (rfxMask s) := ⟨_, _, _, _, rfl⟩
  unfold settleChanged
  exact hmask.trans (hfold _ _)

end Sys2Proof.Machine

/-! ## Updating in the field: what ACTIVATION leaves -/

namespace Sys2Proof.Machine

/-- The settings of a set, and the channels that begin to settle under them, do not make it restart the module, and take no operating
time. -/
theorem restarts_landed {s u t : State} (h : Lands s u) (k : Turns u t) : restarts t = restarts s ∧ opCycles t = opCycles s := by
  obtain ⟨⟨r, l, p, rfl⟩, hf⟩ := h
  obtain ⟨x, c, e, i, rfl⟩ := k
  refine ⟨?_, rfl⟩
  generalize ht : ({ s with regs := r, slc := l, pnl := p, rfx := x, chan := c, ev := e, img := { s.img with fired := i } } : State) = t
  have hslot : updSlot t = updSlot s := by subst ht; rfl
  have hperiod : newPeriod t = newPeriod s := by subst ht; rfl
  have htable : ∀ c, newTable t c = newTable s c := fun c => by subst ht; rfl
  have hfit : ∀ c, noFit t c = noFit s c := fun c => by subst ht; rfl
  have hforce : force t aPAIR = force s aPAIR := by subst ht; exact hf
  have hman : t.upd = s.upd := by subst ht; rfl
  have htick : t.tick = s.tick := by subst ht; rfl
  have hnv : t.nv = s.nv := by subst ht; rfl
  unfold restarts
  rw [hslot, hperiod, hforce, hman, htick, hnv]
  simp only [htable, hfit]

/-- The activation of a set that does not reset the module. -/
theorem actLand_lands {s : State} (h : restarts s = false) :
    probHeld (actLand s) = { phase := .probation, probFrom := opCycles s, partner := false } ∧ (actLand s).cp.down = true := by
  have hland : actLand s = landRest (probation s) := if_neg (by rw [h]; decide)
  obtain ⟨hprob, hdown⟩ := landRest_spec (probation s)
  rw [hland]
  exact ⟨hprob.trans (probation_probHeld s), hdown⟩

/-- The activation of a set that resets it. -/
theorem actLand_resets {s : State} (h : restarts s = true) : actLand s = stopForReset 6 (editSupersede (probation s)) := if_pos h

theorem callReset_upd (cause : BitVec 4) (s : State) : (callReset cause s).upd = s.upd := rfl

theorem stopForReset_upd (cause : BitVec 4) (s : State) : (stopForReset cause s).upd = s.upd := by
  unfold stopForReset
  rw [callReset_upd]
  split
  · exact (slcStartTables_rest s).1
  · rfl

theorem execActivation_due {s : State} (h : actDue s = true) : execActivation s =
    .next (settle (actLand (if restarts s then s else settleChanged s false (landSettings s)))) := if_pos h

/-- A set lands in probation (R363, R365). -/
theorem activation_spec {s : State} (h : actDue s = true) : ∃ t, exec .activation s = .next t ∧
    probHeld t = { phase := .probation, probFrom := opCycles s, partner := false } ∧ (restarts s = false → t.cp.down = true) ∧
    (restarts s = true → s.sys.pendReset = none → t.sys.pendReset = some 6 ∧ t.mem = s.mem) := by
  refine ⟨_, execActivation_due h, ?_⟩
  rcases hr : restarts s
  · obtain ⟨hrs, hop⟩ := restarts_landed (lands_landSettings s) (turns_settleChanged s false (landSettings s))
    obtain ⟨hprob, hdown⟩ := actLand_lands (hrs.trans hr)
    refine ⟨?_, fun _ => ?_, fun hne => nomatch hne⟩
    · exact ((probHeld_congr (settle_upd _)).trans hprob).trans (by rw [hop])
    · exact (congrArg CpSt.down (settle_cp _)).trans hdown
  · refine ⟨?_, (fun hne => nomatch hne), fun _ hnone => ?_⟩
    · refine (probHeld_congr (settle_upd _)).trans ?_
      rw [if_pos rfl, actLand_resets hr]
      exact ((probHeld_congr (stopForReset_upd _ _)).trans (probHeld_congr (editSupersede_upd _))).trans (probation_probHeld s)
    · have hsys : (editSupersede (probation s)).sys.pendReset = none := (probation_pendReset s).trans hnone
      obtain ⟨-, hmem, hreset⟩ := stopForReset_rest 6 hsys
      rw [if_pos rfl, actLand_resets hr, settle_sys, settle_mem]
      exact ⟨hreset, hmem.trans (probation_mem s)⟩

end Sys2Proof.Machine

/-! ## Updating in the field: the obligation -/

namespace Sys2Proof.Machine

/-! ### Chunks as they are taken -/

/-- What a chunk leaves as it is written. -/
theorem chunkNoted_rest (p : Part) (c : Nat) (data : List Byte) (readOk : Bool) (img : Option UpdImage) (s : State) :
    (chunkNoted p c data readOk img s).mem = s.mem ∧ (chunkNoted p c data readOk img s).upd.verified = s.upd.verified ∧
    (chunkNoted p c data readOk img s).upd.phase = s.upd.phase ∧
    (chunkNoted p c data readOk img s).upd.chunks = if readOk then addNew (p.type, c) s.upd.chunks else s.upd.chunks := by
  obtain ⟨hm, hu, hp⟩ := chunkStore_rest p c data s
  have hc : (chunkStore p c data s).upd.chunks = s.upd.chunks := congrArg SetHeld.chunks hu
  have hv : (chunkStore p c data s).upd.verified = s.upd.verified := congrArg SetHeld.verified hu
  unfold chunkNoted
  refine ⟨hm, hv, hp, ?_⟩
  dsimp only
  rw [hc]

/-- The bits of a part after a chunk that reads back. -/
theorem chunkNoted_read {s : State} {type : BitVec 4} {p : Part} (hp : partOf s type.toNat = some p) (c : Nat) (data : List Byte)
    (img : Option UpdImage) : (chunkNoted p c data true img s).upd.chunks = addNew (type.toNat, c) s.upd.chunks ∧
      chunksOf p (chunkNoted p c data true img s) =
        ((addNew (type.toNat, c) s.upd.chunks).filter (fun q => decide (q.1 = type.toNat))).length := by
  obtain ⟨-, -, -, hch⟩ := chunkNoted_rest p c data true img s
  rw [chunksOf, hch, partOf_type hp]
  exact ⟨rfl, rfl⟩

section
variable {s : State} {type : BitVec 4} {c : Nat} {data : List Byte} {p : Part}

theorem execChunk_runs (hrun : cpRuns s = true) (hses : sessionHolds s 4 = true) (crc : Word) (readOk : Bool) (img : Option UpdImage) :
    exec (.chunk type c data crc readOk img) s = .next (chunkTake type c data crc readOk img s) :=
  if_pos (by rw [hrun, hses]; rfl)

variable (hp : partOf s type.toNat = some p) (hc : c < partChunks p)
  (hlen : data.length = if c + 1 = partChunks p then p.length - 512 * c else 512)
  (hver : s.upd.verified.getLsbD (type.toNat - 1) = false) (hphase : s.upd.phase = .staging ∨ s.upd.phase = .staged)
  (herased : s.upd.erased.getLsbD (type.toNat - 1) = true) (hopen : s.nv.flOpen = [])
include hp hc hlen hver hphase herased hopen

/-- A chunk with which its part is not complete is noted, and no more. -/
theorem chunkTake_noted {readOk : Bool} {img : Option UpdImage} (h : ¬ partChunks p ≤ chunksOf p (chunkNoted p c data readOk img s)) :
    chunkTake type c data (byteCrc data) readOk img s =
      activeSend (.chunk type c data (byteCrc data) true img) (chunkNoted p c data readOk img s) := by
  rw [chunkTake_eq hp hc hlen hver hphase herased hopen, if_neg h]

/-- A chunk that completes its part. -/
theorem chunkTake_done {readOk : Bool} {img : Option UpdImage} (h : partChunks p ≤ chunksOf p (chunkNoted p c data readOk img s)) :
    chunkTake type c data (byteCrc data) readOk img s =
      activeSend (.chunk type c data (byteCrc data) true img) (partDone p (chunkNoted p c data readOk img s)) := by
  rw [chunkTake_eq hp hc hlen hver hphase herased hopen, if_pos h]

/-- A chunk that does not read back leaves its bit. -/
theorem chunk_unread (hnot : ¬ partChunks p ≤ (s.upd.chunks.filter (fun q => decide (q.1 = type.toNat))).length)
    (img : Option UpdImage) : (chunkTake type c data (byteCrc data) false img s).upd.chunks = s.upd.chunks ∧
      (chunkTake type c data (byteCrc data) false img s).upd.verified = s.upd.verified ∧
      (chunkTake type c data (byteCrc data) false img s).mem = s.mem := by
  obtain ⟨hm, hv, -, hch⟩ := chunkNoted_rest p c data false img s
  have hopn : ¬ partChunks p ≤ chunksOf p (chunkNoted p c data false img s) := by
    rw [chunksOf, hch, partOf_type hp]
    exact hnot
  obtain ⟨au, am, -⟩ := activeSend_rest (.chunk type c data (byteCrc data) true img) (chunkNoted p c data false img s)
  rw [chunkTake_noted hp hc hlen hver hphase herased hopen hopn, au, am]
  exact ⟨hch, hv, hm⟩

/-- A chunk of a part that is not complete with it: its bit and, for type 1, its bytes in the flash. -/
theorem chunk_stored
    (hnot : ¬ partChunks p ≤ ((addNew (type.toNat, c) s.upd.chunks).filter (fun q => decide (q.1 = type.toNat))).length)
    (img : Option UpdImage) :
    let t := chunkTake type c data (byteCrc data) true img s
    t.upd.chunks = addNew (type.toNat, c) s.upd.chunks ∧ t.upd.verified = s.upd.verified ∧ t.upd.phase = s.upd.phase ∧ t.mem = s.mem ∧
      (type = 1 → t.nv.flash = (flashPut (0x100000 * p.target + 128 * c) data s).nv.flash) := by
  obtain ⟨hm, hv, hph, -⟩ := chunkNoted_rest p c data true img s
  obtain ⟨hch, hcount⟩ := chunkNoted_read hp c data img
  obtain ⟨au, am, an, -⟩ := activeSend_rest (.chunk type c data (byteCrc data) true img) (chunkNoted p c data true img s)
  intro t
  simp only [t]
  rw [chunkTake_noted hp hc hlen hver hphase herased hopen (hcount ▸ hnot), au, am, an]
  refine ⟨hch, hv, hph, hm, fun htype => chunkNoted_flash ?_ c data true img s⟩
  rw [partOf_type hp, htype]
  rfl

section
variable (hfull : partChunks p ≤ ((addNew (type.toNat, c) s.upd.chunks).filter (fun q => decide (q.1 = type.toNat))).length)
include hfull

/-- A chunk that completes a part whose bytes match. -/
theorem chunk_verifies (htype : type ≠ 4) (hhash : bytesBE (sha256 (partBytes (chunkStore p c data s) p)) = p.hash)
    (img : Option UpdImage) :
    let t := chunkTake type c data (byteCrc data) true img s
    t.upd.chunks = addNew (type.toNat, c) s.upd.chunks ∧ t.upd.verified = s.upd.verified ||| typeBit type.toNat ∧ t.mem = s.mem := by
  obtain ⟨hm, hv, -⟩ := chunkNoted_rest p c data true img s
  have hpt := partOf_type hp
  obtain ⟨hch, hcount⟩ := chunkNoted_read hp c data img
  have htype' : p.type ≠ 4 := fun h => htype (BitVec.eq_of_toNat_eq (hpt.symm.trans h))
  obtain ⟨dc, dv, dm⟩ := partDone_verified ((partBytes_chunkNoted p c data true img s).symm ▸ hhash) htype'
  obtain ⟨au, am, -⟩ := activeSend_rest (.chunk type c data (byteCrc data) true img) (partDone p (chunkNoted p c data true img s))
  intro t
  simp only [t]
  rw [chunkTake_done hp hc hlen hver hphase herased hopen (hcount ▸ hfull), au, am, dc, dv, dm, hch, hv, hm, hpt]
  exact ⟨rfl, rfl, rfl⟩

/-- A chunk that completes a part whose bytes do not match. -/
theorem chunk_mismatches (hhash : bytesBE (sha256 (partBytes (chunkStore p c data s) p)) ≠ p.hash) (img : Option UpdImage) :
    let t := chunkTake type c data (byteCrc data) true img s
    t.upd.result = 8 ∧ t.upd.verified = s.upd.verified ∧
      t.upd.chunks = (addNew (type.toNat, c) s.upd.chunks).filter (fun q => decide (q.1 ≠ type.toNat)) ∧ t.mem = s.mem := by
  obtain ⟨hm, hv, -⟩ := chunkNoted_rest p c data true img s
  have hpt := partOf_type hp
  obtain ⟨hch, hcount⟩ := chunkNoted_read hp c data img
  obtain ⟨dr, dv, dc, dm⟩ := partDone_fails ((partBytes_chunkNoted p c data true img s).symm ▸ hhash)
  obtain ⟨au, am, -⟩ := activeSend_rest (.chunk type c data (byteCrc data) true img) (partDone p (chunkNoted p c data true img s))
  intro t
  simp only [t]
  rw [chunkTake_done hp hc hlen hver hphase herased hopen (hcount ▸ hfull), au, am, dr, dc, dv, dm, hch, hv, hm, hpt]
  exact ⟨rfl, rfl, rfl, rfl⟩

end

end

end Sys2Proof.Machine

namespace Sys2Proof.Machine

/-! ### The decision, confirmations and fallbacks as steps -/

theorem execManifest_runs {s : State} (hrun : cpRuns s = true) (hses : sessionHolds s 4 = true) (m : ManifestMsg) :
    exec (.manifest m) s = .next (manifestTake m s) := if_pos (by rw [hrun, hses]; rfl)

section
variable {s : State} (hphase : s.upd.phase = .armed) (hdec : s.upd.decided = false) (htick : tickRuns s = true)
  (hdue : decisionTick s ≤ s.tick.num) (hrole : s.pair.role = .solo ∨ s.pair.role = .active)
include hphase hdec htick hdue hrole

theorem execDecision_due : exec .decision s = .next (if decisionCode s ≠ 0 then updCancelWith (decisionCode s) s
    else activeSend (.go s.upd.seq) { commitGo s with upd := { (commitGo s).upd with goSent := true } }) :=
  if_pos (by rcases hrole with h | h <;> simp [hphase, hdec, htick, hdue, h])

/-- The decision cancels (R362). -/
theorem decision_cancels (h : decisionCode s ≠ 0) : ∃ t, exec .decision s = .next t ∧ t.upd.phase = .staged ∧ t.upd.decided = false ∧
    t.upd.result = BitVec.ofNat 8 (decisionCode s) ∧ t.mem = s.mem := by
  refine ⟨_, (execDecision_due hphase hdec htick hdue hrole).trans (congrArg Host.Outcome.next (if_pos h)), ?_⟩
  obtain ⟨hu, hm⟩ := updCancelWith_rest (decisionCode s) s
  rw [hu, hm]
  exact ⟨rfl, hdec, rfl, rfl⟩

/-- The decision is GO (R362). -/
theorem decision_goes (h : decisionCode s = 0) : ∃ t, exec .decision s = .next t ∧ t.upd.phase = .armed ∧ t.upd.decided = true ∧
    t.upd.goSent = true ∧ t.mem = s.mem := by
  refine ⟨_, (execDecision_due hphase hdec htick hdue hrole).trans (congrArg Host.Outcome.next (if_neg (not_not.mpr h))), ?_⟩
  obtain ⟨hm, hp, hd⟩ := commitGo_rest s
  generalize commitGo s = x at hm hp hd ⊢
  obtain ⟨au, am, -⟩ := activeSend_rest (.go s.upd.seq) { x with upd := { x.upd with goSent := true } }
  rw [au, am]
  exact ⟨hp.trans hphase, hd, rfl, hm⟩

end

/-- A step that notes confirmations. -/
theorem confirm_spec {s : State} {i : Instr} {parts : BitVec 6}
    (h : exec i s = .next (updFinish { s with upd := { s.upd with confirmed := parts } })) :
    let x := { s with upd := { s.upd with confirmed := parts } }
    (updConfirmed x = false → exec i s = .next x) ∧
      (updConfirmed x = true → ∃ t, exec i s = .next t ∧ t.upd.phase = .idle ∧ t.upd.confSeq = s.upd.seq ∧ t.upd.result = 17 ∧
        t.upd.man = none ∧ t.mem = s.mem) :=
  ⟨fun hno => h.trans (congrArg Host.Outcome.next (updFinish_unconfirmed hno)), fun hyes => ⟨_, h, updFinish_confirmed hyes⟩⟩

/-- A step that calls for a fallback. -/
theorem falls_spec {s : State} {i : Instr} {r : Nat} (hphase : s.upd.phase = .probation) (h : exec i s = .next (fallCall r s)) :
    ∃ t, exec i s = .next t ∧ t.upd.phase = .fallingBack ∧ t.upd.result = BitVec.ofNat 8 r ∧ t.upd.fallNs = s.time.ns ∧
      (493 : BitVec 10) ∈ t.ev.pend ∧ t.mem = s.mem := ⟨_, h, fallCall_spec hphase r⟩

/-- The fallback at its boundary (R366). -/
theorem fallback_spec {s : State} (hphase : s.upd.phase = .fallingBack) (htick : tickRuns s = true) (hdue : s.upd.fallNs < s.tick.t0)
    (hnone : s.sys.pendReset = none) : ∃ t, exec .fallback s = .next t ∧ t.upd.phase = .idle ∧ t.upd.result = s.upd.result ∧
      t.upd.man = none ∧ t.sys.pendReset = some 7 ∧ t.mem = s.mem := by
  have hexec : exec .fallback s = .next (settle (stopForReset 7 (updTo .idle s.upd.result.toNat (cpSend .fallback (dropSet s))))) :=
    if_pos (by simp [hphase, htick, hdue])
  obtain ⟨dm, ds, -, dman, -⟩ := dropSet_rest s
  obtain ⟨cu, cm, cs, -⟩ := cpSend_rest .fallback (dropSet s)
  have hsys : (updTo .idle s.upd.result.toNat (cpSend .fallback (dropSet s))).sys.pendReset = none := by
    obtain ⟨_, _, _, _, _, _, h⟩ := records_updTo .idle s.upd.result.toNat (cpSend .fallback (dropSet s))
    rw [h]
    exact (congrArg SysSt.pendReset cs).trans (ds.trans hnone)
  obtain ⟨su, sm, ss⟩ := stopForReset_rest 7 hsys
  refine ⟨_, hexec, ?_⟩
  rw [settle_upd, settle_sys, settle_mem, su, sm, ss, updTo_upd, updTo_mem, cu, cm, dm]
  exact ⟨rfl, by simp, dman, rfl, rfl⟩

/-! ### The obligation -/

/-- Settles O57: manifests and chunks by what the set then holds, the rest by the phase that each step leaves. -/
theorem fieldUpdate : Obligations.FieldUpdate := by
  unfold Obligations.FieldUpdate
  intro s u
  refine ⟨fun hno => ?idle, fun hrun hses => ⟨fun m hm => ?refused, fun m hm => ?taken, fun type c data crc readOk img hcrc => ?badCrc,
    fun type c data img p hp hc hlen hver hphase herased hopen => ?chunk⟩, fun hphase hdec htick hdue hrole =>
      ⟨decision_cancels hphase hdec htick hdue hrole, decision_goes hphase hdec htick hdue hrole⟩, fun hphase hdec htick hdue hle => ?act,
    fun hphase => ⟨⟨fun hrun => ?confirm, fun hrun hval hstop => ?oemConfirm, fun hmay => ?updConfirm⟩, fun halive hleft => ?timeout,
      fun hmay => ?updFallback⟩, fallback_spec, fun hmay hphase hdec => ?cancel, fun hmay hprob hfall => ?discard⟩
  case idle =>
    have hgate : (cpRuns s && sessionHolds s 4) = false := by
      rcases hno with h | h
      · rw [h]; rfl
      · rw [h, Bool.and_false]
    exact ⟨fun m => if_neg (by rw [hgate]; decide), fun _ _ _ _ _ _ => if_neg (by rw [hgate]; decide)⟩
  case refused =>
    refine ⟨_, (execManifest_runs hrun hses m).trans (congrArg Host.Outcome.next (manifestTake_refused hm)), ?_⟩
    exact ⟨updNote_upd _ s, updNote_pend _ s, updNote_mem _ s⟩
  case taken => exact ⟨_, execManifest_runs hrun hses m, manifestTake_taken hm⟩
  case badCrc => exact (execChunk_runs hrun hses crc readOk img).trans (congrArg Host.Outcome.next (chunkTake_badCrc hcrc type c readOk img))
  case chunk =>
    intro l full x hash
    refine ⟨?_, fun hnot => ?_, fun hfull htype hhash => ?_, fun hfull hhash => ?_⟩
    · by_cases hdone : partChunks p ≤ (u.chunks.filter (fun q => decide (q.1 = type.toNat))).length
      · exact .inl hdone
      · exact .inr ⟨_, execChunk_runs hrun hses _ false img, chunk_unread hp hc hlen hver hphase herased hopen hdone img⟩
    · obtain ⟨hch, hv, hph, hm, hfl⟩ := chunk_stored hp hc hlen hver hphase herased hopen hnot img
      refine ⟨_, execChunk_runs hrun hses _ true img, hch, hv, hph, hm, fun htype hwf i hi => ?_⟩
      rw [hfl htype]
      exact mget_flashPut hwf (0x100000 * p.target + 128 * c) hi
    · exact ⟨_, execChunk_runs hrun hses _ true img, chunk_verifies hp hc hlen hver hphase herased hopen hfull htype hhash img⟩
    · exact ⟨_, execChunk_runs hrun hses _ true img, chunk_mismatches hp hc hlen hver hphase herased hopen hfull hhash img⟩
  case act =>
    have hdue : actDue s = true := by
      unfold actDue
      simp only [u] at hphase hdec hdue
      simp [hphase, hdec, htick, hdue, hle]
    obtain ⟨t, hexec, hprob, hdown, hreset⟩ := activation_spec hdue
    exact ⟨t, hexec, congrArg ProbHeld.phase hprob, congrArg ProbHeld.probFrom hprob, congrArg ProbHeld.partner hprob, hdown, hreset⟩
  case confirm =>
    refine confirm_spec (if_pos ?_)
    rw [hrun, Bool.and_true]
    exact decide_eq_true hphase
  case oemConfirm =>
    refine confirm_spec (if_pos ?_)
    rw [hrun, hval, hstop, Bool.and_true, Bool.and_true, Bool.not_false, Bool.and_true]
    exact decide_eq_true hphase
  case updConfirm =>
    refine confirm_spec ((cpRow_of_rowMay rfl hmay _).trans (congrArg Host.Outcome.next ((if_pos rfl).trans ?_)))
    exact if_pos hphase
  case timeout =>
    refine falls_spec (r := 18) hphase (if_pos ?_)
    rw [halive, hleft]
    simp only [u] at hphase
    rw [hphase]
    rfl
  case updFallback => exact falls_spec (r := 19) hphase ((cpRow_of_rowMay rfl hmay _).trans (congrArg Host.Outcome.next (if_pos rfl)))
  case cancel =>
    obtain ⟨hu, hm⟩ := updCancelWith_rest 16 s
    refine ⟨_, (cpRow_of_rowMay rfl hmay _).trans (congrArg Host.Outcome.next ((if_pos rfl).trans (if_pos ⟨hphase, hdec⟩))), ?_⟩
    rw [hu, hm]
    exact ⟨rfl, rfl, rfl, rfl⟩
  case discard => exact ⟨_, (cpRow_of_rowMay rfl hmay _).trans (congrArg Host.Outcome.next (if_pos rfl)), updDiscardOp_spec hprob hfall⟩

end Sys2Proof.Machine
